-- ==== Sys2Proof/Word.lean ====
section
/-! DEFINITION. The word types of Neroz (01: R4, R26) and their plainest arithmetic. -/

namespace Sys2Proof

/-- A byte (R4). -/
abbrev Byte := BitVec 8

/-- A 64-bit register (R26, R27). -/
abbrev W64 := BitVec 64

/-- A 32-bit instruction word (R55). -/
abbrev W32 := BitVec 32

/-- A program counter, a 48-bit virtual byte address (R13). -/
abbrev Addr48 := BitVec 48

/-- A predicate or event mask of one bit per home lane. -/
abbrev LaneMap := BitVec 32

/-- The 256-bit event and error vectors (R353). -/
abbrev EvVec := BitVec 256

end Sys2Proof
end

