-- ==== Sys2Proof/Config.lean ====
section
/-! DEFINITION. What the spec leaves to the implementation: constants without a body, so that no proof can see their values.
Each is named in a log entry. The first argument of a counted one is the free-value counter of State. -/

namespace Sys2Proof.Config

/-- R69: whether a short read obtains the new value; by counter, fibre position on its core and register number (log 4). -/
opaque shortRead : Nat → Nat → Nat → Bool

/-- R98, R99: how far, in units of the last place, the device's binary32 result of a special function lies from the
nearest representable value, by sub-code and input bits; the model clamps it to the bound of R99 (log 5). -/
opaque specialUlp : Nat → BitVec 32 → Int

/-- R99, R100: the binary32 result of RCP at a nonzero argument whose reciprocal lies beyond binary32, by input bits
(log 5). -/
opaque rcpBeyond : BitVec 32 → BitVec 32

/-- R377: the same as `specialUlp` for the rotary generator's cosine and sine, by binary64 angle bits (log 6). -/
opaque rotaryUlp : Bool → BitVec 64 → Int

/-- R326: which entry of a 64 KiB group that disagrees an access uses, by counter (log 10). -/
opaque contPick : Nat → Nat

/-- R399: how many levels the grants come down in an evaluation so that the cap is held, by counter (log 15). -/
opaque capSteps : Nat → Nat

/-- R399: which of the clusters that come next is lowered, by counter and level taken (log 15). -/
opaque capPick : Nat → Nat → Nat

/-- R399: the watts that a function draws, by counter and function (log 15). -/
opaque functionDraw : Nat → Nat → Nat

/-- R400: the pass count that cap enforcement and thermal protection need, by counter and cluster (log 15). -/
opaque passNeed : Nat → Nat → Nat

/-- R401: energy charged to a context in one evaluation, by counter and context, in microjoules (log 15). -/
opaque energyUse : Nat → Nat → Nat

/-- R386: the idle floor measured at boot, by boot number, in watts (log 15). -/
opaque idleFloor : Nat → Nat

/-- R396: hub cycles that a boot step takes, by counter and step (log 17). -/
opaque stepTime : Nat → Nat → Nat

/-- R395: what the boot ROM holds, and the power tables (log 16). -/
opaque bootRom : List Byte
opaque powerTables : List Byte

/-- R395: the Corgon image as manufactured (log 16). -/
opaque corgonImage : List Byte

/-- R395: the bytes of the hub configuration, by Corgon's configuration numbers (log 16). -/
opaque hubConfig : List Nat → List Byte

/-- R395: the bytes of the physical function's configuration space, by boot number (log 16). -/
opaque pfConfig : Nat → List Byte

/-- R395: byte i of the digests that the boot before State.reset measured (log 17). -/
opaque firstDigest : Nat → Byte

/-- R394: the identity key that the device was given at manufacture (log 16). -/
opaque idKey : BitVec 256

/-- R394: the SM3 digest of the image key's public part in the boot ROM (log 16). -/
opaque imageKeyDigest : List Byte

/-- R394: the ephemeral number of attempt i at the signature over a report (log 16). -/
opaque signNonce : List Byte → Nat → Nat

/-- R395: byte i of the certificate chain (log 16). -/
opaque certByte : Nat → Byte

/-- R395: bytes of the certificate chain (log 16). -/
opaque certLen : Nat

/-- R394: the public key, the signature and the signed bytes that a signed image holds (log 16). -/
opaque imageParts : List Byte → List Byte × List Byte × List Byte

/-- R282, R284: what a copy reads of a register whose window its context no longer has, by counter (log 31). -/
opaque lostSource : Nat → BitVec 64

/-- R214: the words of a top-k state entry beyond the kept count's room (log 22). -/
opaque topkUndefined : Nat → BitVec 32

end Sys2Proof.Config
end

