-- ==== Sys2Proof/Syntax.lean ====
section
/-! DEFINITION. The instructions and events of the opcode table, one constructor per row; operands as the word
formats of R58 and R59 carry them. Rows without an encoding are steps of engines, hub, host and firmware: they carry no
field, and their operands come in State.arg, an `EvArg` (a constructor of an inductive this large cannot carry fields at
its end in compiled code). -/

namespace Sys2Proof

/-- L3: two or three lane registers, VB or a uniform register (R58). -/
structure R3Op where
  stl : BitVec 2
  vd : BitVec 6
  va : BitVec 6
  vb : BitVec 6
  hv : BitVec 1
  ty : BitVec 2
  kb : BitVec 1
  deriving DecidableEq, Repr

/-- L3 with the type fixed by the opcode (PERMB, DOT4). -/
structure R3wOp where
  stl : BitVec 2
  vd : BitVec 6
  va : BitVec 6
  vb : BitVec 6
  hv : BitVec 1
  kb : BitVec 1
  deriving DecidableEq, Repr

/-- CM: a comparison into a mask register. -/
structure CmpOp where
  stl : BitVec 2
  cc : BitVec 3
  md : BitVec 3
  va : BitVec 6
  vb : BitVec 6
  hv : BitVec 1
  ty : BitVec 2
  kb : BitVec 1
  deriving DecidableEq, Repr

/-- SEL: VD, VA and the selecting mask. -/
structure SelOp where
  stl : BitVec 2
  vd : BitVec 6
  va : BitVec 6
  ms : BitVec 3
  hv : BitVec 1
  ty : BitVec 2
  deriving DecidableEq, Repr

/-- Unary L3 with its sub-code in VB. -/
structure UnOp where
  stl : BitVec 2
  vd : BitVec 6
  va : BitVec 6
  hv : BitVec 1
  ty : BitVec 2
  deriving DecidableEq, Repr

/-- MOV of a uniform register. -/
structure MovUOp where
  stl : BitVec 2
  vd : BitVec 6
  ku : BitVec 6
  hv : BitVec 1
  ty : BitVec 2
  deriving DecidableEq, Repr

/-- L2I: VD, VA and IMM8. -/
structure Im8Op where
  stl : BitVec 2
  vd : BitVec 6
  va : BitVec 6
  imm : BitVec 8
  ty : BitVec 2
  deriving DecidableEq, Repr

/-- L2I: an immediate shift count. -/
structure ShIOp where
  stl : BitVec 2
  vd : BitVec 6
  va : BitVec 6
  cnt : BitVec 6
  ty : BitVec 2
  deriving DecidableEq, Repr

/-- LI: VD and IMM14. -/
structure Im14Op where
  stl : BitVec 2
  vd : BitVec 6
  imm : BitVec 14
  ty : BitVec 2
  deriving DecidableEq, Repr

/-- LV: CVT. -/
structure CvtOp where
  stl : BitVec 2
  vd : BitVec 6
  va : BitVec 6
  td : BitVec 4
  ts : BitVec 4
  rnd : BitVec 2
  deriving DecidableEq, Repr

/-- LQ: CVTNB and CVTNBX. -/
structure QuantOp where
  stl : BitVec 2
  vd : BitVec 6
  va : BitVec 6
  g : BitVec 3
  nf : BitVec 2
  bl : BitVec 1
  hf : BitVec 2
  deriving DecidableEq, Repr

/-- L2I: HAD, IMM8 is the length. -/
structure HadOp where
  stl : BitVec 2
  vd : BitVec 6
  va : BitVec 6
  imm : BitVec 8
  deriving DecidableEq, Repr

/-- VOTE, sub-codes 0 to 3. -/
structure VoteOp where
  stl : BitVec 2
  vd : BitVec 6
  va : BitVec 6
  form : BitVec 2
  hv : BitVec 1
  ty : BitVec 2
  deriving DecidableEq, Repr

/-- WRED and WSCAN, the operation in VB. -/
structure RedOp where
  stl : BitVec 2
  vd : BitVec 6
  va : BitVec 6
  op : BitVec 6
  hv : BitVec 1
  ty : BitVec 2
  deriving DecidableEq, Repr

/-- LB. -/
structure BrOp where
  stl : BitVec 2
  va : BitVec 6
  hv : BitVec 1
  cc : BitVec 3
  off : BitVec 12
  deriving DecidableEq, Repr

/-- LJ and GJ. -/
structure JmpOp where
  stl : BitVec 2
  off : BitVec 22
  deriving DecidableEq, Repr

/-- L3 with VA only. -/
structure IndOp where
  stl : BitVec 2
  va : BitVec 6
  hv : BitVec 1
  deriving DecidableEq, Repr

/-- LC, and GL of KCALL (VD is the link register field). -/
structure CallOp where
  stl : BitVec 2
  vd : BitVec 6
  off : BitVec 16
  deriving DecidableEq, Repr

/-- CALLI: link and target. -/
structure IndLOp where
  stl : BitVec 2
  vd : BitVec 6
  va : BitVec 6
  hv : BitVec 1
  deriving DecidableEq, Repr

/-- LK. -/
structure ForkOp where
  stl : BitVec 2
  va : BitVec 6
  cnt : BitVec 4
  off : BitVec 12
  deriving DecidableEq, Repr

/-- REJOIN: VB or a uniform register. -/
structure RejOp where
  stl : BitVec 2
  vb : BitVec 6
  hv : BitVec 1
  kb : BitVec 1
  deriving DecidableEq, Repr

/-- LL with an immediate count. -/
structure LoopIOp where
  stl : BitVec 2
  cnt : BitVec 9
  off : BitVec 12
  deriving DecidableEq, Repr

/-- LL with a uniform count. -/
structure LoopUOp where
  stl : BitVec 2
  kc : BitVec 6
  off : BitVec 12
  deriving DecidableEq, Repr

/-- No operands. -/
structure NulOp where
  stl : BitVec 2
  deriving DecidableEq, Repr

/-- LM: load or store. -/
structure MemOp where
  stl : BitVec 2
  vd : BitVec 6
  va : BitVec 6
  msk : BitVec 3
  off : BitVec 4
  sz : BitVec 2
  hv : BitVec 1
  deriving DecidableEq, Repr

/-- LM of a strong access. -/
structure StrongOp where
  stl : BitVec 2
  vd : BitVec 6
  va : BitVec 6
  msk : BitVec 3
  scope : BitVec 3
  sp : BitVec 1
  sz : BitVec 2
  hv : BitVec 1
  deriving DecidableEq, Repr

/-- LA. -/
structure AtomOp where
  stl : BitVec 2
  vd : BitVec 6
  va : BitVec 6
  aop : BitVec 4
  ord : BitVec 2
  scope : BitVec 3
  hv : BitVec 1
  deriving DecidableEq, Repr

/-- LA in the own scratchpad, no scope. -/
structure AtomSOp where
  stl : BitVec 2
  vd : BitVec 6
  va : BitVec 6
  aop : BitVec 4
  ord : BitVec 2
  hv : BitVec 1
  deriving DecidableEq, Repr

/-- LF. -/
structure FenOp where
  stl : BitVec 2
  ord : BitVec 2
  scope : BitVec 3
  deriving DecidableEq, Repr

/-- LM of PREF. -/
structure PreOp where
  stl : BitVec 2
  lvl : BitVec 2
  va : BitVec 6
  msk : BitVec 3
  off : BitVec 4
  sz : BitVec 2
  hv : BitVec 1
  deriving DecidableEq, Repr

/-- GI. -/
structure KImmOp where
  stl : BitVec 2
  kd : BitVec 6
  ka : BitVec 6
  imm : BitVec 10
  deriving DecidableEq, Repr

/-- G3 with three registers. -/
structure K3Op where
  stl : BitVec 2
  kd : BitVec 6
  ka : BitVec 6
  kb : BitVec 6
  deriving DecidableEq, Repr

/-- KCMP. -/
structure KCcOp where
  stl : BitVec 2
  kd : BitVec 6
  ka : BitVec 6
  kb : BitVec 6
  cc : BitVec 4
  deriving DecidableEq, Repr

/-- KD and KA. -/
structure K2Op where
  stl : BitVec 2
  kd : BitVec 6
  ka : BitVec 6
  deriving DecidableEq, Repr

/-- GL of MOVK. -/
structure KHalfOp where
  stl : BitVec 2
  kd : BitVec 6
  imm : BitVec 16
  deriving DecidableEq, Repr

/-- GB. -/
structure KBrOp where
  stl : BitVec 2
  ka : BitVec 6
  cc : BitVec 4
  off : BitVec 12
  deriving DecidableEq, Repr

/-- KA only. -/
structure K1Op where
  stl : BitVec 2
  ka : BitVec 6
  deriving DecidableEq, Repr

/-- GE with a barrier number. -/
structure KNOp where
  stl : BitVec 2
  n : BitVec 3
  deriving DecidableEq, Repr

/-- WAITANY. -/
structure KWaitOp where
  stl : BitVec 2
  ka : BitVec 6
  n : BitVec 3
  deriving DecidableEq, Repr

/-- GS: SRD and SWR. -/
structure SrOp where
  stl : BitVec 2
  dk : BitVec 1
  reg : BitVec 7
  spr : BitVec 10
  deriving DecidableEq, Repr

/-- GI of TRAP. -/
structure KTrapOp where
  stl : BitVec 2
  imm : BitVec 10
  deriving DecidableEq, Repr

/-- Xcorgon R-type. -/
structure XcOp where
  rs2 : BitVec 5
  rs1 : BitVec 5
  rd : BitVec 5
  deriving DecidableEq, Repr

/-- Xcorgon SWAIT. -/
structure XcWOp where
  rs1 : BitVec 5
  rd : BitVec 5
  deriving DecidableEq, Repr

/-- The operands of an event row; the meaning of each row says which fields it uses and as what. -/
structure EvArg where
  a : Nat := 0
  b : Nat := 0
  c : Nat := 0
  d : Nat := 0
  flag : Bool := false
  v : W64 := 0
  w : W64 := 0
  data : List Byte := []
  nums : List Nat := []
  deriving DecidableEq, Repr

/-- One constructor per row of the opcode table: the rows with words first, then the events. -/
inductive Instr where
  /-- ADD: Adds A and B per sub-element and keeps the low w bits (R81) -/
  | add (o : R3Op)
  /-- SUB: Subtracts B from A per sub-element and keeps the low w bits (R81) -/
  | sub (o : R3Op)
  /-- MUL: Multiplies A by B per sub-element and keeps the low half (R81) -/
  | mul (o : R3Op)
  /-- MULHI_I: Writes the high half of the exact signed product (R81) -/
  | mulhiI (o : R3Op)
  /-- MULHI_N: Writes the high half of the exact unsigned product (R81) -/
  | mulhiN (o : R3Op)
  /-- MAD: Writes the low w bits of A times B plus the old destination (R81) -/
  | mad (o : R3Op)
  /-- AND: Bitwise AND of A and B (R81) -/
  | and (o : R3Op)
  /-- OR: Bitwise OR of A and B (R81) -/
  | or (o : R3Op)
  /-- XOR: Bitwise XOR of A and B (R81) -/
  | xor (o : R3Op)
  /-- ANDN: Bitwise A AND NOT B (R81) -/
  | andn (o : R3Op)
  /-- SHL: Shifts A left by the count in B, giving 0 for counts of w or more (R82) -/
  | shl (o : R3Op)
  /-- SHR: Shifts A right logically by the count in B (R82) -/
  | shr (o : R3Op)
  /-- SAR: Shifts A right arithmetically by the count in B (R82) -/
  | sar (o : R3Op)
  /-- ROT: Rotates A left by the count in B modulo w (R82) -/
  | rot (o : R3Op)
  /-- MIN_I: Signed minimum of A and B (R81) -/
  | minI (o : R3Op)
  /-- MIN_N: Unsigned minimum of A and B (R81) -/
  | minN (o : R3Op)
  /-- MAX_I: Signed maximum of A and B (R81) -/
  | maxI (o : R3Op)
  /-- MAX_N: Unsigned maximum of A and B (R81) -/
  | maxN (o : R3Op)
  /-- ADDSAT_I: Signed saturating addition (R81) -/
  | addsatI (o : R3Op)
  /-- ADDSAT_N: Unsigned saturating addition (R81) -/
  | addsatN (o : R3Op)
  /-- SUBSAT_I: Signed saturating subtraction (R81) -/
  | subsatI (o : R3Op)
  /-- SUBSAT_N: Unsigned saturating subtraction (R81) -/
  | subsatN (o : R3Op)
  /-- AVG_I: Signed rounded-up average of A and B (R81) -/
  | avgI (o : R3Op)
  /-- AVG_N: Unsigned rounded-up average of A and B (R81) -/
  | avgN (o : R3Op)
  /-- SAD_I: Adds the signed absolute difference of A and B to the destination (R81) -/
  | sadI (o : R3Op)
  /-- SAD_N: Adds the unsigned absolute difference of A and B to the destination (R81) -/
  | sadN (o : R3Op)
  /-- DOT4_I: Accumulates a signed four-byte dot product into each 32-bit sub-element (R87) -/
  | dot4I (o : R3wOp)
  /-- DOT4_N: Accumulates an unsigned four-byte dot product into each 32-bit sub-element (R87) -/
  | dot4N (o : R3wOp)
  /-- CMP_I: Compares A with B as signed under a condition and writes a mask register (R89) -/
  | cmpI (o : CmpOp)
  /-- CMP_N: Compares A with B as unsigned under a condition and writes a mask register (R89) -/
  | cmpN (o : CmpOp)
  /-- SEL: Takes each sub-element from A where the mask bit is 1 and keeps the destination elsewhere (R90) -/
  | sel (o : SelOp)
  /-- MOV_REG: Copies a lane register to the destination (R91) -/
  | movReg (o : UnOp)
  /-- MOV_UNIFORM: Copies a uniform register to a lane register (R91) -/
  | movUniform (o : MovUOp)
  /-- NEG: Negates each sub-element modulo 2^w (R84) -/
  | neg (o : UnOp)
  /-- ABS: Takes the two's-complement absolute value of each sub-element (R84) -/
  | abs (o : UnOp)
  /-- NOT: Inverts every bit (R84) -/
  | not (o : UnOp)
  /-- POPC: Counts the one bits of each sub-element (R84) -/
  | popc (o : UnOp)
  /-- CLZ: Counts leading zero bits (R84) -/
  | clz (o : UnOp)
  /-- CTZ: Counts trailing zero bits (R84) -/
  | ctz (o : UnOp)
  /-- BREV: Reverses the bits of each sub-element (R84) -/
  | brev (o : UnOp)
  /-- BFX: Extracts a zero-extended bit field described by B (R85) -/
  | bfx (o : R3Op)
  /-- BFI: Inserts the low bits of A into a field of the destination described by B (R85) -/
  | bfi (o : R3Op)
  /-- PERMB: Permutes or zeroes the bytes of A under the byte selectors in B (R86) -/
  | permb (o : R3wOp)
  /-- LEA: Adds A and B and canonicalises the sum to a 48-bit address (R88) -/
  | lea (o : R3Op)
  /-- ADDI: Adds a signed 8-bit immediate to each sub-element (R83) -/
  | addi (o : Im8Op)
  /-- SHLI: Shifts left by an immediate count (R83) -/
  | shli (o : ShIOp)
  /-- SHRI: Shifts right logically by an immediate count (R83) -/
  | shri (o : ShIOp)
  /-- SARI: Shifts right arithmetically by an immediate count (R83) -/
  | sari (o : ShIOp)
  /-- ROTI: Rotates left by an immediate count (R83) -/
  | roti (o : ShIOp)
  /-- MOVI: Writes a signed 14-bit immediate into every sub-element (R83) -/
  | movi (o : Im14Op)
  /-- FADD: Floating-point addition rounded once under FPCTL (R93) -/
  | fadd (o : R3Op)
  /-- FSUB: Floating-point subtraction rounded once (R93) -/
  | fsub (o : R3Op)
  /-- FMUL: Floating-point multiplication rounded once (R93) -/
  | fmul (o : R3Op)
  /-- FMA: Fused A times B plus the destination (R93) -/
  | fma (o : R3Op)
  /-- FMS: Fused A times B minus the destination (R93) -/
  | fms (o : R3Op)
  /-- FMIN: IEEE minimumNumber of A and B (R94) -/
  | fmin (o : R3Op)
  /-- FMAX: IEEE maximumNumber of A and B (R94) -/
  | fmax (o : R3Op)
  /-- FCMP: Compares floating-point values under a condition and writes a mask register (R95) -/
  | fcmp (o : CmpOp)
  /-- FSCALE: Multiplies A by 2 to the integer power in B, rounded once (R96) -/
  | fscale (o : R3Op)
  /-- FABS: Clears the sign bit (R97) -/
  | fabs (o : UnOp)
  /-- FNEG: Inverts the sign bit (R97) -/
  | fneg (o : UnOp)
  /-- FCLASS: Writes a one-hot class code of each value (R97) -/
  | fclass (o : UnOp)
  /-- FRND: Rounds to an integral value under FPCTL.RM (R97) -/
  | frnd (o : UnOp)
  /-- FRND_RN: Rounds to an integral value, nearest-even (R97) -/
  | frndRn (o : UnOp)
  /-- FRND_RZ: Rounds to an integral value toward zero (R97) -/
  | frndRz (o : UnOp)
  /-- FRND_RU: Rounds to an integral value toward plus infinity (R97) -/
  | frndRu (o : UnOp)
  /-- FRND_RD: Rounds to an integral value toward minus infinity (R97) -/
  | frndRd (o : UnOp)
  /-- RCP: Computes the reciprocal with variable latency (R98) -/
  | rcp (o : UnOp)
  /-- RSQ: Computes the reciprocal square root (R98) -/
  | rsq (o : UnOp)
  /-- SQRT: Computes the correctly rounded square root (R98) -/
  | sqrt (o : UnOp)
  /-- EX2: Computes 2 to the power x (R98) -/
  | ex2 (o : UnOp)
  /-- LG2: Computes the base-2 logarithm (R98) -/
  | lg2 (o : UnOp)
  /-- SINP: Computes sin of pi times x (R98) -/
  | sinp (o : UnOp)
  /-- COSP: Computes cos of pi times x (R98) -/
  | cosp (o : UnOp)
  /-- TANH: Computes the hyperbolic tangent (R98) -/
  | tanh (o : UnOp)
  /-- CVT: Converts between integer and floating-point types under its own rounding (R108) -/
  | cvt (o : CvtOp)
  /-- CVTNB: Quantises blocks across lanes into NB8, NB6 or NB4 element codes (R112) -/
  | cvtnb (o : QuantOp)
  /-- CVTNBX: Quantises blocks across lanes and writes the scale pairs into every member (R113) -/
  | cvtnbx (o : QuantOp)
  /-- HAD: Applies a 16- or 32-point Hadamard transform across lanes (R110) -/
  | had (o : HadOp)
  /-- PACK: Joins the low halves of the sub-elements of A and B (R114) -/
  | pack (o : R3Op)
  /-- UNPACK: Zero-extends the fields of one half of A selected by B bit 0 (R115) -/
  | unpack (o : R3Op)
  /-- SHFL_IDX: Reads a partner's sub-element at a register index (R122) -/
  | shflIdx (o : R3Op)
  /-- SHFL_XOR: Reads a partner's sub-element at an XOR distance given by register (R122) -/
  | shflXor (o : R3Op)
  /-- SHFL_UP: Reads the sub-element a register-given distance lower in flat order (R122) -/
  | shflUp (o : R3Op)
  /-- SHFL_DN: Reads the sub-element a register-given distance higher in flat order (R122) -/
  | shflDn (o : R3Op)
  /-- BCAST: Broadcasts one lane's sub-element to every sub-element of every member (R123) -/
  | bcast (o : Im8Op)
  /-- SHFL_XOR_CONST: Reads a partner's sub-element at a constant XOR distance (R122) -/
  | shflXorConst (o : Im8Op)
  /-- SHFL_UP_CONST: Reads the sub-element a constant distance lower (R122) -/
  | shflUpConst (o : Im8Op)
  /-- SHFL_DN_CONST: Reads the sub-element a constant distance higher (R122) -/
  | shflDnConst (o : Im8Op)
  /-- QXCH: Exchanges values with the horizontal, vertical or diagonal quad partner (R125) -/
  | qxch (o : Im8Op)
  /-- VOTE: Votes any, all, eq or ballot over the contributing members (R126) -/
  | vote (o : VoteOp)
  /-- MATCH: Writes the map of contributors whose value matches each member's own (R127) -/
  | matchLanes (o : UnOp)
  /-- WRED: Reduces each sub-element index over the contributors in a fixed tree (R128) -/
  | wred (o : RedOp)
  /-- WSCAN: Computes inclusive prefixes over contributors in home-lane order (R129) -/
  | wscan (o : RedOp)
  /-- BR: Branches each fibre whose register meets the condition against zero (R132) -/
  | br (o : BrOp)
  /-- JMP: Jumps every active fibre to a PC-relative target (R133) -/
  | jmp (o : JmpOp)
  /-- JI: Jumps each fibre to the address in its own register (R134) -/
  | ji (o : IndOp)
  /-- CALL: Writes the return address to a link register and jumps (R133) -/
  | call (o : CallOp)
  /-- CALLI: Writes the link and jumps to the address read from a register (R134) -/
  | calli (o : IndLOp)
  /-- RET: Returns to the address in a register (R134) -/
  | ret (o : IndOp)
  /-- FORK: Creates a new fibre per active fibre with copied registers at a target (R137) -/
  | fork (o : ForkOp)
  /-- REJOIN: Makes each fibre wait for the fibres named by its rejoin mask (R141) -/
  | rejoin (o : RejOp)
  /-- LOOP_IMM: Takes a hardware loop level with an immediate count (R143) -/
  | loopImm (o : LoopIOp)
  /-- LOOP_UNIFORM: Takes a hardware loop level with a count from a uniform register (R143) -/
  | loopUniform (o : LoopUOp)
  /-- NOP: Does nothing (R140) -/
  | nop (o : NulOp)
  /-- YIELD: Makes each active fibre not ready for the next 4 issue slots (R140) -/
  | yield (o : NulOp)
  /-- END: Retires each active fibre of the batch (R139) -/
  | endFibre (o : NulOp)
  /-- SETPERF_L: Requests the performance level given by the largest lane value (R146) -/
  | setperfL (o : IndOp)
  /-- LD_G: Loads masked sub-elements from global virtual memory (R149) -/
  | ldG (o : MemOp)
  /-- LD_S: Loads masked sub-elements from the own scratchpad (R149) -/
  | ldS (o : MemOp)
  /-- LD_A: Loads masked sub-elements from the own accumulator memory (R149) -/
  | ldA (o : MemOp)
  /-- LD_O: Loads masked sub-elements from the own operand buffer (R149) -/
  | ldO (o : MemOp)
  /-- LD_W: Loads masked sub-elements from an on-chip window address (R149) -/
  | ldW (o : MemOp)
  /-- ST_G: Stores masked sub-elements to global virtual memory (R149) -/
  | stG (o : MemOp)
  /-- ST_S: Stores masked sub-elements to the own scratchpad (R149) -/
  | stS (o : MemOp)
  /-- ST_A: Stores masked sub-elements to the own accumulator memory (R149) -/
  | stA (o : MemOp)
  /-- ST_O: Pane store of masked sub-elements to the operand buffer, warp-wide (R154) -/
  | stO (o : MemOp)
  /-- ST_W: Stores masked sub-elements to an on-chip window address (R149) -/
  | stW (o : MemOp)
  /-- LD_STRONG: Strong load at a scope from global or window space (R155) -/
  | ldStrong (o : StrongOp)
  /-- ST_STRONG: Strong store at a scope to global or window space (R155) -/
  | stStrong (o : StrongOp)
  /-- ATOM_G32: 32-bit atomic read-modify-write on global memory (R159) -/
  | atomG32 (o : AtomOp)
  /-- ATOM_G64: 64-bit atomic read-modify-write on global memory (R159) -/
  | atomG64 (o : AtomOp)
  /-- ATOM_S32: 32-bit atomic on the own scratchpad at CORE scope (R159) -/
  | atomS32 (o : AtomSOp)
  /-- ATOM_S64: 64-bit atomic on the own scratchpad at CORE scope (R159) -/
  | atomS64 (o : AtomSOp)
  /-- ATOM_W32: 32-bit atomic on an on-chip window address (R159) -/
  | atomW32 (o : AtomOp)
  /-- ATOM_W64: 64-bit atomic on an on-chip window address (R159) -/
  | atomW64 (o : AtomOp)
  /-- FENCE: Orders the fibre's strong accesses and atomics at a scope (R314) -/
  | fence (o : FenOp)
  /-- PHASE: Phase boundary that releases and/or acquires at a scope (R310) -/
  | phase (o : FenOp)
  /-- PREF: Hints a prefetch into the memory-side cache or TLB without traps (R157) -/
  | pref (o : PreOp)
  /-- KVLD_READ: Reads a key-value cache row through the residency map with a status (R374) -/
  | kvldRead (o : R3Op)
  /-- KVLD_OPEN: Reads a row and takes a stream hold on its page (R375) -/
  | kvldOpen (o : R3Op)
  /-- KVLD_CLOSE: Reads a row and drops the group's stream hold on its page (R375) -/
  | kvldClose (o : R3Op)
  /-- KVAPP_APPEND: Writes a row, taking a page from the free ring if unmapped, with optional rotation (R376) -/
  | kvappAppend (o : R3Op)
  /-- KVAPP_UNREF: Drops one reference to a cache page, freeing or draining it at zero (R376) -/
  | kvappUnref (o : R3Op)
  /-- KVAPP_PAGEIN: Pops an HBM page and marks a tier-2 entry as being paged in (R376) -/
  | kvappPagein (o : R3Op)
  /-- KVAPP_COMMIT: Releases and makes a paged-in entry HBM-resident, freeing its tier-2 page (R376) -/
  | kvappCommit (o : R3Op)
  /-- KVAPP_RETAIN: Adds one reference to a cache page (R376) -/
  | kvappRetain (o : R3Op)
  /-- ILLEGAL_WORD: A word that is not an instruction traps ILLEGAL in every active fibre without effect (R72) -/
  | illegalWord (w : BitVec 32)
  /-- KADD_IMM: Uniform addition of an immediate (R183) -/
  | kaddImm (o : KImmOp)
  /-- KSUB_IMM: Uniform subtraction of an immediate (R183) -/
  | ksubImm (o : KImmOp)
  /-- KMUL_IMM: Uniform multiplication by an immediate (R183) -/
  | kmulImm (o : KImmOp)
  /-- KAND_IMM: Uniform AND with an immediate (R183) -/
  | kandImm (o : KImmOp)
  /-- KOR_IMM: Uniform OR with an immediate (R183) -/
  | korImm (o : KImmOp)
  /-- KXOR_IMM: Uniform XOR with an immediate (R183) -/
  | kxorImm (o : KImmOp)
  /-- KSHL_IMM: Uniform left shift by an immediate (R183) -/
  | kshlImm (o : KImmOp)
  /-- KSHR_IMM: Uniform logical right shift by an immediate (R183) -/
  | kshrImm (o : KImmOp)
  /-- KADD_REG: Uniform addition of two registers (R183) -/
  | kaddReg (o : K3Op)
  /-- KSUB_REG: Uniform subtraction of two registers (R183) -/
  | ksubReg (o : K3Op)
  /-- KMUL_REG: Uniform multiplication of two registers (R183) -/
  | kmulReg (o : K3Op)
  /-- KAND_REG: Uniform AND of two registers (R183) -/
  | kandReg (o : K3Op)
  /-- KOR_REG: Uniform OR of two registers (R183) -/
  | korReg (o : K3Op)
  /-- KXOR_REG: Uniform XOR of two registers (R183) -/
  | kxorReg (o : K3Op)
  /-- KSHL_REG: Uniform left shift by a register count (R183) -/
  | kshlReg (o : K3Op)
  /-- KSHR_REG: Uniform logical right shift by a register count (R183) -/
  | kshrReg (o : K3Op)
  /-- KCMP: Writes 1 or 0 by comparing two uniform registers under a condition (R184) -/
  | kcmp (o : KCcOp)
  /-- KSEL: Copies kA to KD when kB is nonzero (R184) -/
  | ksel (o : K3Op)
  /-- KMOV: Copies one uniform register to another (R184) -/
  | kmov (o : K2Op)
  /-- MOVK_H0: Writes half-word 0 of a uniform register, keeping the others (R184) -/
  | movkH0 (o : KHalfOp)
  /-- MOVK_H1: Writes half-word 1 of a uniform register (R184) -/
  | movkH1 (o : KHalfOp)
  /-- MOVK_H2: Writes half-word 2 of a uniform register (R184) -/
  | movkH2 (o : KHalfOp)
  /-- MOVK_H3: Writes half-word 3 of a uniform register (R184) -/
  | movkH3 (o : KHalfOp)
  /-- KLD_G: Uniform 8-byte load from global memory (R185) -/
  | kldG (o : KImmOp)
  /-- KLD_S: Uniform 8-byte load from the scratchpad (R185) -/
  | kldS (o : KImmOp)
  /-- KST_G: Uniform 8-byte store to global memory (R185) -/
  | kstG (o : KImmOp)
  /-- KST_S: Uniform 8-byte store to the scratchpad (R185) -/
  | kstS (o : KImmOp)
  /-- KBR: Branches the whole batch when a uniform register meets the condition (R186) -/
  | kbr (o : KBrOp)
  /-- KJMP: Jumps the whole batch to a target (R186) -/
  | kjmp (o : JmpOp)
  /-- KCALL: Writes the return address to a uniform register and jumps (R186) -/
  | kcall (o : CallOp)
  /-- KRET: Jumps the batch to the address in a uniform register (R186) -/
  | kret (o : K1Op)
  /-- BAR: Waits at a group barrier until every warp has arrived (R173) -/
  | bar (o : KNOp)
  /-- TBAR: Waits at a team barrier until every group has arrived (R174) -/
  | tbar (o : KNOp)
  /-- WAITANY: Consumes a latched event or parks the warp on a list of bindings (R169) -/
  | waitany (o : KWaitOp)
  /-- ARM: Arms a token in the lowest free pending slot of each warp (R168) -/
  | arm (o : K1Op)
  /-- DISARM: Empties the pending slot holding a token (R168) -/
  | disarm (o : K1Op)
  /-- POST: Fires a mailbox token with a payload (R171) -/
  | post (o : K2Op)
  /-- EVSET: Sets a bit of the context's event vector with release at DEVICE scope (R172) -/
  | evset (o : K1Op)
  /-- EVCLR: Clears a bit of the event and error vectors (R172) -/
  | evclr (o : K1Op)
  /-- CPYK: Submits a copy request, entering its ranges in the shutter table (R175) -/
  | cpyk (o : K1Op)
  /-- HANDOFF: Passes an extent to the group that receives a handoff token (R178) -/
  | handoff (o : K2Op)
  /-- QPULL: Removes the oldest item of a hardware work queue (R179) -/
  | qpull (o : K2Op)
  /-- ENQ: Appends a 64-byte record to a node bin of the cluster (R180) -/
  | enq (o : K2Op)
  /-- KICK: Writes a write index to a user queue's kick register (R181) -/
  | kick (o : K1Op)
  /-- PRES: Installs a pane layout from a template for the warp's reserved pane (R207) -/
  | pres (o : K1Op)
  /-- PREL: Marks the warp's pane filled before the upcall returns (R208) -/
  | prel (o : K1Op)
  /-- PSCL: Returns the scale-area and side-band offsets of a pane (R209) -/
  | pscl (o : K2Op)
  /-- UPRET: Returns the warp's upcall and ends its occupied state (R210) -/
  | upret (o : NulOp)
  /-- UPFAIL: Aborts the walk with failure code 2 (R211) -/
  | upfail (o : K1Op)
  /-- RECUR: Starts a recursion object on the core's unfolding engine (R236) -/
  | recur (o : K1Op)
  /-- RCHILD: Stages one child of the current frame, ending divide on LAST (R237) -/
  | rchild (o : K1Op)
  /-- RBASE: Ends divide as a base case (R238) -/
  | rbase (o : NulOp)
  /-- RRES: Writes the frame result and ends base or combine (R238) -/
  | rres (o : K1Op)
  /-- RARG: Reads the argument of a breadth-region frame (R238) -/
  | rarg (o : K2Op)
  /-- SRD: Reads a special register into a lane or uniform register (R260) -/
  | srd (o : SrOp)
  /-- SWR: Writes a special register from a lane or uniform register (R261) -/
  | swr (o : SrOp)
  /-- TRAP: Traps precisely with cause TRAP and a code (R256) -/
  | trap (o : KTrapOp)
  /-- TRET: Ends the warp mask and continues at TRAPPC (R257) -/
  | tret (o : NulOp)
  /-- TMASK: Masks the warps of the batch and sets their budget (R258) -/
  | tmask (o : NulOp)
  /-- TUNMASK: Ends the mask of the warps of the batch (R258) -/
  | tunmask (o : NulOp)
  /-- RGN: Marks a region entry after earlier accesses pass translation (R252) -/
  | rgn (o : NulOp)
  /-- SETPERF: Requests a performance level for the context (R262) -/
  | setperf (o : K1Op)
  /-- BKPT: Traps precisely with cause BKPT (R256) -/
  | bkpt (o : NulOp)
  /-- HALT: Stops the group deliberately through the fault path (R259) -/
  | halt (o : NulOp)
  /-- RFETCH: Performs one packet fetch for a hardware queue slot into hub SRAM (R391) -/
  | rfetch (o : XcOp)
  /-- XBFE: Extracts a zero-extended bit field (R391) -/
  | xbfe (o : XcOp)
  /-- XBFE_S: Extracts a sign-extended bit field (R391) -/
  | xbfeS (o : XcOp)
  /-- SWAIT: Waits for a pending signal line in a mask and clears the lines returned (R392) -/
  | swait (o : XcWOp)
  /-- DISP: Places and releases or restores a group described in hub SRAM (R393) -/
  | disp (o : XcOp)
  /-- VARIABLE_LATENCY_ARRIVAL: A variable-latency result arrives in its register, making waiting readers ready (R68) -/
  | variableLatencyArrival
  /-- YIELD_WAIT_END: The 4-slot wait of YIELD ends and the fibre becomes ready (R140) -/
  | yieldWaitEnd
  /-- REJOIN_RELEASE: Waiting fibres with equal masks are released when all named fibres wait (R141) -/
  | rejoinRelease
  /-- REJOINDL: A rejoin deadlock set traps REJOINDL within 64 cycles (R142) -/
  | rejoindl
  /-- EVENT_DELIVERY: An arriving event latches in an armed slot or wakes a parked warp at a handler (R169) -/
  | eventDelivery
  /-- MAILBOX_ARRIVAL: A post to another core reaches it within the fabric delay (R171) -/
  | mailboxArrival
  /-- FAULT_PATH: The trapping group stops at its boundaries and is descheduled as replayable (R249) -/
  | faultPath
  /-- PAGE_REQUEST_ISSUE: A waiting page request takes a free slot of its function and is sent (R333) -/
  | pageRequestIssue
  /-- STAGE2_REQUEST_RECORD: A stage-2 request record is written to the request ring once it has room (R334) -/
  | stage2RequestRecord
  /-- FAULT_RECORD: A fault record is written to the fault ring when there is room and FRWR advances (R341) -/
  | faultRecord
  /-- FAULT_RING_POLL: A waiting record rereads FRRD at least every 1 µs (R341) -/
  | faultRingPoll
  /-- PRG_RESPONSE_SUCCESS: A stage-1 reply with Success satisfies its request and may resume the group (R335) -/
  | prgResponseSuccess
  /-- PRG_RESPONSE_INVALID_REQUEST: A stage-1 reply with Invalid Request fails its request (R335) -/
  | prgResponseInvalidRequest
  /-- PRG_RESPONSE_FAILURE: A stage-1 Response Failure fails every outstanding request of the function (R335) -/
  | prgResponseFailure
  /-- S2REPLY_SUCCESS: A write of S2REPLY with code Success satisfies a stage-2 request (R388) -/
  | s2replySuccess
  /-- S2REPLY_INVALID_REQUEST: A write of S2REPLY with code Invalid Request fails a stage-2 request (R388) -/
  | s2replyInvalidRequest
  /-- S2REPLY_RESPONSE_FAILURE: A write of S2REPLY with Response Failure fails every outstanding request of the function (R388) -/
  | s2replyResponseFailure
  /-- FREPLY_RESUME: The driver answers a fault record with RESUME (R387) -/
  | freplyResume
  /-- FREPLY_TERMINATE: The driver answers a fault record with TERMINATE, retiring the group (R387) -/
  | freplyTerminate
  /-- TRANSLATION_WALK: A two-stage table walk completes with a translation or a fault (R328) -/
  | translationWalk
  /-- ATS_INVALIDATION_REQUEST: An ATS Invalidation Request for a PASID range arrives from the host (R331) -/
  | atsInvalidationRequest
  /-- S2INV_RANGE: A write of S2INV requests invalidation of an IPA range (R388) -/
  | s2invRange
  /-- S2INV_ALL: A write of S2INV with ALL requests invalidation of every IPA of a function (R388) -/
  | s2invAll
  /-- INVALIDATION_COMPLETE: An invalidation completes once no old translation remains in use (R331) -/
  | invalidationComplete
  /-- MASK_BUDGET_EXPIRY: A masked warp's budget reaches 0 and its mask ends (R258) -/
  | maskBudgetExpiry
  /-- PREEMPTION_REQUEST: A stop request arrives and removes a set of warps from a core (R263) -/
  | preemptionRequest
  /-- GROUP_SAVE: A stopped group's state is written to a save area from the save pool (R263) -/
  | groupSave
  /-- GROUP_RESTORE: A saved group is restored on a core with room (R268) -/
  | groupRestore
  /-- PARTIAL_EVICTION: A class-0 or class-1 group passed over for 20 µs evicts younger warps (R365) -/
  | partialEviction
  /-- ENERGY_QUOTA_EXHAUSTED: A context's remaining energy reaches 0 and all its warps are stopped (R266) -/
  | energyQuotaExhausted
  /-- ENERGY_PERIOD_START: At each energy period the remaining energy is reset to EQ (R366) -/
  | energyPeriodStart
  /-- WALK_DISPATCH: The dispatcher validates the problem record and releases both role groups (R187) -/
  | walkDispatch
  /-- WALK_DRAW: A relaxed fetch-and-add on the walk counter returns a chunk of units (R192) -/
  | walkDraw
  /-- WALK_STEP_ADMIT: A step enters the window, allotting slots, reserving panes and raising upcalls (R271) -/
  | walkStepAdmit
  /-- UPCALL_DELIVERY: A role's oldest undelivered upcall is delivered to one parked warp (R203) -/
  | upcallDelivery
  /-- TILE_PRODUCT: The array completes one tile product and frees panes it last read (R195) -/
  | tileProduct
  /-- WALK_ABORT_REMOTE: An abort reaches another participating core, which aborts with code 8 (R218) -/
  | walkAbortRemote
  /-- WALK_GRACE_EXPIRY: The 20,000-cycle grace of a pre-empted walk ends and its state is saved (R221) -/
  | walkGraceExpiry
  /-- ROUTINE_START: The unfolding engine starts divide, base or combine on a lane (R233) -/
  | routineStart
  /-- COPY_ELEMENT: A copy channel performs one element and advances its write pointer (R288) -/
  | copyElement
  /-- ATOMIC_ENGINE_APPLY: A cluster atomic engine applies one request to a line and returns the old value (R299) -/
  | atomicEngineApply
  /-- GOPEN_WRITE: A store to GOPEN opens a register grant entry (R283) -/
  | gopenWrite
  /-- GCLOSE_WRITE: A store to GCLOSE closes a register grant entry (R284) -/
  | gcloseWrite
  /-- GRANT_LAPSE: A grant lapses once no copy into it is live (R284) -/
  | grantLapse
  /-- STREAM_RELEASE: After a group ends, its stream holds are released on the map entries (R375) -/
  | streamRelease
  /-- KICK_WRITE: A write of KICK offers a new held index to a user queue (R345) -/
  | kickWrite
  /-- PACKET_FETCH: The fetcher reads one packet from the ring and publishes the read index (R346) -/
  | packetFetch
  /-- FETCHER_RETRY: A paused fetcher re-examines its slot every 1 µs (R346) -/
  | fetcherRetry
  /-- LAUNCH: A LAUNCH packet is taken and its groups are placed (R350) -/
  | launch
  /-- WALK: A WALK packet is taken and its walk is dispatched (R187) -/
  | walk
  /-- RECUR_PACKET: A RECUR packet is taken, its object copied and its recursion started (R350) -/
  | recurPacket
  /-- EVENT: An EVENT packet clears its listed event and error bits and completes (R354) -/
  | event
  /-- GROUP_PLACEMENT: A group is placed and released when its core has all its resources free (R356) -/
  | groupPlacement
  /-- PASSED_OVER_TIMEOUT: A packet passed over for 100 µs blocks later packets from its resources (R357) -/
  | passedOverTimeout
  /-- COMPLETION_WORD_WRITE: A deferred completion word is written once its page requests succeed (R358) -/
  | completionWordWrite
  /-- MAPPING_TICK: Every 5 µs Corgon remaps queues with work onto general slots (R360) -/
  | mappingTick
  /-- BIN_COUNTDOWN_EXPIRY: A node bin's countdown expires and it launches a group (R368) -/
  | binCountdownExpiry
  /-- CTXCMD_CREATE: A CTXCMD create reads and checks a context descriptor (R340) -/
  | ctxcmdCreate
  /-- CTXCMD_REREAD: A CTXCMD reread reloads a context descriptor (R340) -/
  | ctxcmdReread
  /-- CTXCMD_DESTROY: A CTXCMD destroy ends a context and all it holds (R386) -/
  | ctxcmdDestroy
  /-- CONTEXT_DESTROY_DONE: CTXST.DONE is set once nothing of a destroyed context remains (R386) -/
  | contextDestroyDone
  /-- S2ROOT_WRITE: A write of S2ROOT sets a function's stage-2 root unless it has a live context (R386) -/
  | s2rootWrite
  /-- CAP_WRITE: A write of CAP sets, clamps or rejects the module power cap (R398) -/
  | capWrite
  /-- FLOOR_WRITE: A write of FLOOR sets a function's guaranteed watts unless the sum exceeds the cap (R398) -/
  | floorWrite
  /-- REGISTER_WRITE: A write to a function register without behaviour of its own stores or is ignored (R386) -/
  | registerWrite
  /-- POWER_EVALUATION: Every 10 µs the controller computes each cluster's grant and pass count (R399) -/
  | powerEvaluation
  /-- HOST_WRITE: A host CXL.mem write to device memory arrives (R385) -/
  | hostWrite
  /-- PEER_ACCESS: An access from a peer over a fabric link is performed at this device (R389) -/
  | peerAccess
  /-- LINK_UP: A fabric link comes up (R390) -/
  | linkUp
  /-- LINK_DOWN: A fabric link goes down and its aperture becomes a Range fault (R390) -/
  | linkDown
  /-- TEMPERATURE_THRESHOLD: A die temperature crosses a threshold and raises signal line 8 (R392) -/
  | temperatureThreshold
  /-- UNCORRECTED_ERROR: A compute die reports an uncorrected error, raising line 11 (R392) -/
  | uncorrectedError
  /-- CORE_SIGNAL_WRITE: A Corgon store to the core-signal register raises a signal line (R392) -/
  | coreSignalWrite
  /-- SWAIT_WAKE: A raised signal line ends a waiting SWAIT (R392) -/
  | swaitWake
  /-- ATTEST: Returns a signed measurement report for a host nonce (R395) -/
  | attest
  /-- CERT: Returns the device certificate chain (R403) -/
  | cert
  /-- BOOTCLR: Appends an OK entry for every boot step (R397) -/
  | bootclr
  /-- ALLOT: Allots a context map to a function (R403) -/
  | allot
  /-- LEVREAD: Returns the last-events record to a host buffer (R403) -/
  | levread
  /-- UPDATE: Verifies a signed image and writes it to the alternate bank (R403) -/
  | update
  /-- STOP: Debug command that stops and saves every group of the context except the monitor's (R404) -/
  | stopCmd
  /-- GO: Debug command that restores halted groups and resumes them (R404) -/
  | goCmd
  /-- RDMEM: Debug command that reads up to 48 bytes of memory (R404) -/
  | rdmem
  /-- WRMEM: Debug command that writes up to 48 bytes of memory (R404) -/
  | wrmem
  /-- RDSAVE: Debug command that reads 48 bytes of a group save area (R404) -/
  | rdsave
  /-- BREAK: Debug command that replaces a word with BKPT and returns the old word (R404) -/
  | breakCmd
  /-- COLD_RESET: A cold reset runs every boot step and records each (R396) -/
  | coldReset
  /-- WARM_RESET: A warm reset runs steps 15, 17–22 and 24 only (R396) -/
  | warmReset
  /-- QUEUE_RESET: The driver resets a user queue, rereading its descriptor and restarting it if it was stopped (R346) -/
  | queueReset
  /-- PRI_REENABLE: The driver re-enables PRI for a function after a Response Failure, so page requests may be raised again (R335) -/
  | priReenable
  /-- NODE_BIN_CONFIGURATION: The driver configures a node bin with its context, class, COAL, countdown and group shape (R367) -/
  | nodeBinConfiguration
  /-- STORE_BECOMES_AVAILABLE: A compatibility-mode ordinary store becomes available to every party, in finite time and with no boundary (R320) -/
  | storeBecomesAvailable
  deriving DecidableEq, Repr

end Sys2Proof
end

