-- ==== Sys2Proof/WellFormed.lean ====
section
/-! DEFINITION. Which instructions are well-formed: the field values an opcode accepts (R61 to R64, R72). -/

namespace Sys2Proof

/-- Whether the operand fields hold only values that the opcode accepts. An event of an engine or of the host has no field
to check; the word of the illegal-word step is checked by the decoder. -/
def Instr.wf : Instr → Bool
  | .add _ => true
  | .sub _ => true
  | .mul _ => true
  | .mulhiI _ => true
  | .mulhiN _ => true
  | .mad _ => true
  | .and _ => true
  | .or _ => true
  | .xor _ => true
  | .andn _ => true
  | .shl _ => true
  | .shr _ => true
  | .sar _ => true
  | .rot _ => true
  | .minI _ => true
  | .minN _ => true
  | .maxI _ => true
  | .maxN _ => true
  | .addsatI _ => true
  | .addsatN _ => true
  | .subsatI _ => true
  | .subsatN _ => true
  | .avgI _ => true
  | .avgN _ => true
  | .sadI _ => true
  | .sadN _ => true
  | .dot4I _ => true
  | .dot4N _ => true
  | .cmpI o => decide (o.cc.toNat ≤ 5)
  | .cmpN o => decide (o.cc.toNat ≤ 5)
  | .sel _ => true
  | .movReg _ => true
  | .movUniform _ => true
  | .neg _ => true
  | .abs _ => true
  | .not _ => true
  | .popc _ => true
  | .clz _ => true
  | .ctz _ => true
  | .brev _ => true
  | .bfx _ => true
  | .bfi _ => true
  | .permb _ => true
  | .lea o => decide (2 ≤ o.ty.toNat)
  | .addi _ => true
  | .shli o => decide (o.cnt.toNat < 8 * 2 ^ o.ty.toNat)
  | .shri o => decide (o.cnt.toNat < 8 * 2 ^ o.ty.toNat)
  | .sari o => decide (o.cnt.toNat < 8 * 2 ^ o.ty.toNat)
  | .roti o => decide (o.cnt.toNat < 8 * 2 ^ o.ty.toNat)
  | .movi _ => true
  | .fadd _ => true
  | .fsub _ => true
  | .fmul _ => true
  | .fma _ => true
  | .fms _ => true
  | .fmin _ => true
  | .fmax _ => true
  | .fcmp _ => true
  | .fscale _ => true
  | .fabs _ => true
  | .fneg _ => true
  | .fclass _ => true
  | .frnd _ => true
  | .frndRn _ => true
  | .frndRz _ => true
  | .frndRu _ => true
  | .frndRd _ => true
  | .rcp o => decide (o.ty.toNat ≠ 3)
  | .rsq o => decide (o.ty.toNat ≠ 3)
  | .sqrt o => decide (o.ty.toNat ≠ 3)
  | .ex2 o => decide (o.ty.toNat ≠ 3)
  | .lg2 o => decide (o.ty.toNat ≠ 3)
  | .sinp o => decide (o.ty.toNat ≠ 3)
  | .cosp o => decide (o.ty.toNat ≠ 3)
  | .tanh o => decide (o.ty.toNat ≠ 3)
  | .cvt o => decide (o.td.toNat ≤ 11 ∧ o.ts.toNat ≤ 11)
  | .cvtnb o => decide (o.nf.toNat ≤ 2 ∧ o.hf.toNat ≤ 2 ∧ (o.hf.toNat = 0 ∨ o.hf.toNat = o.bl.toNat + 1))
  | .cvtnbx o => decide (o.nf.toNat ≤ 2 ∧ o.hf.toNat ≤ 2 ∧ (o.hf.toNat = 0 ∨ o.hf.toNat = o.bl.toNat + 1))
  | .had o => decide (o.imm.toNat = 16 ∨ o.imm.toNat = 32)
  | .pack _ => true
  | .unpack _ => true
  | .shflIdx _ => true
  | .shflXor _ => true
  | .shflUp _ => true
  | .shflDn _ => true
  | .bcast _ => true
  | .shflXorConst _ => true
  | .shflUpConst _ => true
  | .shflDnConst _ => true
  | .qxch o => decide (o.imm.toNat ≤ 2)
  | .vote o => decide (o.form.toNat = 3 → 2 ≤ o.ty.toNat)
  | .matchLanes o => decide (2 ≤ o.ty.toNat)
  | .wred o => decide (o.op.toNat ≤ 4 ∨ (8 ≤ o.op.toNat ∧ o.op.toNat ≤ 10))
  | .wscan o => decide (o.op.toNat ≤ 4 ∨ (8 ≤ o.op.toNat ∧ o.op.toNat ≤ 10))
  | .br o => decide (o.cc.toNat ≤ 5)
  | .jmp _ => true
  | .ji _ => true
  | .call _ => true
  | .calli _ => true
  | .ret _ => true
  | .fork o => decide (o.va.toNat + o.cnt.toNat ≤ 63)
  | .rejoin _ => true
  | .loopImm o => decide (o.cnt.toNat ≠ 0 ∧ o.off.toNat ≠ 0)
  | .loopUniform o => decide (o.off.toNat ≠ 0)
  | .nop _ => true
  | .yield _ => true
  | .endFibre _ => true
  | .setperfL _ => true
  | .ldG _ => true
  | .ldS _ => true
  | .ldA _ => true
  | .ldO _ => true
  | .ldW _ => true
  | .stG _ => true
  | .stS _ => true
  | .stA _ => true
  | .stO _ => true
  | .stW _ => true
  | .ldStrong o => decide (o.scope.toNat ≤ 6)
  | .stStrong o => decide (o.scope.toNat ≤ 6)
  | .atomG32 o => decide (o.aop.toNat ≤ 11 ∧ o.scope.toNat ≤ 6)
  | .atomG64 o => decide (o.aop.toNat ≤ 11 ∧ o.scope.toNat ≤ 6 ∧ (o.aop.toNat = 9 → o.vd.toNat ≠ 63))
  | .atomS32 o => decide (o.aop.toNat ≤ 11)
  | .atomS64 o => decide (o.aop.toNat ≤ 11 ∧ (o.aop.toNat = 9 → o.vd.toNat ≠ 63))
  | .atomW32 o => decide (o.aop.toNat ≤ 11 ∧ o.scope.toNat ≤ 6)
  | .atomW64 o => decide (o.aop.toNat ≤ 11 ∧ o.scope.toNat ≤ 6 ∧ (o.aop.toNat = 9 → o.vd.toNat ≠ 63))
  | .fence o => decide (o.ord.toNat ≠ 0 ∧ o.scope.toNat ≤ 6)
  | .phase o => decide (o.ord.toNat ≠ 0 ∧ o.scope.toNat ≤ 6)
  | .pref o => decide (o.lvl.toNat ≤ 1)
  | .kvldRead o => decide (o.vd.toNat ≠ 63)
  | .kvldOpen o => decide (o.vd.toNat ≠ 63)
  | .kvldClose o => decide (o.vd.toNat ≠ 63)
  | .kvappAppend o => decide (o.va.toNat ≠ 63)
  | .kvappUnref o => decide (o.va.toNat ≠ 63)
  | .kvappPagein o => decide (o.va.toNat ≠ 63)
  | .kvappCommit o => decide (o.va.toNat ≠ 63)
  | .kvappRetain o => decide (o.va.toNat ≠ 63)
  | .illegalWord _ => true
  | .kaddImm _ => true
  | .ksubImm _ => true
  | .kmulImm _ => true
  | .kandImm _ => true
  | .korImm _ => true
  | .kxorImm _ => true
  | .kshlImm o => decide (o.imm.toNat % 256 * 16 ^ (o.imm.toNat / 256) < 64)
  | .kshrImm o => decide (o.imm.toNat % 256 * 16 ^ (o.imm.toNat / 256) < 64)
  | .kaddReg _ => true
  | .ksubReg _ => true
  | .kmulReg _ => true
  | .kandReg _ => true
  | .korReg _ => true
  | .kxorReg _ => true
  | .kshlReg _ => true
  | .kshrReg _ => true
  | .kcmp o => decide (o.cc.toNat ≤ 9)
  | .ksel _ => true
  | .kmov _ => true
  | .movkH0 _ => true
  | .movkH1 _ => true
  | .movkH2 _ => true
  | .movkH3 _ => true
  | .kldG _ => true
  | .kldS _ => true
  | .kstG _ => true
  | .kstS _ => true
  | .kbr o => decide (o.cc.toNat ≤ 5)
  | .kjmp _ => true
  | .kcall _ => true
  | .kret _ => true
  | .bar _ => true
  | .tbar _ => true
  | .waitany o => decide (o.ka.toNat + o.n.toNat ≤ 63)
  | .arm _ => true
  | .disarm _ => true
  | .post _ => true
  | .evset _ => true
  | .evclr _ => true
  | .cpyk _ => true
  | .handoff _ => true
  | .qpull _ => true
  | .enq _ => true
  | .kick _ => true
  | .pres _ => true
  | .prel _ => true
  | .pscl _ => true
  | .upret _ => true
  | .upfail _ => true
  | .recur _ => true
  | .rchild _ => true
  | .rbase _ => true
  | .rres _ => true
  | .rarg _ => true
  | .srd o => decide (o.dk.toNat = 1 → o.reg.toNat < 64)
  | .swr o => decide (o.dk.toNat = 1 → o.reg.toNat < 64)
  | .trap _ => true
  | .tret _ => true
  | .tmask _ => true
  | .tunmask _ => true
  | .rgn _ => true
  | .setperf _ => true
  | .bkpt _ => true
  | .halt _ => true
  | .rfetch _ => true
  | .xbfe _ => true
  | .xbfeS _ => true
  | .swait _ => true
  | .disp _ => true
  | .variableLatencyArrival => true
  | .yieldWaitEnd => true
  | .rejoinRelease => true
  | .rejoindl => true
  | .eventDelivery => true
  | .mailboxArrival => true
  | .faultPath => true
  | .pageRequestIssue => true
  | .stage2RequestRecord => true
  | .faultRecord => true
  | .faultRingPoll => true
  | .prgResponseSuccess => true
  | .prgResponseInvalidRequest => true
  | .prgResponseFailure => true
  | .s2replySuccess => true
  | .s2replyInvalidRequest => true
  | .s2replyResponseFailure => true
  | .freplyResume => true
  | .freplyTerminate => true
  | .translationWalk => true
  | .atsInvalidationRequest => true
  | .s2invRange => true
  | .s2invAll => true
  | .invalidationComplete => true
  | .maskBudgetExpiry => true
  | .preemptionRequest => true
  | .groupSave => true
  | .groupRestore => true
  | .partialEviction => true
  | .energyQuotaExhausted => true
  | .energyPeriodStart => true
  | .walkDispatch => true
  | .walkDraw => true
  | .walkStepAdmit => true
  | .upcallDelivery => true
  | .tileProduct => true
  | .walkAbortRemote => true
  | .walkGraceExpiry => true
  | .routineStart => true
  | .copyElement => true
  | .atomicEngineApply => true
  | .gopenWrite => true
  | .gcloseWrite => true
  | .grantLapse => true
  | .streamRelease => true
  | .kickWrite => true
  | .packetFetch => true
  | .fetcherRetry => true
  | .launch => true
  | .walk => true
  | .recurPacket => true
  | .event => true
  | .groupPlacement => true
  | .passedOverTimeout => true
  | .completionWordWrite => true
  | .mappingTick => true
  | .binCountdownExpiry => true
  | .ctxcmdCreate => true
  | .ctxcmdReread => true
  | .ctxcmdDestroy => true
  | .contextDestroyDone => true
  | .s2rootWrite => true
  | .capWrite => true
  | .floorWrite => true
  | .registerWrite => true
  | .powerEvaluation => true
  | .hostWrite => true
  | .peerAccess => true
  | .linkUp => true
  | .linkDown => true
  | .temperatureThreshold => true
  | .uncorrectedError => true
  | .coreSignalWrite => true
  | .swaitWake => true
  | .attest => true
  | .cert => true
  | .bootclr => true
  | .allot => true
  | .levread => true
  | .update => true
  | .stopCmd => true
  | .goCmd => true
  | .rdmem => true
  | .wrmem => true
  | .rdsave => true
  | .breakCmd => true
  | .coldReset => true
  | .warmReset => true
  | .queueReset => true
  | .priReenable => true
  | .nodeBinConfiguration => true
  | .storeBecomesAvailable => true

end Sys2Proof
end

