-- ==== Sys2Proof/Decode.lean ====
section
/-! DEFINITION. Decoding of the 32-bit words (03: R55 to R66, R72), what a refused word reports (R74, R75), and the
encoder. The decoder is total: a word that is no instruction is refused by its REASON and failing field. -/

namespace Sys2Proof

/-- The `n` bits of `w` from bit `lo` up, as a number. -/
def nat (w lo n : Nat) : Nat := w / 2 ^ lo % 2 ^ n

/-- The `n` bits of `w` from bit `lo` up. -/
def fld (w lo n : Nat) : BitVec n := BitVec.ofNat n (w / 2 ^ lo)

/-- Bit `i` of `w`. -/
def bitAt (w i : Nat) : Bool := nat w i 1 == 1

/-- Why a word is refused: REASON, and lowest bit and width of the failing field (R74). -/
structure Reject where
  reason : Nat
  fpos : Nat
  fwid : Nat
  deriving DecidableEq, Repr

/-- The formats, with the codes of ILF0.FMT (R74). -/
inductive Fmt where
  | none | l3 | cm | l2i | li | lv | lq | lm | la | lf | lb | lj | lc | lk | ll | ln
  | g3 | gi | gl | gb | gj | ge | gs
  deriving DecidableEq, Repr

/-- ILF0.FMT (R74). -/
def Fmt.code : Fmt → Nat
  | .none => 0x00 | .l3 => 0x01 | .cm => 0x02 | .l2i => 0x03 | .li => 0x04 | .lv => 0x05 | .lq => 0x06 | .lm => 0x07
  | .la => 0x08 | .lf => 0x09 | .lb => 0x0A | .lj => 0x0B | .lc => 0x0C | .lk => 0x0D | .ll => 0x0E | .ln => 0x0F
  | .g3 => 0x10 | .gi => 0x11 | .gl => 0x12 | .gb => 0x13 | .gj => 0x14 | .ge => 0x15 | .gs => 0x16

/-- One cell of an opcode map. -/
structure OpRow where
  fmt : Fmt
  check : Nat → Option Reject
  build : Nat → Instr

/-- A sub-code field whose value is not listed (R62, R63): REASON 2. -/
def sub (w lo n : Nat) (ok : Nat → Bool) : Option Reject := if ok (nat w lo n) then none else some ⟨2, lo, n⟩

/-- A nonzero reserved field: REASON 3. -/
def zero (w lo n : Nat) : Option Reject := if nat w lo n == 0 then none else some ⟨3, lo, n⟩

/-- A type its opcode does not accept: REASON 4. -/
def typ (w lo : Nat) (ok : Nat → Bool) : Option Reject := if ok (nat w lo 2) then none else some ⟨4, lo, 2⟩

/-- An immediate out of range: REASON 7. -/
def rng (isBad : Bool) (lo n : Nat) : Option Reject := if isBad then some ⟨7, lo, n⟩ else none

/-- IMM10 of the uniform arithmetic (R60): V times 16 to the SH. -/
def immSh (imm : Nat) : Nat := imm % 256 * 16 ^ (imm / 256)
/-- The operands of a word in the layout of `R3Op`. -/
def R3Op.read (w : Nat) : R3Op := ⟨fld w 29 2, fld w 16 6, fld w 10 6, fld w 4 6, fld w 3 1, fld w 1 2, fld w 0 1⟩
/-- The operand bits of `R3Op` in a word. -/
def R3Op.bits (o : R3Op) : Nat := o.stl.toNat * 536870912 + o.vd.toNat * 65536 + o.va.toNat * 1024 + o.vb.toNat * 16 + o.hv.toNat * 8 + o.ty.toNat * 2 + o.kb.toNat * 1

/-- The operands of a word in the layout of `R3wOp`. -/
def R3wOp.read (w : Nat) : R3wOp := ⟨fld w 29 2, fld w 16 6, fld w 10 6, fld w 4 6, fld w 3 1, fld w 0 1⟩
/-- The operand bits of `R3wOp` in a word. -/
def R3wOp.bits (o : R3wOp) : Nat := o.stl.toNat * 536870912 + o.vd.toNat * 65536 + o.va.toNat * 1024 + o.vb.toNat * 16 + o.hv.toNat * 8 + o.kb.toNat * 1

/-- The operands of a word in the layout of `CmpOp`. -/
def CmpOp.read (w : Nat) : CmpOp := ⟨fld w 29 2, fld w 19 3, fld w 16 3, fld w 10 6, fld w 4 6, fld w 3 1, fld w 1 2, fld w 0 1⟩
/-- The operand bits of `CmpOp` in a word. -/
def CmpOp.bits (o : CmpOp) : Nat := o.stl.toNat * 536870912 + o.cc.toNat * 524288 + o.md.toNat * 65536 + o.va.toNat * 1024 + o.vb.toNat * 16 + o.hv.toNat * 8 + o.ty.toNat * 2 + o.kb.toNat * 1

/-- The operands of a word in the layout of `SelOp`. -/
def SelOp.read (w : Nat) : SelOp := ⟨fld w 29 2, fld w 16 6, fld w 10 6, fld w 7 3, fld w 3 1, fld w 1 2⟩
/-- The operand bits of `SelOp` in a word. -/
def SelOp.bits (o : SelOp) : Nat := o.stl.toNat * 536870912 + o.vd.toNat * 65536 + o.va.toNat * 1024 + o.ms.toNat * 128 + o.hv.toNat * 8 + o.ty.toNat * 2

/-- The operands of a word in the layout of `UnOp`. -/
def UnOp.read (w : Nat) : UnOp := ⟨fld w 29 2, fld w 16 6, fld w 10 6, fld w 3 1, fld w 1 2⟩
/-- The operand bits of `UnOp` in a word. -/
def UnOp.bits (o : UnOp) : Nat := o.stl.toNat * 536870912 + o.vd.toNat * 65536 + o.va.toNat * 1024 + o.hv.toNat * 8 + o.ty.toNat * 2

/-- The operands of a word in the layout of `MovUOp`. -/
def MovUOp.read (w : Nat) : MovUOp := ⟨fld w 29 2, fld w 16 6, fld w 4 6, fld w 3 1, fld w 1 2⟩
/-- The operand bits of `MovUOp` in a word. -/
def MovUOp.bits (o : MovUOp) : Nat := o.stl.toNat * 536870912 + o.vd.toNat * 65536 + o.ku.toNat * 16 + o.hv.toNat * 8 + o.ty.toNat * 2

/-- The operands of a word in the layout of `Im8Op`. -/
def Im8Op.read (w : Nat) : Im8Op := ⟨fld w 29 2, fld w 16 6, fld w 10 6, fld w 2 8, fld w 0 2⟩
/-- The operand bits of `Im8Op` in a word. -/
def Im8Op.bits (o : Im8Op) : Nat := o.stl.toNat * 536870912 + o.vd.toNat * 65536 + o.va.toNat * 1024 + o.imm.toNat * 4 + o.ty.toNat * 1

/-- The operands of a word in the layout of `ShIOp`. -/
def ShIOp.read (w : Nat) : ShIOp := ⟨fld w 29 2, fld w 16 6, fld w 10 6, fld w 2 6, fld w 0 2⟩
/-- The operand bits of `ShIOp` in a word. -/
def ShIOp.bits (o : ShIOp) : Nat := o.stl.toNat * 536870912 + o.vd.toNat * 65536 + o.va.toNat * 1024 + o.cnt.toNat * 4 + o.ty.toNat * 1

/-- The operands of a word in the layout of `Im14Op`. -/
def Im14Op.read (w : Nat) : Im14Op := ⟨fld w 29 2, fld w 16 6, fld w 2 14, fld w 0 2⟩
/-- The operand bits of `Im14Op` in a word. -/
def Im14Op.bits (o : Im14Op) : Nat := o.stl.toNat * 536870912 + o.vd.toNat * 65536 + o.imm.toNat * 4 + o.ty.toNat * 1

/-- The operands of a word in the layout of `CvtOp`. -/
def CvtOp.read (w : Nat) : CvtOp := ⟨fld w 29 2, fld w 16 6, fld w 10 6, fld w 6 4, fld w 2 4, fld w 0 2⟩
/-- The operand bits of `CvtOp` in a word. -/
def CvtOp.bits (o : CvtOp) : Nat := o.stl.toNat * 536870912 + o.vd.toNat * 65536 + o.va.toNat * 1024 + o.td.toNat * 64 + o.ts.toNat * 4 + o.rnd.toNat * 1

/-- The operands of a word in the layout of `QuantOp`. -/
def QuantOp.read (w : Nat) : QuantOp := ⟨fld w 29 2, fld w 16 6, fld w 10 6, fld w 7 3, fld w 5 2, fld w 4 1, fld w 2 2⟩
/-- The operand bits of `QuantOp` in a word. -/
def QuantOp.bits (o : QuantOp) : Nat := o.stl.toNat * 536870912 + o.vd.toNat * 65536 + o.va.toNat * 1024 + o.g.toNat * 128 + o.nf.toNat * 32 + o.bl.toNat * 16 + o.hf.toNat * 4

/-- The operands of a word in the layout of `HadOp`. -/
def HadOp.read (w : Nat) : HadOp := ⟨fld w 29 2, fld w 16 6, fld w 10 6, fld w 2 8⟩
/-- The operand bits of `HadOp` in a word. -/
def HadOp.bits (o : HadOp) : Nat := o.stl.toNat * 536870912 + o.vd.toNat * 65536 + o.va.toNat * 1024 + o.imm.toNat * 4

/-- The operands of a word in the layout of `VoteOp`. -/
def VoteOp.read (w : Nat) : VoteOp := ⟨fld w 29 2, fld w 16 6, fld w 10 6, fld w 4 2, fld w 3 1, fld w 1 2⟩
/-- The operand bits of `VoteOp` in a word. -/
def VoteOp.bits (o : VoteOp) : Nat := o.stl.toNat * 536870912 + o.vd.toNat * 65536 + o.va.toNat * 1024 + o.form.toNat * 16 + o.hv.toNat * 8 + o.ty.toNat * 2

/-- The operands of a word in the layout of `RedOp`. -/
def RedOp.read (w : Nat) : RedOp := ⟨fld w 29 2, fld w 16 6, fld w 10 6, fld w 4 6, fld w 3 1, fld w 1 2⟩
/-- The operand bits of `RedOp` in a word. -/
def RedOp.bits (o : RedOp) : Nat := o.stl.toNat * 536870912 + o.vd.toNat * 65536 + o.va.toNat * 1024 + o.op.toNat * 16 + o.hv.toNat * 8 + o.ty.toNat * 2

/-- The operands of a word in the layout of `BrOp`. -/
def BrOp.read (w : Nat) : BrOp := ⟨fld w 29 2, fld w 16 6, fld w 15 1, fld w 12 3, fld w 0 12⟩
/-- The operand bits of `BrOp` in a word. -/
def BrOp.bits (o : BrOp) : Nat := o.stl.toNat * 536870912 + o.va.toNat * 65536 + o.hv.toNat * 32768 + o.cc.toNat * 4096 + o.off.toNat * 1

/-- The operands of a word in the layout of `JmpOp`. -/
def JmpOp.read (w : Nat) : JmpOp := ⟨fld w 29 2, fld w 0 22⟩
/-- The operand bits of `JmpOp` in a word. -/
def JmpOp.bits (o : JmpOp) : Nat := o.stl.toNat * 536870912 + o.off.toNat * 1

/-- The operands of a word in the layout of `IndOp`. -/
def IndOp.read (w : Nat) : IndOp := ⟨fld w 29 2, fld w 10 6, fld w 3 1⟩
/-- The operand bits of `IndOp` in a word. -/
def IndOp.bits (o : IndOp) : Nat := o.stl.toNat * 536870912 + o.va.toNat * 1024 + o.hv.toNat * 8

/-- The operands of a word in the layout of `CallOp`. -/
def CallOp.read (w : Nat) : CallOp := ⟨fld w 29 2, fld w 16 6, fld w 0 16⟩
/-- The operand bits of `CallOp` in a word. -/
def CallOp.bits (o : CallOp) : Nat := o.stl.toNat * 536870912 + o.vd.toNat * 65536 + o.off.toNat * 1

/-- The operands of a word in the layout of `IndLOp`. -/
def IndLOp.read (w : Nat) : IndLOp := ⟨fld w 29 2, fld w 16 6, fld w 10 6, fld w 3 1⟩
/-- The operand bits of `IndLOp` in a word. -/
def IndLOp.bits (o : IndLOp) : Nat := o.stl.toNat * 536870912 + o.vd.toNat * 65536 + o.va.toNat * 1024 + o.hv.toNat * 8

/-- The operands of a word in the layout of `ForkOp`. -/
def ForkOp.read (w : Nat) : ForkOp := ⟨fld w 29 2, fld w 16 6, fld w 12 4, fld w 0 12⟩
/-- The operand bits of `ForkOp` in a word. -/
def ForkOp.bits (o : ForkOp) : Nat := o.stl.toNat * 536870912 + o.va.toNat * 65536 + o.cnt.toNat * 4096 + o.off.toNat * 1

/-- The operands of a word in the layout of `RejOp`. -/
def RejOp.read (w : Nat) : RejOp := ⟨fld w 29 2, fld w 4 6, fld w 3 1, fld w 0 1⟩
/-- The operand bits of `RejOp` in a word. -/
def RejOp.bits (o : RejOp) : Nat := o.stl.toNat * 536870912 + o.vb.toNat * 16 + o.hv.toNat * 8 + o.kb.toNat * 1

/-- The operands of a word in the layout of `LoopIOp`. -/
def LoopIOp.read (w : Nat) : LoopIOp := ⟨fld w 29 2, fld w 12 9, fld w 0 12⟩
/-- The operand bits of `LoopIOp` in a word. -/
def LoopIOp.bits (o : LoopIOp) : Nat := o.stl.toNat * 536870912 + o.cnt.toNat * 4096 + o.off.toNat * 1

/-- The operands of a word in the layout of `LoopUOp`. -/
def LoopUOp.read (w : Nat) : LoopUOp := ⟨fld w 29 2, fld w 12 6, fld w 0 12⟩
/-- The operand bits of `LoopUOp` in a word. -/
def LoopUOp.bits (o : LoopUOp) : Nat := o.stl.toNat * 536870912 + o.kc.toNat * 4096 + o.off.toNat * 1

/-- The operands of a word in the layout of `NulOp`. -/
def NulOp.read (w : Nat) : NulOp := ⟨fld w 29 2⟩
/-- The operand bits of `NulOp` in a word. -/
def NulOp.bits (o : NulOp) : Nat := o.stl.toNat * 536870912

/-- The operands of a word in the layout of `MemOp`. -/
def MemOp.read (w : Nat) : MemOp := ⟨fld w 29 2, fld w 16 6, fld w 10 6, fld w 7 3, fld w 3 4, fld w 1 2, fld w 0 1⟩
/-- The operand bits of `MemOp` in a word. -/
def MemOp.bits (o : MemOp) : Nat := o.stl.toNat * 536870912 + o.vd.toNat * 65536 + o.va.toNat * 1024 + o.msk.toNat * 128 + o.off.toNat * 8 + o.sz.toNat * 2 + o.hv.toNat * 1

/-- The operands of a word in the layout of `StrongOp`. -/
def StrongOp.read (w : Nat) : StrongOp := ⟨fld w 29 2, fld w 16 6, fld w 10 6, fld w 7 3, fld w 4 3, fld w 3 1, fld w 1 2, fld w 0 1⟩
/-- The operand bits of `StrongOp` in a word. -/
def StrongOp.bits (o : StrongOp) : Nat := o.stl.toNat * 536870912 + o.vd.toNat * 65536 + o.va.toNat * 1024 + o.msk.toNat * 128 + o.scope.toNat * 16 + o.sp.toNat * 8 + o.sz.toNat * 2 + o.hv.toNat * 1

/-- The operands of a word in the layout of `AtomOp`. -/
def AtomOp.read (w : Nat) : AtomOp := ⟨fld w 29 2, fld w 16 6, fld w 10 6, fld w 6 4, fld w 4 2, fld w 1 3, fld w 0 1⟩
/-- The operand bits of `AtomOp` in a word. -/
def AtomOp.bits (o : AtomOp) : Nat := o.stl.toNat * 536870912 + o.vd.toNat * 65536 + o.va.toNat * 1024 + o.aop.toNat * 64 + o.ord.toNat * 16 + o.scope.toNat * 2 + o.hv.toNat * 1

/-- The operands of a word in the layout of `AtomSOp`. -/
def AtomSOp.read (w : Nat) : AtomSOp := ⟨fld w 29 2, fld w 16 6, fld w 10 6, fld w 6 4, fld w 4 2, fld w 0 1⟩
/-- The operand bits of `AtomSOp` in a word. -/
def AtomSOp.bits (o : AtomSOp) : Nat := o.stl.toNat * 536870912 + o.vd.toNat * 65536 + o.va.toNat * 1024 + o.aop.toNat * 64 + o.ord.toNat * 16 + o.hv.toNat * 1

/-- The operands of a word in the layout of `FenOp`. -/
def FenOp.read (w : Nat) : FenOp := ⟨fld w 29 2, fld w 6 2, fld w 3 3⟩
/-- The operand bits of `FenOp` in a word. -/
def FenOp.bits (o : FenOp) : Nat := o.stl.toNat * 536870912 + o.ord.toNat * 64 + o.scope.toNat * 8

/-- The operands of a word in the layout of `PreOp`. -/
def PreOp.read (w : Nat) : PreOp := ⟨fld w 29 2, fld w 16 2, fld w 10 6, fld w 7 3, fld w 3 4, fld w 1 2, fld w 0 1⟩
/-- The operand bits of `PreOp` in a word. -/
def PreOp.bits (o : PreOp) : Nat := o.stl.toNat * 536870912 + o.lvl.toNat * 65536 + o.va.toNat * 1024 + o.msk.toNat * 128 + o.off.toNat * 8 + o.sz.toNat * 2 + o.hv.toNat * 1

/-- The operands of a word in the layout of `KImmOp`. -/
def KImmOp.read (w : Nat) : KImmOp := ⟨fld w 29 2, fld w 16 6, fld w 10 6, fld w 0 10⟩
/-- The operand bits of `KImmOp` in a word. -/
def KImmOp.bits (o : KImmOp) : Nat := o.stl.toNat * 536870912 + o.kd.toNat * 65536 + o.ka.toNat * 1024 + o.imm.toNat * 1

/-- The operands of a word in the layout of `K3Op`. -/
def K3Op.read (w : Nat) : K3Op := ⟨fld w 29 2, fld w 16 6, fld w 10 6, fld w 4 6⟩
/-- The operand bits of `K3Op` in a word. -/
def K3Op.bits (o : K3Op) : Nat := o.stl.toNat * 536870912 + o.kd.toNat * 65536 + o.ka.toNat * 1024 + o.kb.toNat * 16

/-- The operands of a word in the layout of `KCcOp`. -/
def KCcOp.read (w : Nat) : KCcOp := ⟨fld w 29 2, fld w 16 6, fld w 10 6, fld w 4 6, fld w 0 4⟩
/-- The operand bits of `KCcOp` in a word. -/
def KCcOp.bits (o : KCcOp) : Nat := o.stl.toNat * 536870912 + o.kd.toNat * 65536 + o.ka.toNat * 1024 + o.kb.toNat * 16 + o.cc.toNat * 1

/-- The operands of a word in the layout of `K2Op`. -/
def K2Op.read (w : Nat) : K2Op := ⟨fld w 29 2, fld w 16 6, fld w 10 6⟩
/-- The operand bits of `K2Op` in a word. -/
def K2Op.bits (o : K2Op) : Nat := o.stl.toNat * 536870912 + o.kd.toNat * 65536 + o.ka.toNat * 1024

/-- The operands of a word in the layout of `KHalfOp`. -/
def KHalfOp.read (w : Nat) : KHalfOp := ⟨fld w 29 2, fld w 16 6, fld w 0 16⟩
/-- The operand bits of `KHalfOp` in a word. -/
def KHalfOp.bits (o : KHalfOp) : Nat := o.stl.toNat * 536870912 + o.kd.toNat * 65536 + o.imm.toNat * 1

/-- The operands of a word in the layout of `KBrOp`. -/
def KBrOp.read (w : Nat) : KBrOp := ⟨fld w 29 2, fld w 16 6, fld w 12 4, fld w 0 12⟩
/-- The operand bits of `KBrOp` in a word. -/
def KBrOp.bits (o : KBrOp) : Nat := o.stl.toNat * 536870912 + o.ka.toNat * 65536 + o.cc.toNat * 4096 + o.off.toNat * 1

/-- The operands of a word in the layout of `K1Op`. -/
def K1Op.read (w : Nat) : K1Op := ⟨fld w 29 2, fld w 10 6⟩
/-- The operand bits of `K1Op` in a word. -/
def K1Op.bits (o : K1Op) : Nat := o.stl.toNat * 536870912 + o.ka.toNat * 1024

/-- The operands of a word in the layout of `KNOp`. -/
def KNOp.read (w : Nat) : KNOp := ⟨fld w 29 2, fld w 7 3⟩
/-- The operand bits of `KNOp` in a word. -/
def KNOp.bits (o : KNOp) : Nat := o.stl.toNat * 536870912 + o.n.toNat * 128

/-- The operands of a word in the layout of `KWaitOp`. -/
def KWaitOp.read (w : Nat) : KWaitOp := ⟨fld w 29 2, fld w 10 6, fld w 7 3⟩
/-- The operand bits of `KWaitOp` in a word. -/
def KWaitOp.bits (o : KWaitOp) : Nat := o.stl.toNat * 536870912 + o.ka.toNat * 1024 + o.n.toNat * 128

/-- The operands of a word in the layout of `SrOp`. -/
def SrOp.read (w : Nat) : SrOp := ⟨fld w 29 2, fld w 21 1, fld w 14 7, fld w 4 10⟩
/-- The operand bits of `SrOp` in a word. -/
def SrOp.bits (o : SrOp) : Nat := o.stl.toNat * 536870912 + o.dk.toNat * 2097152 + o.reg.toNat * 16384 + o.spr.toNat * 16

/-- The operands of a word in the layout of `KTrapOp`. -/
def KTrapOp.read (w : Nat) : KTrapOp := ⟨fld w 29 2, fld w 0 10⟩
/-- The operand bits of `KTrapOp` in a word. -/
def KTrapOp.bits (o : KTrapOp) : Nat := o.stl.toNat * 536870912 + o.imm.toNat * 1

/-- The operands of a word in the layout of `XcOp`. -/
def XcOp.read (w : Nat) : XcOp := ⟨fld w 20 5, fld w 15 5, fld w 7 5⟩
/-- The operand bits of `XcOp` in a word. -/
def XcOp.bits (o : XcOp) : Nat := o.rs2.toNat * 1048576 + o.rs1.toNat * 32768 + o.rd.toNat * 128

/-- The operands of a word in the layout of `XcWOp`. -/
def XcWOp.read (w : Nat) : XcWOp := ⟨fld w 15 5, fld w 7 5⟩
/-- The operand bits of `XcWOp` in a word. -/
def XcWOp.bits (o : XcWOp) : Nat := o.rs1.toNat * 32768 + o.rd.toNat * 128

/-- The opcode map (R61, R65): for SET * 128 + OP, the format, the checks in the order of R72, and the instruction.
Nothing for a reserved opcode. REJOIN with KB = 1 names no lane register, and HV, which R141 lists in its layout, is then
ignored and not checked as res0 (log 29, DEDUCED). -/
def opRow : Nat → Option OpRow
  | 0x00 => some ⟨.l3, fun _ => none, fun w => .add (R3Op.read w)⟩
  | 0x01 => some ⟨.l3, fun _ => none, fun w => .sub (R3Op.read w)⟩
  | 0x02 => some ⟨.l3, fun _ => none, fun w => .mul (R3Op.read w)⟩
  | 0x03 => some ⟨.l3, fun _ => none, fun w => .mulhiI (R3Op.read w)⟩
  | 0x04 => some ⟨.l3, fun _ => none, fun w => .mulhiN (R3Op.read w)⟩
  | 0x05 => some ⟨.l3, fun _ => none, fun w => .mad (R3Op.read w)⟩
  | 0x06 => some ⟨.l3, fun _ => none, fun w => .and (R3Op.read w)⟩
  | 0x07 => some ⟨.l3, fun _ => none, fun w => .or (R3Op.read w)⟩
  | 0x08 => some ⟨.l3, fun _ => none, fun w => .xor (R3Op.read w)⟩
  | 0x09 => some ⟨.l3, fun _ => none, fun w => .andn (R3Op.read w)⟩
  | 0x0A => some ⟨.l3, fun _ => none, fun w => .shl (R3Op.read w)⟩
  | 0x0B => some ⟨.l3, fun _ => none, fun w => .shr (R3Op.read w)⟩
  | 0x0C => some ⟨.l3, fun _ => none, fun w => .sar (R3Op.read w)⟩
  | 0x0D => some ⟨.l3, fun _ => none, fun w => .rot (R3Op.read w)⟩
  | 0x0E => some ⟨.l3, fun _ => none, fun w => .minI (R3Op.read w)⟩
  | 0x0F => some ⟨.l3, fun _ => none, fun w => .minN (R3Op.read w)⟩
  | 0x10 => some ⟨.l3, fun _ => none, fun w => .maxI (R3Op.read w)⟩
  | 0x11 => some ⟨.l3, fun _ => none, fun w => .maxN (R3Op.read w)⟩
  | 0x12 => some ⟨.l3, fun _ => none, fun w => .addsatI (R3Op.read w)⟩
  | 0x13 => some ⟨.l3, fun _ => none, fun w => .addsatN (R3Op.read w)⟩
  | 0x14 => some ⟨.l3, fun _ => none, fun w => .subsatI (R3Op.read w)⟩
  | 0x15 => some ⟨.l3, fun _ => none, fun w => .subsatN (R3Op.read w)⟩
  | 0x16 => some ⟨.l3, fun _ => none, fun w => .avgI (R3Op.read w)⟩
  | 0x17 => some ⟨.l3, fun _ => none, fun w => .avgN (R3Op.read w)⟩
  | 0x18 => some ⟨.l3, fun _ => none, fun w => .sadI (R3Op.read w)⟩
  | 0x19 => some ⟨.l3, fun _ => none, fun w => .sadN (R3Op.read w)⟩
  | 0x1A => some ⟨.l3, fun w => typ w 1 (· == 2), fun w => .dot4I (R3wOp.read w)⟩
  | 0x1B => some ⟨.l3, fun w => typ w 1 (· == 2), fun w => .dot4N (R3wOp.read w)⟩
  | 0x1C => some ⟨.cm, fun w => sub w 19 3 (· ≤ 5), fun w => .cmpI (CmpOp.read w)⟩
  | 0x1D => some ⟨.cm, fun w => sub w 19 3 (· ≤ 5), fun w => .cmpN (CmpOp.read w)⟩
  | 0x1E => some ⟨.l3, fun w => zero w 4 3 <|> zero w 0 1, fun w => .sel (SelOp.read w)⟩
  | 0x1F => some ⟨.l3, fun w => (if bitAt w 0 then zero w 10 6 else zero w 4 6), fun w => if bitAt w 0 then .movUniform (MovUOp.read w) else .movReg (UnOp.read w)⟩
  | 0x20 => some ⟨.l3, fun w => sub w 4 6 (· ≤ 6) <|> zero w 0 1, fun w => match nat w 4 6 with | 0 => .neg (UnOp.read w) | 1 => .abs (UnOp.read w) | 2 => .not (UnOp.read w) | 3 => .popc (UnOp.read w) | 4 => .clz (UnOp.read w) | 5 => .ctz (UnOp.read w) | _ => .brev (UnOp.read w)⟩
  | 0x21 => some ⟨.l3, fun _ => none, fun w => .bfx (R3Op.read w)⟩
  | 0x22 => some ⟨.l3, fun _ => none, fun w => .bfi (R3Op.read w)⟩
  | 0x23 => some ⟨.l3, fun w => typ w 1 (· == 3), fun w => .permb (R3wOp.read w)⟩
  | 0x24 => some ⟨.l3, fun w => typ w 1 (2 ≤ ·), fun w => .lea (R3Op.read w)⟩
  | 0x25 => some ⟨.l2i, fun _ => none, fun w => .addi (Im8Op.read w)⟩
  | 0x26 => some ⟨.l2i, fun w => rng (decide (8 * 2 ^ nat w 0 2 ≤ nat w 2 6)) 2 6, fun w => match nat w 8 2 with | 0 => .shli (ShIOp.read w) | 1 => .shri (ShIOp.read w) | 2 => .sari (ShIOp.read w) | _ => .roti (ShIOp.read w)⟩
  | 0x27 => some ⟨.li, fun _ => none, fun w => .movi (Im14Op.read w)⟩
  | 0x28 => some ⟨.l3, fun _ => none, fun w => .fadd (R3Op.read w)⟩
  | 0x29 => some ⟨.l3, fun _ => none, fun w => .fsub (R3Op.read w)⟩
  | 0x2A => some ⟨.l3, fun _ => none, fun w => .fmul (R3Op.read w)⟩
  | 0x2B => some ⟨.l3, fun _ => none, fun w => .fma (R3Op.read w)⟩
  | 0x2C => some ⟨.l3, fun _ => none, fun w => .fms (R3Op.read w)⟩
  | 0x2D => some ⟨.l3, fun _ => none, fun w => .fmin (R3Op.read w)⟩
  | 0x2E => some ⟨.l3, fun _ => none, fun w => .fmax (R3Op.read w)⟩
  | 0x2F => some ⟨.cm, fun _ => none, fun w => .fcmp (CmpOp.read w)⟩
  | 0x30 => some ⟨.l3, fun _ => none, fun w => .fscale (R3Op.read w)⟩
  | 0x31 => some ⟨.l3, fun w => sub w 4 6 (· ≤ 7) <|> zero w 0 1, fun w => match nat w 4 6 with | 0 => .fabs (UnOp.read w) | 1 => .fneg (UnOp.read w) | 2 => .fclass (UnOp.read w) | 3 => .frnd (UnOp.read w) | 4 => .frndRn (UnOp.read w) | 5 => .frndRz (UnOp.read w) | 6 => .frndRu (UnOp.read w) | _ => .frndRd (UnOp.read w)⟩
  | 0x32 => some ⟨.l3, fun w => sub w 4 6 (· ≤ 7) <|> zero w 0 1 <|> typ w 1 (· ≤ 2), fun w => match nat w 4 6 with | 0 => .rcp (UnOp.read w) | 1 => .rsq (UnOp.read w) | 2 => .sqrt (UnOp.read w) | 3 => .ex2 (UnOp.read w) | 4 => .lg2 (UnOp.read w) | 5 => .sinp (UnOp.read w) | 6 => .cosp (UnOp.read w) | _ => .tanh (UnOp.read w)⟩
  | 0x40 => some ⟨.lv, fun w => sub w 6 4 (· ≤ 11) <|> sub w 2 4 (· ≤ 11), fun w => .cvt (CvtOp.read w)⟩
  | 0x41 => some ⟨.lq, fun w => sub w 5 2 (· ≤ 2) <|> sub w 2 2 (· ≤ 2) <|> zero w 0 2 <|> rng (nat w 2 2 != 0 && nat w 2 2 != nat w 4 1 + 1) 2 2, fun w => .cvtnb (QuantOp.read w)⟩
  | 0x42 => some ⟨.lq, fun w => sub w 5 2 (· ≤ 2) <|> sub w 2 2 (· ≤ 2) <|> zero w 0 2 <|> rng (nat w 2 2 != 0 && nat w 2 2 != nat w 4 1 + 1) 2 2, fun w => .cvtnbx (QuantOp.read w)⟩
  | 0x43 => some ⟨.l2i, fun w => typ w 0 (· == 2) <|> rng (nat w 2 8 != 16 && nat w 2 8 != 32) 2 8, fun w => .had (HadOp.read w)⟩
  | 0x44 => some ⟨.l3, fun _ => none, fun w => .pack (R3Op.read w)⟩
  | 0x45 => some ⟨.l3, fun _ => none, fun w => .unpack (R3Op.read w)⟩
  | 0x48 => some ⟨.l3, fun _ => none, fun w => .shflIdx (R3Op.read w)⟩
  | 0x49 => some ⟨.l3, fun _ => none, fun w => .shflXor (R3Op.read w)⟩
  | 0x4A => some ⟨.l3, fun _ => none, fun w => .shflUp (R3Op.read w)⟩
  | 0x4B => some ⟨.l3, fun _ => none, fun w => .shflDn (R3Op.read w)⟩
  | 0x4C => some ⟨.l2i, fun _ => none, fun w => .bcast (Im8Op.read w)⟩
  | 0x4D => some ⟨.l2i, fun _ => none, fun w => .shflXorConst (Im8Op.read w)⟩
  | 0x4E => some ⟨.l2i, fun _ => none, fun w => .shflUpConst (Im8Op.read w)⟩
  | 0x4F => some ⟨.l2i, fun _ => none, fun w => .shflDnConst (Im8Op.read w)⟩
  | 0x50 => some ⟨.l2i, fun w => sub w 2 8 (· ≤ 2), fun w => .qxch (Im8Op.read w)⟩
  | 0x51 => some ⟨.l3, fun w => sub w 4 6 (· ≤ 4) <|> zero w 0 1 <|> typ w 1 (fun x => decide (nat w 4 6 < 3) || decide (2 ≤ x)), fun w => if nat w 4 6 == 4 then .matchLanes (UnOp.read w) else .vote (VoteOp.read w)⟩
  | 0x52 => some ⟨.l3, fun w => sub w 4 6 (fun x => decide (x ≤ 4) || (decide (8 ≤ x) && decide (x ≤ 10))) <|> zero w 0 1, fun w => .wred (RedOp.read w)⟩
  | 0x53 => some ⟨.l3, fun w => sub w 4 6 (fun x => decide (x ≤ 4) || (decide (8 ≤ x) && decide (x ≤ 10))) <|> zero w 0 1, fun w => .wscan (RedOp.read w)⟩
  | 0x54 => some ⟨.lb, fun w => sub w 12 3 (· ≤ 5), fun w => .br (BrOp.read w)⟩
  | 0x55 => some ⟨.lj, fun _ => none, fun w => .jmp (JmpOp.read w)⟩
  | 0x56 => some ⟨.l3, fun w => zero w 16 6 <|> zero w 4 6 <|> zero w 1 2 <|> zero w 0 1, fun w => .ji (IndOp.read w)⟩
  | 0x57 => some ⟨.lc, fun _ => none, fun w => .call (CallOp.read w)⟩
  | 0x58 => some ⟨.l3, fun w => zero w 4 6 <|> zero w 1 2 <|> zero w 0 1, fun w => .calli (IndLOp.read w)⟩
  | 0x59 => some ⟨.l3, fun w => zero w 16 6 <|> zero w 4 6 <|> zero w 1 2 <|> zero w 0 1, fun w => .ret (IndOp.read w)⟩
  | 0x5A => some ⟨.lk, fun w => rng (decide (63 < nat w 16 6 + nat w 12 4)) 12 4, fun w => .fork (ForkOp.read w)⟩
  | 0x5B => some ⟨.l3, fun w => zero w 16 6 <|> zero w 10 6 <|> zero w 1 2, fun w => .rejoin (RejOp.read w)⟩
  | 0x5C => some ⟨.ll, fun w => (if bitAt w 21 then zero w 18 3 else none) <|> rng (!bitAt w 21 && nat w 12 9 == 0) 12 9 <|> rng (nat w 0 12 == 0) 0 12, fun w => if bitAt w 21 then .loopUniform (LoopUOp.read w) else .loopImm (LoopIOp.read w)⟩
  | 0x5D => some ⟨.ln, fun w => sub w 0 4 (· ≤ 2) <|> zero w 4 18, fun w => match nat w 0 4 with | 0 => .nop (NulOp.read w) | 1 => .yield (NulOp.read w) | _ => .endFibre (NulOp.read w)⟩
  | 0x5E => some ⟨.l3, fun w => zero w 16 6 <|> zero w 4 6 <|> zero w 1 2 <|> zero w 0 1, fun w => .setperfL (IndOp.read w)⟩
  | 0x60 => some ⟨.lm, fun _ => none, fun w => .ldG (MemOp.read w)⟩
  | 0x61 => some ⟨.lm, fun _ => none, fun w => .ldS (MemOp.read w)⟩
  | 0x62 => some ⟨.lm, fun _ => none, fun w => .ldA (MemOp.read w)⟩
  | 0x63 => some ⟨.lm, fun _ => none, fun w => .ldO (MemOp.read w)⟩
  | 0x64 => some ⟨.lm, fun _ => none, fun w => .ldW (MemOp.read w)⟩
  | 0x65 => some ⟨.lm, fun _ => none, fun w => .stG (MemOp.read w)⟩
  | 0x66 => some ⟨.lm, fun _ => none, fun w => .stS (MemOp.read w)⟩
  | 0x67 => some ⟨.lm, fun _ => none, fun w => .stA (MemOp.read w)⟩
  | 0x68 => some ⟨.lm, fun _ => none, fun w => .stO (MemOp.read w)⟩
  | 0x69 => some ⟨.lm, fun _ => none, fun w => .stW (MemOp.read w)⟩
  | 0x6A => some ⟨.lm, fun w => sub w 4 3 (· ≤ 6), fun w => .ldStrong (StrongOp.read w)⟩
  | 0x6B => some ⟨.lm, fun w => sub w 4 3 (· ≤ 6), fun w => .stStrong (StrongOp.read w)⟩
  | 0x6C => some ⟨.la, fun w => sub w 6 4 (· ≤ 11) <|> sub w 1 3 (· ≤ 6), fun w => .atomG32 (AtomOp.read w)⟩
  | 0x6D => some ⟨.la, fun w => sub w 6 4 (· ≤ 11) <|> sub w 1 3 (· ≤ 6) <|> rng (nat w 6 4 == 9 && nat w 16 6 == 63) 16 6, fun w => .atomG64 (AtomOp.read w)⟩
  | 0x6E => some ⟨.la, fun w => sub w 6 4 (· ≤ 11) <|> zero w 1 3, fun w => .atomS32 (AtomSOp.read w)⟩
  | 0x6F => some ⟨.la, fun w => sub w 6 4 (· ≤ 11) <|> zero w 1 3 <|> rng (nat w 6 4 == 9 && nat w 16 6 == 63) 16 6, fun w => .atomS64 (AtomSOp.read w)⟩
  | 0x70 => some ⟨.la, fun w => sub w 6 4 (· ≤ 11) <|> sub w 1 3 (· ≤ 6), fun w => .atomW32 (AtomOp.read w)⟩
  | 0x71 => some ⟨.la, fun w => sub w 6 4 (· ≤ 11) <|> sub w 1 3 (· ≤ 6) <|> rng (nat w 6 4 == 9 && nat w 16 6 == 63) 16 6, fun w => .atomW64 (AtomOp.read w)⟩
  | 0x72 => some ⟨.lf, fun w => sub w 6 2 (· != 0) <|> sub w 3 3 (· ≤ 6) <|> zero w 9 13 <|> zero w 0 3, fun w => if bitAt w 8 then .phase (FenOp.read w) else .fence (FenOp.read w)⟩
  | 0x73 => some ⟨.lm, fun w => sub w 16 2 (· ≤ 1) <|> zero w 18 4, fun w => .pref (PreOp.read w)⟩
  | 0x74 => some ⟨.l3, fun w => rng (nat w 16 6 == 63) 16 6, fun w => .kvldRead (R3Op.read w)⟩
  | 0x75 => some ⟨.l3, fun w => rng (nat w 10 6 == 63) 10 6, fun w => .kvappAppend (R3Op.read w)⟩
  | 0x80 => some ⟨.gi, fun _ => none, fun w => .kaddImm (KImmOp.read w)⟩
  | 0x81 => some ⟨.gi, fun _ => none, fun w => .ksubImm (KImmOp.read w)⟩
  | 0x82 => some ⟨.gi, fun _ => none, fun w => .kmulImm (KImmOp.read w)⟩
  | 0x83 => some ⟨.gi, fun _ => none, fun w => .kandImm (KImmOp.read w)⟩
  | 0x84 => some ⟨.gi, fun _ => none, fun w => .korImm (KImmOp.read w)⟩
  | 0x85 => some ⟨.gi, fun _ => none, fun w => .kxorImm (KImmOp.read w)⟩
  | 0x86 => some ⟨.gi, fun w => rng (decide (64 ≤ immSh (nat w 0 10))) 0 10, fun w => .kshlImm (KImmOp.read w)⟩
  | 0x87 => some ⟨.gi, fun w => rng (decide (64 ≤ immSh (nat w 0 10))) 0 10, fun w => .kshrImm (KImmOp.read w)⟩
  | 0x88 => some ⟨.g3, fun w => sub w 0 4 (· ≤ 7), fun w => match nat w 0 4 with | 0 => .kaddReg (K3Op.read w) | 1 => .ksubReg (K3Op.read w) | 2 => .kmulReg (K3Op.read w) | 3 => .kandReg (K3Op.read w) | 4 => .korReg (K3Op.read w) | 5 => .kxorReg (K3Op.read w) | 6 => .kshlReg (K3Op.read w) | _ => .kshrReg (K3Op.read w)⟩
  | 0x89 => some ⟨.g3, fun w => sub w 0 4 (· ≤ 9), fun w => .kcmp (KCcOp.read w)⟩
  | 0x8A => some ⟨.g3, fun w => zero w 0 4, fun w => .ksel (K3Op.read w)⟩
  | 0x8B => some ⟨.g3, fun w => zero w 4 6 <|> zero w 0 4, fun w => .kmov (K2Op.read w)⟩
  | 0x8C => some ⟨.gl, fun _ => none, fun w => .movkH0 (KHalfOp.read w)⟩
  | 0x8D => some ⟨.gl, fun _ => none, fun w => .movkH1 (KHalfOp.read w)⟩
  | 0x8E => some ⟨.gl, fun _ => none, fun w => .movkH2 (KHalfOp.read w)⟩
  | 0x8F => some ⟨.gl, fun _ => none, fun w => .movkH3 (KHalfOp.read w)⟩
  | 0xA0 => some ⟨.gi, fun _ => none, fun w => .kldG (KImmOp.read w)⟩
  | 0xA1 => some ⟨.gi, fun _ => none, fun w => .kldS (KImmOp.read w)⟩
  | 0xA2 => some ⟨.gi, fun _ => none, fun w => .kstG (KImmOp.read w)⟩
  | 0xA3 => some ⟨.gi, fun _ => none, fun w => .kstS (KImmOp.read w)⟩
  | 0xA4 => some ⟨.gb, fun w => sub w 12 4 (· ≤ 5), fun w => .kbr (KBrOp.read w)⟩
  | 0xA5 => some ⟨.gj, fun _ => none, fun w => .kjmp (JmpOp.read w)⟩
  | 0xA6 => some ⟨.gl, fun _ => none, fun w => .kcall (CallOp.read w)⟩
  | 0xA7 => some ⟨.g3, fun w => zero w 16 6 <|> zero w 4 6 <|> zero w 0 4, fun w => .kret (K1Op.read w)⟩
  | 0xB0 => some ⟨.ge, fun w => zero w 16 6 <|> zero w 10 6 <|> zero w 4 3 <|> zero w 0 4, fun w => .bar (KNOp.read w)⟩
  | 0xB1 => some ⟨.ge, fun w => zero w 16 6 <|> zero w 10 6 <|> zero w 4 3 <|> zero w 0 4, fun w => .tbar (KNOp.read w)⟩
  | 0xB2 => some ⟨.ge, fun w => zero w 16 6 <|> zero w 4 3 <|> zero w 0 4 <|> rng (decide (63 < nat w 10 6 + nat w 7 3)) 10 6, fun w => .waitany (KWaitOp.read w)⟩
  | 0xB3 => some ⟨.ge, fun w => zero w 16 6 <|> zero w 7 3 <|> zero w 4 3 <|> zero w 0 4, fun w => .arm (K1Op.read w)⟩
  | 0xB4 => some ⟨.ge, fun w => zero w 16 6 <|> zero w 7 3 <|> zero w 4 3 <|> zero w 0 4, fun w => .disarm (K1Op.read w)⟩
  | 0xB5 => some ⟨.ge, fun w => zero w 7 3 <|> zero w 4 3 <|> zero w 0 4, fun w => .post (K2Op.read w)⟩
  | 0xB6 => some ⟨.ge, fun w => zero w 16 6 <|> zero w 7 3 <|> zero w 4 3 <|> zero w 0 4, fun w => .evset (K1Op.read w)⟩
  | 0xB7 => some ⟨.ge, fun w => zero w 16 6 <|> zero w 7 3 <|> zero w 4 3 <|> zero w 0 4, fun w => .evclr (K1Op.read w)⟩
  | 0xB8 => some ⟨.ge, fun w => zero w 16 6 <|> zero w 7 3 <|> zero w 4 3 <|> zero w 0 4, fun w => .cpyk (K1Op.read w)⟩
  | 0xB9 => some ⟨.ge, fun w => zero w 7 3 <|> zero w 4 3 <|> zero w 0 4, fun w => .handoff (K2Op.read w)⟩
  | 0xBA => some ⟨.ge, fun w => zero w 7 3 <|> zero w 4 3 <|> zero w 0 4, fun w => .qpull (K2Op.read w)⟩
  | 0xBB => some ⟨.ge, fun w => zero w 7 3 <|> zero w 4 3 <|> zero w 0 4, fun w => .enq (K2Op.read w)⟩
  | 0xBC => some ⟨.ge, fun w => zero w 16 6 <|> zero w 7 3 <|> zero w 4 3 <|> zero w 0 4, fun w => .kick (K1Op.read w)⟩
  | 0xC0 => some ⟨.ge, fun w => zero w 16 6 <|> zero w 7 3 <|> zero w 4 3 <|> zero w 0 4, fun w => .pres (K1Op.read w)⟩
  | 0xC1 => some ⟨.ge, fun w => zero w 16 6 <|> zero w 7 3 <|> zero w 4 3 <|> zero w 0 4, fun w => .prel (K1Op.read w)⟩
  | 0xC2 => some ⟨.ge, fun w => zero w 7 3 <|> zero w 4 3 <|> zero w 0 4, fun w => .pscl (K2Op.read w)⟩
  | 0xC3 => some ⟨.ge, fun w => zero w 16 6 <|> zero w 10 6 <|> zero w 7 3 <|> zero w 4 3 <|> zero w 0 4, fun w => .upret (NulOp.read w)⟩
  | 0xC4 => some ⟨.ge, fun w => zero w 16 6 <|> zero w 7 3 <|> zero w 4 3 <|> zero w 0 4, fun w => .upfail (K1Op.read w)⟩
  | 0xD0 => some ⟨.ge, fun w => zero w 16 6 <|> zero w 7 3 <|> zero w 4 3 <|> zero w 0 4, fun w => .recur (K1Op.read w)⟩
  | 0xD1 => some ⟨.ge, fun w => zero w 16 6 <|> zero w 7 3 <|> zero w 4 3 <|> zero w 0 4, fun w => .rchild (K1Op.read w)⟩
  | 0xD2 => some ⟨.ge, fun w => zero w 16 6 <|> zero w 10 6 <|> zero w 7 3 <|> zero w 4 3 <|> zero w 0 4, fun w => .rbase (NulOp.read w)⟩
  | 0xD3 => some ⟨.ge, fun w => zero w 16 6 <|> zero w 7 3 <|> zero w 4 3 <|> zero w 0 4, fun w => .rres (K1Op.read w)⟩
  | 0xD4 => some ⟨.ge, fun w => zero w 7 3 <|> zero w 4 3 <|> zero w 0 4, fun w => .rarg (K2Op.read w)⟩
  | 0xD8 => some ⟨.gs, fun w => (if bitAt w 21 then zero w 20 1 else none) <|> zero w 0 4, fun w => .srd (SrOp.read w)⟩
  | 0xD9 => some ⟨.gs, fun w => (if bitAt w 21 then zero w 20 1 else none) <|> zero w 0 4, fun w => .swr (SrOp.read w)⟩
  | 0xDA => some ⟨.gi, fun w => zero w 16 6 <|> zero w 10 6, fun w => .trap (KTrapOp.read w)⟩
  | 0xDB => some ⟨.ge, fun w => zero w 16 6 <|> zero w 10 6 <|> zero w 7 3 <|> zero w 4 3 <|> zero w 0 4, fun w => .tret (NulOp.read w)⟩
  | 0xDC => some ⟨.ge, fun w => zero w 16 6 <|> zero w 10 6 <|> zero w 7 3 <|> zero w 4 3 <|> zero w 0 4, fun w => .tmask (NulOp.read w)⟩
  | 0xDD => some ⟨.ge, fun w => zero w 16 6 <|> zero w 10 6 <|> zero w 7 3 <|> zero w 4 3 <|> zero w 0 4, fun w => .tunmask (NulOp.read w)⟩
  | 0xDE => some ⟨.ge, fun w => zero w 16 6 <|> zero w 10 6 <|> zero w 7 3 <|> zero w 4 3 <|> zero w 0 4, fun w => .rgn (NulOp.read w)⟩
  | 0xDF => some ⟨.ge, fun w => zero w 16 6 <|> zero w 7 3 <|> zero w 4 3 <|> zero w 0 4, fun w => .setperf (K1Op.read w)⟩
  | 0xE0 => some ⟨.ge, fun w => zero w 16 6 <|> zero w 10 6 <|> zero w 7 3 <|> zero w 4 3 <|> zero w 0 4, fun w => .bkpt (NulOp.read w)⟩
  | 0xE1 => some ⟨.ge, fun w => zero w 16 6 <|> zero w 10 6 <|> zero w 7 3 <|> zero w 4 3 <|> zero w 0 4, fun w => .halt (NulOp.read w)⟩
  | _ => none

/-- SET and OP of a word as one number. -/
def opKey (w : Nat) : Nat := nat w 22 7 + 128 * nat w 31 1

/-- Decodes a Neroz word, or says why it is no instruction (R72). -/
def decodeNat (w : Nat) : Except Reject Instr :=
  match opRow (opKey w) with
  | none => .error ⟨1, 22, 7⟩
  | some r =>
    match r.check w with
    | some e => .error e
    | none => .ok (r.build w)

/-- Decodes a Neroz word. -/
def decode (w : BitVec 32) : Except Reject Instr := decodeNat w.toNat

/-- The instruction a fetched word stands for: itself, or the illegal-word step (R73). -/
def decodeTotal (w : BitVec 32) : Instr :=
  match decode w with
  | .ok i => i
  | .error _ => .illegalWord w

/-- The four Xcorgon instructions (R391) of a Corgon core's word; nothing for another word. -/
def decodeCorgon (w : BitVec 32) : Option Instr :=
  if nat w.toNat 0 7 != 0x0B then none
  else match nat w.toNat 12 3 with
    | 0 => if nat w.toNat 25 7 == 0 then some (.rfetch (XcOp.read w.toNat)) else none
    | 1 => if nat w.toNat 25 7 == 0 then some (.xbfe (XcOp.read w.toNat))
           else if nat w.toNat 25 7 == 1 then some (.xbfeS (XcOp.read w.toNat)) else none
    | 2 => if nat w.toNat 25 7 == 0 && nat w.toNat 20 5 == 0 then some (.swait (XcWOp.read w.toNat)) else none
    | 3 => if nat w.toNat 25 7 == 0 then some (.disp (XcOp.read w.toNat)) else none
    | _ => none

/-- Whether a word of the opcode table's numbering is to be read as an Xcorgon word: the two machines share the numbers,
and the Xcorgon pattern is tried first (log 13). -/
def decodeTableWord (nbits w : Nat) : Option Instr :=
  if nbits == 32 && decide (w < 2 ^ 32) then
    match decodeCorgon (BitVec.ofNat 32 w) with
    | some i => some i
    | none =>
      match decodeNat w with
      | .ok i => some i
      | .error _ => none
  else none

/-- Sign extension of the low `n` bits of `v` to 60 bits, as ILF values hold it (R75). -/
def sx60 (v n : Nat) : Nat := if v / 2 ^ (n - 1) % 2 == 1 then (v + 2 ^ 60 - 2 ^ n) % 2 ^ 60 else v

/-- An operand descriptor of ILF1 to ILF3 (R75): KIND and VALUE. -/
def ilfWord (kind value : Nat) : W64 := BitVec.ofNat 64 (kind * 2 ^ 60 + value % 2 ^ 60)

/-- The four decoded-field registers ILF0 to ILF3 that a refused word presents (R74, R75). -/
structure Ilf where
  f0 : W64
  f1 : W64
  f2 : W64
  f3 : W64
  deriving DecidableEq, Repr

/-- Lane register number with HV applied (R56). -/
def laneReg (hv field : Nat) : Nat := hv * 64 + field

/-- Whether an L3 opcode carries a sub-code in VB. -/
def isSubOp (op : Nat) : Bool := op == 0x20 || op == 0x31 || op == 0x32 || op == 0x51 || op == 0x52 || op == 0x53

/-- MK, TYC and SUBC of ILF0 (R74): TY, SZ or the CVT types, and the sub-code, condition, AOP, K, N or FN, as encoded. SUBC also holds
NF of an LQ word, SCOPE of a strong LD or ST and the level of PREF, which the rule's list does not name (log 29, DEDUCED). -/
def ilfHead (fmt : Fmt) (op w : Nat) : Nat × Nat × Nat :=
  match fmt with
  | .l3 => (0, nat w 1 2, if isSubOp op then nat w 4 6 else 0)
  | .cm => (0, nat w 1 2, nat w 19 3)
  | .l2i => (0, nat w 0 2, if op == 0x26 then nat w 8 2 else if op == 0x50 then nat w 2 8 else 0)
  | .li => (0, nat w 0 2, 0)
  | .lv => (0, nat w 6 4 * 16 + nat w 2 4, 0)
  | .lq => (0, 0, nat w 5 2)
  | .lm => (nat w 7 3, nat w 1 2, if op == 0x6A || op == 0x6B then nat w 4 3 else if op == 0x73 then nat w 16 2 else 0)
  | .la => (0, 0, nat w 6 4)
  | .lf => (0, 0, nat w 8 1)
  | .lb => (0, 0, nat w 12 3)
  | .ln => (0, 0, nat w 0 4)
  | .g3 => (0, 0, nat w 0 4)
  | .gb => (0, 0, nat w 12 4)
  | .ge => (0, 0, nat w 7 3)
  | _ => (0, 0, 0)

/-- Destination, A operand and B operand or immediate of a word (R75). By log 29 (DEDUCED) the third holds G of an LQ word as
an unsigned immediate, 0 shown as the 3 it stands for; FORK has the first register of its range in the second and its offset
in the third, LOOP its count in the second and its body length in the third. -/
def ilfOperands (fmt : Fmt) (op w : Nat) : W64 × W64 × W64 :=
  let none := ilfWord 0 0
  let lane (hv lo : Nat) := ilfWord 1 (laneReg hv (nat w lo 6))
  let uni (lo : Nat) := ilfWord 2 (nat w lo 6)
  let simm (lo n scale : Nat) := ilfWord 4 (sx60 (nat w lo n) n * scale)
  match fmt with
  | .none => (none, none, none)
  | .l3 =>
    let hv := nat w 3 1
    let vbk := if bitAt w 0 then uni 4 else lane hv 4
    if op == 0x1E then (lane hv 16, lane hv 10, ilfWord 3 (nat w 7 3))
    else if op == 0x1F then
      if bitAt w 0 then (lane hv 16, none, uni 4) else (lane hv 16, lane hv 10, none)
    else if isSubOp op then (lane hv 16, lane hv 10, none)
    else if op == 0x56 || op == 0x59 || op == 0x5E then (none, lane hv 10, none)
    else if op == 0x58 then (lane hv 16, lane hv 10, none)
    else if op == 0x5B then (none, none, vbk)
    else (lane hv 16, lane hv 10, vbk)
  | .cm => (ilfWord 3 (nat w 16 3), lane (nat w 3 1) 10, if bitAt w 0 then uni 4 else lane (nat w 3 1) 4)
  | .l2i => (lane 0 16, lane 0 10,
      if op == 0x25 then simm 2 8 1 else if op == 0x26 then ilfWord 5 (nat w 2 6) else ilfWord 5 (nat w 2 8))
  | .li => (lane 0 16, none, simm 2 14 1)
  | .lv => (lane 0 16, lane 0 10, none)
  | .lq => (lane 0 16, lane 0 10, ilfWord 5 (if nat w 7 3 == 0 then 3 else nat w 7 3))
  | .lm =>
    let hv := nat w 0 1
    let off := if op == 0x6A || op == 0x6B then ilfWord 4 0 else simm 3 4 (2 ^ nat w 1 2)
    (if op == 0x73 then none else lane hv 16, lane hv 10, off)
  | .la => (lane (nat w 0 1) 16, lane (nat w 0 1) 10, none)
  | .lf => (none, none, none)
  | .lb => (none, lane (nat w 15 1) 16, simm 0 12 4)
  | .lj => (none, none, simm 0 22 4)
  | .lc => (lane 0 16, none, simm 0 16 4)
  | .lk => (none, lane 0 16, simm 0 12 4)
  | .ll => (none, if bitAt w 21 then uni 12 else ilfWord 5 (nat w 12 9), ilfWord 5 (nat w 0 12 * 4))
  | .ln => (none, none, none)
  | .g3 =>
    if op == 0x27 then (none, uni 10, none)
    else if op == 0x0B then (uni 16, uni 10, none)
    else (uni 16, uni 10, uni 4)
  | .gi =>
    if op == 0x5A then (none, none, ilfWord 5 (nat w 0 10))
    else if 0x20 ≤ op && op ≤ 0x23 then (uni 16, uni 10, simm 0 10 8)
    else (uni 16, uni 10, ilfWord 5 (immSh (nat w 0 10)))
  | .gl => (uni 16, none, if op == 0x26 then simm 0 16 4 else ilfWord 5 (nat w 0 16))
  | .gb => (none, uni 16, simm 0 12 4)
  | .gj => (none, none, simm 0 22 4)
  | .ge =>
    let kd := if op == 0x35 || op == 0x39 || op == 0x3A || op == 0x3B || op == 0x42 || op == 0x54 then uni 16 else none
    let ka := if op == 0x30 || op == 0x31 || op == 0x43 || op == 0x52 || (0x5B ≤ op && op ≤ 0x5E) || op == 0x60 || op == 0x61
      then none else uni 10
    let n := if op == 0x30 || op == 0x31 then ilfWord 5 (nat w 7 3)
      else if op == 0x32 then ilfWord 5 (nat w 7 3 + 1) else none
    (kd, ka, n)
  | .gs =>
    let reg := if bitAt w 21 then ilfWord 2 (nat w 14 6) else ilfWord 1 (nat w 14 7)
    let spr := ilfWord 6 (nat w 4 10)
    if op == 0x58 then (reg, spr, none) else (spr, reg, none)

/-- ILF0 to ILF3 of a word refused for `r` (R74, R75). A reserved opcode decodes no field. -/
def ilfOf (w : BitVec 32) (r : Reject) : Ilf :=
  let n := w.toNat
  let op := nat n 22 7
  let tail := r.fpos * 2 ^ 24 + r.fwid * 2 ^ 16 + r.reason
  match (opRow (opKey n)), r.reason with
  | some row, reason =>
    if reason == 1 then ⟨BitVec.ofNat 64 tail, 0, 0, 0⟩
    else
      let h := ilfHead row.fmt op n
      let d := ilfOperands row.fmt op n
      ⟨BitVec.ofNat 64 (h.1 * 2 ^ 56 + h.2.1 * 2 ^ 48 + h.2.2 * 2 ^ 40 + tail + row.fmt.code * 2 ^ 8), d.1, d.2.1, d.2.2⟩
  | none, _ => ⟨BitVec.ofNat 64 tail, 0, 0, 0⟩
/-- The word of an instruction (R58, R59); nothing for a row without an encoding. -/
def encodeNat : Instr → Option Nat
  | .add o => some (0x00000000 + o.bits)
  | .sub o => some (0x00400000 + o.bits)
  | .mul o => some (0x00800000 + o.bits)
  | .mulhiI o => some (0x00C00000 + o.bits)
  | .mulhiN o => some (0x01000000 + o.bits)
  | .mad o => some (0x01400000 + o.bits)
  | .and o => some (0x01800000 + o.bits)
  | .or o => some (0x01C00000 + o.bits)
  | .xor o => some (0x02000000 + o.bits)
  | .andn o => some (0x02400000 + o.bits)
  | .shl o => some (0x02800000 + o.bits)
  | .shr o => some (0x02C00000 + o.bits)
  | .sar o => some (0x03000000 + o.bits)
  | .rot o => some (0x03400000 + o.bits)
  | .minI o => some (0x03800000 + o.bits)
  | .minN o => some (0x03C00000 + o.bits)
  | .maxI o => some (0x04000000 + o.bits)
  | .maxN o => some (0x04400000 + o.bits)
  | .addsatI o => some (0x04800000 + o.bits)
  | .addsatN o => some (0x04C00000 + o.bits)
  | .subsatI o => some (0x05000000 + o.bits)
  | .subsatN o => some (0x05400000 + o.bits)
  | .avgI o => some (0x05800000 + o.bits)
  | .avgN o => some (0x05C00000 + o.bits)
  | .sadI o => some (0x06000000 + o.bits)
  | .sadN o => some (0x06400000 + o.bits)
  | .dot4I o => some (0x06800004 + o.bits)
  | .dot4N o => some (0x06C00004 + o.bits)
  | .cmpI o => some (0x07000000 + o.bits)
  | .cmpN o => some (0x07400000 + o.bits)
  | .sel o => some (0x07800000 + o.bits)
  | .movReg o => some (0x07C00000 + o.bits)
  | .movUniform o => some (0x07C00001 + o.bits)
  | .neg o => some (0x08000000 + o.bits)
  | .abs o => some (0x08000010 + o.bits)
  | .not o => some (0x08000020 + o.bits)
  | .popc o => some (0x08000030 + o.bits)
  | .clz o => some (0x08000040 + o.bits)
  | .ctz o => some (0x08000050 + o.bits)
  | .brev o => some (0x08000060 + o.bits)
  | .bfx o => some (0x08400000 + o.bits)
  | .bfi o => some (0x08800000 + o.bits)
  | .permb o => some (0x08C00006 + o.bits)
  | .lea o => some (0x09000000 + o.bits)
  | .addi o => some (0x09400000 + o.bits)
  | .shli o => some (0x09800000 + o.bits)
  | .shri o => some (0x09800100 + o.bits)
  | .sari o => some (0x09800200 + o.bits)
  | .roti o => some (0x09800300 + o.bits)
  | .movi o => some (0x09C00000 + o.bits)
  | .fadd o => some (0x0A000000 + o.bits)
  | .fsub o => some (0x0A400000 + o.bits)
  | .fmul o => some (0x0A800000 + o.bits)
  | .fma o => some (0x0AC00000 + o.bits)
  | .fms o => some (0x0B000000 + o.bits)
  | .fmin o => some (0x0B400000 + o.bits)
  | .fmax o => some (0x0B800000 + o.bits)
  | .fcmp o => some (0x0BC00000 + o.bits)
  | .fscale o => some (0x0C000000 + o.bits)
  | .fabs o => some (0x0C400000 + o.bits)
  | .fneg o => some (0x0C400010 + o.bits)
  | .fclass o => some (0x0C400020 + o.bits)
  | .frnd o => some (0x0C400030 + o.bits)
  | .frndRn o => some (0x0C400040 + o.bits)
  | .frndRz o => some (0x0C400050 + o.bits)
  | .frndRu o => some (0x0C400060 + o.bits)
  | .frndRd o => some (0x0C400070 + o.bits)
  | .rcp o => some (0x0C800000 + o.bits)
  | .rsq o => some (0x0C800010 + o.bits)
  | .sqrt o => some (0x0C800020 + o.bits)
  | .ex2 o => some (0x0C800030 + o.bits)
  | .lg2 o => some (0x0C800040 + o.bits)
  | .sinp o => some (0x0C800050 + o.bits)
  | .cosp o => some (0x0C800060 + o.bits)
  | .tanh o => some (0x0C800070 + o.bits)
  | .cvt o => some (0x10000000 + o.bits)
  | .cvtnb o => some (0x10400000 + o.bits)
  | .cvtnbx o => some (0x10800000 + o.bits)
  | .had o => some (0x10C00002 + o.bits)
  | .pack o => some (0x11000000 + o.bits)
  | .unpack o => some (0x11400000 + o.bits)
  | .shflIdx o => some (0x12000000 + o.bits)
  | .shflXor o => some (0x12400000 + o.bits)
  | .shflUp o => some (0x12800000 + o.bits)
  | .shflDn o => some (0x12C00000 + o.bits)
  | .bcast o => some (0x13000000 + o.bits)
  | .shflXorConst o => some (0x13400000 + o.bits)
  | .shflUpConst o => some (0x13800000 + o.bits)
  | .shflDnConst o => some (0x13C00000 + o.bits)
  | .qxch o => some (0x14000000 + o.bits)
  | .vote o => some (0x14400000 + o.bits)
  | .matchLanes o => some (0x14400040 + o.bits)
  | .wred o => some (0x14800000 + o.bits)
  | .wscan o => some (0x14C00000 + o.bits)
  | .br o => some (0x15000000 + o.bits)
  | .jmp o => some (0x15400000 + o.bits)
  | .ji o => some (0x15800000 + o.bits)
  | .call o => some (0x15C00000 + o.bits)
  | .calli o => some (0x16000000 + o.bits)
  | .ret o => some (0x16400000 + o.bits)
  | .fork o => some (0x16800000 + o.bits)
  | .rejoin o => some (0x16C00000 + o.bits)
  | .loopImm o => some (0x17000000 + o.bits)
  | .loopUniform o => some (0x17200000 + o.bits)
  | .nop o => some (0x17400000 + o.bits)
  | .yield o => some (0x17400001 + o.bits)
  | .endFibre o => some (0x17400002 + o.bits)
  | .setperfL o => some (0x17800000 + o.bits)
  | .ldG o => some (0x18000000 + o.bits)
  | .ldS o => some (0x18400000 + o.bits)
  | .ldA o => some (0x18800000 + o.bits)
  | .ldO o => some (0x18C00000 + o.bits)
  | .ldW o => some (0x19000000 + o.bits)
  | .stG o => some (0x19400000 + o.bits)
  | .stS o => some (0x19800000 + o.bits)
  | .stA o => some (0x19C00000 + o.bits)
  | .stO o => some (0x1A000000 + o.bits)
  | .stW o => some (0x1A400000 + o.bits)
  | .ldStrong o => some (0x1A800000 + o.bits)
  | .stStrong o => some (0x1AC00000 + o.bits)
  | .atomG32 o => some (0x1B000000 + o.bits)
  | .atomG64 o => some (0x1B400000 + o.bits)
  | .atomS32 o => some (0x1B800000 + o.bits)
  | .atomS64 o => some (0x1BC00000 + o.bits)
  | .atomW32 o => some (0x1C000000 + o.bits)
  | .atomW64 o => some (0x1C400000 + o.bits)
  | .fence o => some (0x1C800000 + o.bits)
  | .phase o => some (0x1C800100 + o.bits)
  | .pref o => some (0x1CC00000 + o.bits)
  | .kvldRead o => some (0x1D000000 + o.bits)
  | .kvldOpen o => some (0x1D000000 + o.bits)
  | .kvldClose o => some (0x1D000000 + o.bits)
  | .kvappAppend o => some (0x1D400000 + o.bits)
  | .kvappUnref o => some (0x1D400000 + o.bits)
  | .kvappPagein o => some (0x1D400000 + o.bits)
  | .kvappCommit o => some (0x1D400000 + o.bits)
  | .kvappRetain o => some (0x1D400000 + o.bits)
  | .illegalWord w => some w.toNat
  | .kaddImm o => some (0x80000000 + o.bits)
  | .ksubImm o => some (0x80400000 + o.bits)
  | .kmulImm o => some (0x80800000 + o.bits)
  | .kandImm o => some (0x80C00000 + o.bits)
  | .korImm o => some (0x81000000 + o.bits)
  | .kxorImm o => some (0x81400000 + o.bits)
  | .kshlImm o => some (0x81800000 + o.bits)
  | .kshrImm o => some (0x81C00000 + o.bits)
  | .kaddReg o => some (0x82000000 + o.bits)
  | .ksubReg o => some (0x82000001 + o.bits)
  | .kmulReg o => some (0x82000002 + o.bits)
  | .kandReg o => some (0x82000003 + o.bits)
  | .korReg o => some (0x82000004 + o.bits)
  | .kxorReg o => some (0x82000005 + o.bits)
  | .kshlReg o => some (0x82000006 + o.bits)
  | .kshrReg o => some (0x82000007 + o.bits)
  | .kcmp o => some (0x82400000 + o.bits)
  | .ksel o => some (0x82800000 + o.bits)
  | .kmov o => some (0x82C00000 + o.bits)
  | .movkH0 o => some (0x83000000 + o.bits)
  | .movkH1 o => some (0x83400000 + o.bits)
  | .movkH2 o => some (0x83800000 + o.bits)
  | .movkH3 o => some (0x83C00000 + o.bits)
  | .kldG o => some (0x88000000 + o.bits)
  | .kldS o => some (0x88400000 + o.bits)
  | .kstG o => some (0x88800000 + o.bits)
  | .kstS o => some (0x88C00000 + o.bits)
  | .kbr o => some (0x89000000 + o.bits)
  | .kjmp o => some (0x89400000 + o.bits)
  | .kcall o => some (0x89800000 + o.bits)
  | .kret o => some (0x89C00000 + o.bits)
  | .bar o => some (0x8C000000 + o.bits)
  | .tbar o => some (0x8C400000 + o.bits)
  | .waitany o => some (0x8C800000 + o.bits)
  | .arm o => some (0x8CC00000 + o.bits)
  | .disarm o => some (0x8D000000 + o.bits)
  | .post o => some (0x8D400000 + o.bits)
  | .evset o => some (0x8D800000 + o.bits)
  | .evclr o => some (0x8DC00000 + o.bits)
  | .cpyk o => some (0x8E000000 + o.bits)
  | .handoff o => some (0x8E400000 + o.bits)
  | .qpull o => some (0x8E800000 + o.bits)
  | .enq o => some (0x8EC00000 + o.bits)
  | .kick o => some (0x8F000000 + o.bits)
  | .pres o => some (0x90000000 + o.bits)
  | .prel o => some (0x90400000 + o.bits)
  | .pscl o => some (0x90800000 + o.bits)
  | .upret o => some (0x90C00000 + o.bits)
  | .upfail o => some (0x91000000 + o.bits)
  | .recur o => some (0x94000000 + o.bits)
  | .rchild o => some (0x94400000 + o.bits)
  | .rbase o => some (0x94800000 + o.bits)
  | .rres o => some (0x94C00000 + o.bits)
  | .rarg o => some (0x95000000 + o.bits)
  | .srd o => some (0x96000000 + o.bits)
  | .swr o => some (0x96400000 + o.bits)
  | .trap o => some (0x96800000 + o.bits)
  | .tret o => some (0x96C00000 + o.bits)
  | .tmask o => some (0x97000000 + o.bits)
  | .tunmask o => some (0x97400000 + o.bits)
  | .rgn o => some (0x97800000 + o.bits)
  | .setperf o => some (0x97C00000 + o.bits)
  | .bkpt o => some (0x98000000 + o.bits)
  | .halt o => some (0x98400000 + o.bits)
  | .rfetch o => some (0x0000000B + o.bits)
  | .xbfe o => some (0x0000100B + o.bits)
  | .xbfeS o => some (0x0200100B + o.bits)
  | .swait o => some (0x0000200B + o.bits)
  | .disp o => some (0x0000300B + o.bits)
  | .variableLatencyArrival => none
  | .yieldWaitEnd => none
  | .rejoinRelease => none
  | .rejoindl => none
  | .eventDelivery => none
  | .mailboxArrival => none
  | .faultPath => none
  | .pageRequestIssue => none
  | .stage2RequestRecord => none
  | .faultRecord => none
  | .faultRingPoll => none
  | .prgResponseSuccess => none
  | .prgResponseInvalidRequest => none
  | .prgResponseFailure => none
  | .s2replySuccess => none
  | .s2replyInvalidRequest => none
  | .s2replyResponseFailure => none
  | .freplyResume => none
  | .freplyTerminate => none
  | .translationWalk => none
  | .atsInvalidationRequest => none
  | .s2invRange => none
  | .s2invAll => none
  | .invalidationComplete => none
  | .maskBudgetExpiry => none
  | .preemptionRequest => none
  | .groupSave => none
  | .groupRestore => none
  | .partialEviction => none
  | .energyQuotaExhausted => none
  | .energyPeriodStart => none
  | .walkDispatch => none
  | .walkDraw => none
  | .walkStepAdmit => none
  | .upcallDelivery => none
  | .tileProduct => none
  | .walkAbortRemote => none
  | .walkGraceExpiry => none
  | .routineStart => none
  | .copyElement => none
  | .atomicEngineApply => none
  | .gopenWrite => none
  | .gcloseWrite => none
  | .grantLapse => none
  | .streamRelease => none
  | .kickWrite => none
  | .packetFetch => none
  | .fetcherRetry => none
  | .launch => none
  | .walk => none
  | .recurPacket => none
  | .event => none
  | .groupPlacement => none
  | .passedOverTimeout => none
  | .completionWordWrite => none
  | .mappingTick => none
  | .binCountdownExpiry => none
  | .ctxcmdCreate => none
  | .ctxcmdReread => none
  | .ctxcmdDestroy => none
  | .contextDestroyDone => none
  | .s2rootWrite => none
  | .capWrite => none
  | .floorWrite => none
  | .registerWrite => none
  | .powerEvaluation => none
  | .hostWrite => none
  | .peerAccess => none
  | .linkUp => none
  | .linkDown => none
  | .temperatureThreshold => none
  | .uncorrectedError => none
  | .coreSignalWrite => none
  | .swaitWake => none
  | .attest => none
  | .cert => none
  | .bootclr => none
  | .allot => none
  | .levread => none
  | .update => none
  | .stopCmd => none
  | .goCmd => none
  | .rdmem => none
  | .wrmem => none
  | .rdsave => none
  | .breakCmd => none
  | .coldReset => none
  | .warmReset => none
  | .queueReset => none
  | .priReenable => none
  | .nodeBinConfiguration => none
  | .storeBecomesAvailable => none

/-- `encode`: the instruction's word. -/
def encode (i : Instr) : Option (BitVec 32) := (encodeNat i).map (BitVec.ofNat 32)

end Sys2Proof
end

