-- ==== Sys2Proof/Machine/State.lean ====
section
/-! DEFINITION. The state of the device: everything the spec gives it, as plain data. Lists hold the records that exist;
what is not listed is at its reset value. -/

namespace Sys2Proof.Machine

/-- Faults of the model. -/
inductive Fault where
  /-- Raised by `step` alone: a mandatory boot step failed and the boot has stopped (R397); only a cold reset goes on.
  Safe: the device runs nothing then. -/
  | bootStopped (bootStep : Nat)
  deriving DecidableEq, Repr

/-- Refusals of the model. -/
inductive Refusal where
  /-- An instruction without a meaning yet, by its mnemonic. Safe: it says nothing of the machine. -/
  | notModelled (mnemonic : String)
  deriving DecidableEq, Repr

/-! ## Memory -/

/-- Memory: address and byte pairs, addresses strictly rising, no listed byte 0 (an unlisted byte reads 0, log 3). -/
abbrev Mem := List Host.Cell

/-- The canonical form of a memory. -/
def Mem.wf : Mem → Bool
  | [] => true
  | [c] => c.2 != 0
  | c :: d :: m => c.2 != 0 && decide (c.1 < d.1) && Mem.wf (d :: m)

/-- A published byte not yet available at SYSTEM scope (R306): available to one cluster, or to the device. -/
structure PubByte where
  addr : Nat
  byte : Byte
  /-- The cluster it is available to; nothing: every core of the device. -/
  cluster : Option Nat
  deriving DecidableEq, Repr

/-- A line of a core's snapshot (R307): 64 bytes. -/
structure Line where
  core : Nat
  line : Nat
  bytes : List Byte
  /-- The same, but for the stores that parties of the core's cluster have made available since it was filled: what a strong load of
  CLUSTER scope takes (R312). -/
  near : List Byte
  /-- The same for the parties of the device: what a strong load of DEVICE scope takes. -/
  wide : List Byte
  deriving DecidableEq, Repr

/-- A core's unpublished far bytes (R304). -/
structure OwnView where
  core : Nat
  mem : Mem
  deriving DecidableEq, Repr

/-- A compatibility-mode store not yet available to every party (R320). -/
structure CStore where
  core : Nat
  slot : Nat
  lane : Nat
  addr : Nat
  bytes : List Byte
  /-- Its bytes that an ordinary store of the core has written since. -/
  newer : List Nat
  deriving DecidableEq, Repr

/-- Memory and what the cores see of it (15). -/
structure MemSys where
  /-- Bytes as available at SYSTEM scope. -/
  mem : Mem
  /-- Published below SYSTEM scope, latest in coherence order first. -/
  pub : List PubByte
  own : List OwnView
  snap : List Line
  compat : List CStore
  deriving DecidableEq, Repr

/-! ## Fibres, warps, groups -/

/-- A register named by an instruction. -/
inductive Reg where
  /-- Lane register. -/
  | v (n : Nat)
  /-- Mask register. -/
  | m (n : Nat)
  /-- Uniform register. -/
  | k (n : Nat)
  deriving DecidableEq, Repr

/-- A fixed-latency result in flight (R67): the value before it, and from when it is readable: the issue slot of its fibre, or for a
uniform register the cycle. -/
structure InFlight where
  reg : Reg
  old : W64
  ready : Nat
  deriving DecidableEq, Repr

/-- A variable-latency result outstanding (R68): the bits it will write. For a uniform register of a warp, its slot. -/
structure Outst where
  reg : Reg
  slot : Nat
  value : W64
  bits : W64
  deriving DecidableEq, Repr

/-- What a fibre waits for (R267's wait state, and the waits inside an instruction). -/
inductive Wait where
  | none
  /-- In WAITANY, its warp parked (R169). -/
  | parked
  | bar (n : Nat)
  | tbar (n : Nat)
  | rejoin (mask : LaneMap)
  | recur
  /-- In FORK, until a position and a window are free (R138). -/
  | fork
  /-- In YIELD, up to the cycle named (R140). -/
  | yielding (upto : Nat)
  /-- An instruction that could not proceed yet; it is tried again in the next cycle. -/
  | held
  /-- An atomic is at its engine. -/
  | atomic
  deriving DecidableEq, Repr

/-- One hardware loop level (R31). -/
structure LoopLevel where
  count : BitVec 32 := 0
  start : Addr48 := 0
  last : Addr48 := 0
  deriving DecidableEq, Repr

/-- A unit of a page request that a fault names (R329, R332). -/
structure FaultUnit where
  /-- 1 or 2; 0: no request can resolve the fault (Malformed or Range). -/
  stage : Nat
  /-- Stage 1: the 4 KiB virtual page; stage 2: the 64 KiB IPA range. -/
  page : Nat
  /-- The lowest faulting virtual address. -/
  va : Nat
  /-- [0] read, [1] write, [2] execute. -/
  acc : Nat
  /-- 0 invalid, 1 permission. -/
  kind : Nat
  level : Nat
  deriving DecidableEq, Repr

/-- A trap about to be delivered in a fibre (R246): cause code, further bits of TRAPCAUSE, TRAPADDR, and for PAGEFAULT the
units and the slots performed. -/
structure Trap where
  cause : Nat
  code : Nat := 0
  acc : Nat := 0
  addr : W64 := 0
  impr : Bool := false
  units : List FaultUnit := []
  /-- Slots performed by a memory instruction that completed in part (R152). -/
  done : Option Byte := none
  /-- The word that is no instruction, and its fields (R73). -/
  ill : Option (W64 × Ilf) := none
  deriving DecidableEq, Repr

/-- How the issues of a fibre are counted (R22, R67, R71). -/
structure Pace where
  /-- The issue slot of its latest instruction, counted over the fibre's own. -/
  slot : Nat := 0
  /-- The cycle of that issue. -/
  at_ : Nat := 0
  /-- The slot before which its next instruction does not issue. -/
  due : Nat := 0
  /-- That wait counts slots of the lane pipe; else cycles of the uniform pipe. -/
  lane : Bool := false
  /-- Issue opportunities in a row of slot `anchor` that have passed over the batch it is in. -/
  anchor : Nat := 0
  passed : Nat := 0
  deriving DecidableEq, Repr

/-- A fibre (R9, R12 to R15, R29 to R36). -/
structure Fibre where
  core : Nat
  slot : Nat
  lane : Nat
  warpid : Nat
  helper : Bool
  pc : Addr48
  winbase : Nat
  /-- v0 onward; its length is WINSIZE. -/
  win : List W64
  /-- m1 to m7 in bits [63:8]; m0 reads 0xFF whatever bits [7:0] hold (R29). -/
  pred : W64
  lp0 : LoopLevel
  lp1 : LoopLevel
  lp2 : LoopLevel
  fpctl : W64
  trapcause : W64
  trappc : W64
  trapaddr : W64
  ilenc : W64
  ilf0 : W64
  ilf1 : W64
  ilf2 : W64
  ilf3 : W64
  rec_ : W64
  repc : W64
  mdone : W64
  wait : Wait
  /-- The cycle in which it reached its PC (R21). -/
  age : Nat
  /-- The earliest cycle of its next issue (R67). -/
  ready : Nat
  infl : List InFlight
  outst : List Outst
  /-- A page fault of an idempotent region not yet known (R244), with the PC of its instruction. -/
  late : Option (Addr48 × Trap)
  /-- It took a trap that reached the fault path (R249). -/
  trapped : Bool
  /-- Units of its faulting instruction (R332). -/
  units : List FaultUnit
  cohort : Nat
  pace : Pace := {}
  deriving DecidableEq, Repr

/-- An armed pending slot (R167). -/
structure PSlot where
  token : W32
  latched : Option W64
  /-- Scope at which the delivery of what is latched acquires (R310). -/
  scope : Nat
  deriving DecidableEq, Repr

/-- A warp (R9). -/
structure Warp where
  core : Nat
  slot : Nat
  gid : Nat
  warpid : Nat
  /-- k55 to k63. -/
  kd : List W64
  /-- The 16 pending slots. -/
  pend : List (Option PSlot)
  evmask : BitVec 16
  /-- The sequence number of the upcall it serves (R204). -/
  occ : Option Nat
  masked : Bool
  budget : Nat
  /-- The bindings of the WAITANY it is parked in. -/
  park : Option (List W64)
  /-- A stop is removing it from its core (R263, R265); masked, or occupied in a walk's grace, it still issues (R264, R272). -/
  stopping : Bool
  /-- The launch that this stop makes room for (R365); 0 none. -/
  for_ : Nat := 0
  /-- It has bound the debug token in its latest WAITANY: it is the monitor (R404). -/
  mon : Bool := false
  deriving DecidableEq, Repr

/-- A register grant (R283). -/
structure RegGrant where
  lmask : LaneMap
  nreg : Nat
  base : Nat
  /-- A closure or a replacement waits for copies (R284). -/
  closing : Bool
  next : Option W64
  deriving DecidableEq, Repr

/-- A run of scratchpad units held by a group (R38). -/
structure Extent where
  first : Nat
  len : Nat
  deriving DecidableEq, Repr

/-- A stream hold of a group on a page (R375): the entry's address, the ring and the page needed to release it. -/
structure Hold where
  entry : Nat
  desc : Nat
  page : Nat
  count : Nat
  deriving DecidableEq, Repr

/-- The window of a fibre that retired while copies with a destination in a grant over it were live (R284). -/
structure HeldWin where
  core : Nat
  lane : Nat
  base : Nat
  len : Nat
  /-- Acceptance numbers of those copies. -/
  copies : List Nat
  deriving DecidableEq, Repr

/-- A grant of a group that has ended, whose lapse waits for copies (R284). -/
structure HeldGrant where
  ctx : Nat
  core : Nat
  grant : RegGrant
  deriving DecidableEq, Repr

/-- How a group stands (R249, R263). -/
inductive GStat where
  | running
  /-- A trap has reached the fault path; the group stops at its boundaries. -/
  | faulting
  /-- Descheduled as replayable, waiting for replies. -/
  | descheduled
  deriving DecidableEq, Repr

/-- What a group is for. -/
inductive Role where
  | plain | producer | consumer
  deriving DecidableEq, Repr

/-- A group (R9). -/
structure Group where
  gid : Nat
  ctx : Nat
  core : Nat
  cls : Nat
  /-- The launch it belongs to. -/
  lid : Nat
  launchid : BitVec 32
  teamid : Nat
  groupid : Nat
  entry : Addr48
  role : Role
  slots : List Nat
  /-- k0 to k54. -/
  ks : List W64
  gctl : W64
  uhv : W64
  /-- Arrival bitmaps of barriers 0 to 7, by WARPID (R173). -/
  bars : List (BitVec 32)
  /-- Its own arrivals at team barriers 0 to 7 (R174). -/
  tbars : List (BitVec 32)
  gwx : Bool
  spad : List Extent
  aslots : List Nat
  /-- Scratchpad units and accumulator slots it has handed off and not been handed back (R178). -/
  gaveUnits : List Extent
  gaveSlots : List Nat
  grants : List (Option RegGrant)
  holds : List Hold
  stat : GStat
  /-- The cycle of its release (R265). -/
  born : Nat
  infl : List InFlight
  outst : List Outst
  deriving DecidableEq, Repr

/-! ## Engines of a core -/

/-- A shutter table entry (R293 to R297). -/
structure Shut where
  /-- Slot offsets, or for a stream the page and the page after it. -/
  first : Nat
  last : Nat
  ctx : Nat
  orig : Nat
  chan : Nat
  /-- 1 copy source, 2 copy destination, 3 attention stream. -/
  kind : Nat
  /-- The request it belongs to, by acceptance number; for a stream, its group. -/
  owner : Nat
  /-- For a stream, the address of its map entry (R375). -/
  entry : Nat := 0
  deriving DecidableEq, Repr

/-- An accepted copy request (R176, R287). -/
structure Copy where
  /-- Device-wide order of acceptance (R296). -/
  order : Nat
  gid : Nat
  slot : Nat
  ssp : Nat
  dsp : Nat
  /-- Local and window addresses are physical; a `.g` address is virtual. -/
  src : Nat
  dst : Nat
  scat : Bool
  /-- log2 of the element bytes. -/
  esz : Nat
  counts : List Nat
  strides : List Int
  bobj : Option Nat
  /-- Elements performed. -/
  done : Nat
  deriving DecidableEq, Repr

/-- A copy channel of a context (R287, R288). -/
structure Chan where
  ctx : Nat
  chan : Nat
  wp : W64
  qp : W64
  reqs : List Copy
  /-- Waiting for page requests (R292). -/
  stalled : Bool
  deriving DecidableEq, Repr

/-- The fields of a problem record (R189). -/
structure WalkRec where
  absmax : Bool
  acol : Bool
  bcol : Bool
  serp : Bool
  cinit : Bool
  epi : Nat
  topk : Nat
  fmta : Nat
  fmtb : Nat
  kext : Nat
  had : Nat
  look : Nat
  m : Nat
  n : Nat
  k : Nat
  srows : Nat
  scols : Nat
  cmin : Nat
  cmax : Nat
  wctr : Nat
  amax : Nat
  ptok : W32
  ctok : W32
  ntok : W32
  user : W64
  deriving DecidableEq, Repr

/-- Pane states (R197). -/
inductive PaneSt where
  | free | reserved | filled | inUse
  deriving DecidableEq, Repr

/-- A pane and its record (R196, R197), with what it holds. -/
structure Pane where
  base : Nat
  ngr : Nat
  cols : Nat
  rows : Nat
  scoff : Nat
  hadf : Nat
  orient : Bool
  /-- Block length 32. -/
  blk : Bool
  fmt : Nat
  st : PaneSt
  /-- Operand B. -/
  isB : Bool
  /-- The sweep and k-step it belongs to, and its tile row or column. -/
  sweep : Nat
  kstep : Nat
  index : Nat
  /-- The NORM upcall for it has returned (R212). -/
  normed : Bool
  /-- The array has checked it against its operand (R199). -/
  checked : Bool
  deriving DecidableEq, Repr

/-- Where an upcall stands. -/
inductive UpSt where
  | queued
  /-- Delivered to the warp in the slot named. -/
  | delivered (slot : Nat)
  | withdrawn
  deriving DecidableEq, Repr

/-- A live upcall (R201 to R203): its sequence number, whether the consumer group takes it, and k56 to k63. -/
structure Upcall where
  seq : Nat
  /-- Index of the sweep it is raised for. -/
  sweep : Nat
  kind : Nat
  cons : Bool
  /-- The NTOK token names it: either group may take it. -/
  token : W32
  args : List W64
  st : UpSt
  deriving DecidableEq, Repr

/-- How a tile of a sweep stands. -/
inductive TileSt where
  /-- Waiting for its PC upcall (R195). -/
  | init
  /-- Accumulating; the k-steps done. -/
  | acc (ksteps : Nat)
  /-- Every product done; its drain has not begun. -/
  | complete
  /-- Its DRAIN upcall is live. -/
  | draining
  | done
  deriving DecidableEq, Repr

/-- A tile of a sweep in the window. -/
structure Tile where
  row : Nat
  col : Nat
  slot : Nat
  st : TileSt
  deriving DecidableEq, Repr

/-- A sweep in the window (R193). -/
structure Sweep where
  /-- Its index s (R191). -/
  index : Nat
  unit : Nat
  tiles : List Tile
  /-- k-steps admitted to the window. -/
  admitted : Nat
  deriving DecidableEq, Repr

/-- What the walk engine does. -/
inductive WalkSt where
  | running
  /-- Pre-empted: finishing its step (R221, step 2). -/
  | stopping
  /-- Pre-empted: the grace (R221, step 3). -/
  | grace
  | finished
  deriving DecidableEq, Repr

/-- A walk on one core (08). -/
structure WalkEng where
  /-- The launch of its packet. -/
  lid : Nat
  ctx : Nat
  recA : Nat
  rcd : WalkRec
  /-- Participating cores. -/
  cores : List Nat
  prod : Nat
  cons : Nat
  st : WalkSt
  /-- R192. -/
  first : Bool
  oldPrev : Nat
  chunkPrev : Nat
  noMore : Bool
  /-- A draw is due. -/
  drawDue : Bool
  /-- Units drawn and not yet begun. -/
  units : List Nat
  /-- Sweeps of the current unit not yet admitted. -/
  todo : List Nat
  window : List Sweep
  /-- Under top-k, tile rows of the current unit and their state slots (R214). -/
  tops : List (Nat × Nat)
  /-- The cycle of the last delivery of each role: producer, consumer, norm (R203). -/
  offered : List (Option Nat)
  panes : List Pane
  /-- Accumulator slots allotted. -/
  slots : List Nat
  ups : List Upcall
  nseq : Nat
  /-- Upcalls that could not be raised yet, in order (R203). -/
  raise : List Upcall
  /-- Cycle in which the product under way ends (R195). -/
  busy : Option Nat
  /-- The step a pre-emption finishes: its sweep and k-step (R221, step 2). -/
  stopAt : Nat × Nat
  /-- Cycle in which the grace of a pre-emption ends (R221). -/
  grace : Nat
  stall : W64
  started : Bool
  /-- The cycle after the one in which a drain last began (R271). -/
  drained : Nat := 0
  deriving DecidableEq, Repr

/-- Which routine a lane runs (R232). -/
inductive Routine where
  | divide | base | combine
  deriving DecidableEq, Repr

/-- A lane of a recursion (R233): its routine and frame, and the work left to it. -/
structure RecLane where
  run : Option Routine
  frame : Nat
  /-- Routine starts waiting for the lane, in order: in the depth phase, what is left of its visits (R230). -/
  next : List (Routine × Nat)
  top : Nat
  /-- Frames it has pushed (R227). -/
  pushed : Nat
  deriving DecidableEq, Repr

/-- A live recursion (09). -/
structure RecEng where
  gid : Nat
  slot : Nat
  obj : Nat
  div : Addr48
  bas : Addr48
  comb : Addr48
  abase : Nat
  asize : Nat
  fsize : Nat
  cmax : Nat
  dmax : Nat
  lanes : Nat
  recurPc : Addr48
  /-- 1 breadth, 2 depth, 3 combine. -/
  stage : Nat
  level : Nat
  swlvl : Nat
  nbr : Nat
  btop : Nat
  stk : Nat
  swfirst : Nat
  swn : Nat
  /-- First frame number and count of each level of the breadth region. -/
  levels : List (Nat × Nat)
  /-- Children staged at this level (R237). -/
  staged : Nat
  /-- Frames of the level whose divide or combine has not ended. -/
  openN : Nat
  /-- Stopped with its group (R241). -/
  saved : Bool
  /-- Home lanes of fibres that waited for the engine at a stop, and join again by reissuing RECUR (R241). -/
  away : List Nat := []
  ls : List RecLane
  deriving DecidableEq, Repr

/-- A core and its engines. -/
structure Core where
  no : Nat
  shut : List Shut
  /-- Its channels, the one served or given a request last first: they are served in turn (R287). -/
  chans : List Chan
  walk : Option WalkEng
  /-- WSTAT (R219) and WSTALL (R205) as they stand when no walk is live. -/
  wstat : W64
  wstall : W64
  rec_ : Option RecEng
  deriving DecidableEq, Repr

/-- A request at an atomic engine (R159, R298, R299). -/
structure AtomReq where
  core : Nat
  slot : Nat
  lane : Nat
  vd : Nat
  addr : Nat
  /-- 64-bit. -/
  wide : Bool
  aop : Nat
  x : W64
  y : W64
  /-- An acquire at this scope follows. -/
  acq : Option Nat
  /-- The cycle in which it reached the engine (R299). -/
  at_ : Nat
  /-- What its fibre goes back to where the access faults on the way (R390): the instruction, its address operand, REC, REPC, loop
  levels. -/
  pc : Addr48
  va : W64
  rec_ : W64
  repc : W64
  lps : LoopLevel × LoopLevel × LoopLevel
  deriving DecidableEq, Repr

/-- A record in a node bin (R180, R368): its 64 bytes and the LAUNCHID of the ENQ's launch. -/
structure BinRec where
  bytes : List Byte
  launchid : BitVec 32
  deriving DecidableEq, Repr

/-- A node bin (R367). -/
structure Bin where
  no : Nat
  ctx : Nat
  cls : Nat
  coal : Nat
  cd : Nat
  entry : Addr48
  warps : Nat
  nfib : Nat
  win : Nat
  spad : Nat
  recs : List BinRec
  /-- The cycle in which the countdown expires; nothing: it does not run. -/
  expires : Option Nat
  deriving DecidableEq, Repr

/-- A cached translation (R330). -/
structure Tlb where
  /-- The core that holds it, or for a cluster entry 512 + the cluster. -/
  place : Nat
  ctx : Nat
  vf : Nat
  /-- The first virtual address; for a table, the first IPA. -/
  va : Nat
  size : Nat
  pa : Nat
  w : Bool
  x : Bool
  /-- First virtual address and bytes of the stage-1 entry it was built from (R331). -/
  from_ : Nat
  span : Nat
  /-- A stage-2 translation of a page of stage-1 tables, which only walks use. -/
  table : Bool
  deriving DecidableEq, Repr

/-- A cluster. -/
structure Cluster where
  no : Nat
  queue : List AtomReq
  bins : List Bin
  pass : Nat
  /-- The pass count the power controller wants: PASS takes it at a boundary where no fixed-latency result is in flight (R71). -/
  want : Nat
  grant : Nat
  deriving DecidableEq, Repr

/-! ## Events in flight -/

/-- An event of an all-listener kind or a post that has arrived at a core (R166). -/
structure Arrival where
  ctx : Nat
  core : Nat
  token : W32
  payload : W64
  /-- KIND 7 fires for one group. -/
  gid : Option Nat
  /-- Scope at which its delivery acquires (R310). -/
  scope : Nat
  deriving DecidableEq, Repr

/-- A post on its way (R171). -/
structure Post where
  ctx : Nat
  src : Nat
  arr : Arrival
  deriving DecidableEq, Repr

/-- A handoff held until its token is delivered (R178). -/
structure Handoff where
  ctx : Nat
  core : Nat
  name : Nat
  handle : W64
  deriving DecidableEq, Repr

/-! ## Hub -/

/-- A context (R340, R353). -/
structure Ctx where
  no : Nat
  desc : Nat
  vf : Nat
  s1root : Nat
  pasid : Nat
  classmin : Nat
  tmb : Nat
  eper : Nat
  eq : Nat
  fring : Nat
  frsz : Nat
  frwr : BitVec 32
  wqt : Nat
  savep : Nat
  savesz : Nat
  events : EvVec
  errors : EvVec
  nextLaunch : BitVec 32
  perfReq : Nat
  energy : Nat
  quotaOut : Bool
  /-- The cycle of its creation, and the one in which its next energy period starts (R366). -/
  born : Nat
  period : Nat
  /-- Group that wrote each fault record, by record index. -/
  frecs : List (BitVec 32 × Nat)
  /-- Save pool areas in use: first page, pages, group or walk. -/
  areas : List (Nat × Nat × Nat)
  /-- The monitor's group while a STOP of the monitor holds every other one (R404). -/
  stopBy : Option Nat
  /-- A destroy is under way (R386). -/
  dying : Bool
  deriving DecidableEq, Repr

/-- An outstanding page request (R333). -/
structure PageReq where
  id : Nat
  slot : Nat
  gen : Nat
  stage : Nat
  ctx : Nat
  page : Nat
  acc : Nat
  deriving DecidableEq, Repr

/-- Who waits for page requests. -/
inductive Waiter where
  /-- A group on the fault path. -/
  | group (gid : Nat)
  /-- A copy channel: core, context, channel. -/
  | chan (core ctx chan : Nat)
  /-- A completion word of a launch. -/
  | compl (lid : Nat)
  /-- A queue item source: core and context, work queue. -/
  | wqueue (ctx q : Nat)
  /-- A stream release, by its place in the list of releases. -/
  | stream (id : Nat)
  /-- A problem record read of a launch. -/
  | walkRec (lid : Nat)
  /-- An access to WCTR or AMAX by the walk of a launch on a core. -/
  | walkEng (core lid : Nat)
  /-- A fault ring or save pool access of a context. -/
  | ring (ctx : Nat)
  deriving DecidableEq, Repr

/-- A set of requests raised together (R332, R336): the units still unanswered, and whether one failed. -/
structure Case where
  who : Waiter
  vf : Nat
  ctx : Nat
  /-- The numbers of its requests that have not replied. -/
  waiting : List Nat
  failed : Bool
  /-- The faults, and the stage and page of each request that has failed. -/
  units : List FaultUnit
  lost : List (Nat × Nat)
  /-- Faulting address for a record; for a group, the warp. -/
  addr : Nat
  deriving DecidableEq, Repr

/-- A page request not yet issued (R333). -/
structure Raised where
  /-- Its number, in order of raising. -/
  id : Nat
  ctx : Nat
  u : FaultUnit
  deriving DecidableEq, Repr

/-- A stage-2 request record not yet written (R334). -/
structure S2Rec where
  vf : Nat
  ctx : Nat
  u : FaultUnit
  tag : Nat
  deriving DecidableEq, Repr

/-- A PRI Page Request message sent (R334). -/
structure PriMsg where
  vf : Nat
  pasid : Nat
  page : Nat
  acc : Nat
  tag : Nat
  /-- The Last Request in PRG flag: every request is a group of its own. -/
  last : Bool
  deriving DecidableEq, Repr

/-- A function and its register page (R386). -/
structure Fn where
  no : Nat
  s2root : Nat
  ctxst : W64
  /-- Contexts allotted. -/
  allot : W64
  reqs : List PageReq
  /-- Uses of each of the 32 slots (R338). -/
  gens : List Nat
  raised : List Raised
  priOff : Bool
  /-- Its debug mailbox is answering a command (R403). -/
  dbgBusy : Bool
  deriving DecidableEq, Repr

/-- A pending invalidation (R331). -/
structure Inval where
  vf : Nat
  /-- Stage 1 of a PASID; nothing: stage 2. -/
  pasid : Option Nat
  /-- First byte and size; nothing: the whole. -/
  range : Option (Nat × Nat)
  deriving DecidableEq, Repr

/-- A fault record to write (R249). -/
structure FRec where
  ctx : Nat
  cause : W64
  tpc : W64
  tadr : W64
  rec_ : W64
  repc : W64
  mdone : W64
  launchid : BitVec 32
  fibreid : Nat
  core : Nat
  lanes : LaneMap
  groupid : Nat
  fail : Nat
  /-- The group that waits for the reply; nothing: a reply is ignored. -/
  gid : Option Nat
  /-- It found no room, and waits for the next look at FRRD (R341). -/
  waiting : Bool := false
  deriving DecidableEq, Repr

/-- A fetched packet: its index, the order of the KICK write that covered it (R357), and its 128 bytes. -/
structure Pend where
  index : BitVec 32
  order : Nat
  bytes : List Byte
  deriving DecidableEq, Repr

/-- A user queue (R342 to R346, R359). -/
structure Queue where
  qid : Nat
  desc : Nat
  ctx : Nat
  cls : Nat
  ring : Nat
  size : Nat
  ridx : Nat
  h : BitVec 32
  f : BitVec 32
  /-- Hardware slot. -/
  hw : Option Nat
  /-- Ticks since it was mapped. -/
  ticks : Nat
  /-- Waiting time in hub cycles (R3, R359). -/
  wait : Nat
  /-- The driver has made it known, and its descriptor has not been read yet (R342). -/
  fresh : Bool
  /-- Its descriptor was refused (R342). -/
  refused : Bool
  stopped : Bool
  /-- Paused on a mark mismatch (R346). -/
  paused : Bool
  /-- KICK writes taken that still cover packets to be fetched: their order and the index they held. -/
  kicks : List (Nat × BitVec 32)
  /-- Half 1 of the packet being fetched, once read (R346). -/
  half : List Byte
  /-- Fetched packets. -/
  pend : List Pend
  /-- Launches of it not yet complete. -/
  live : List Nat
  deriving DecidableEq, Repr

/-- What a launch places. -/
inductive LKind where
  | launch | walk | recur | bin
  /-- A group that Corgon places itself (R393). -/
  | disp
  deriving DecidableEq, Repr

/-- A launch (R355 to R358). -/
structure Launch where
  lid : Nat
  kind : LKind
  ctx : Nat
  qid : Nat
  cls : Nat
  launchid : BitVec 32
  set : EvVec
  compl : Nat
  fixed : Bool
  core0 : Nat
  ncore : Nat
  entry : Addr48
  warps : Nat
  nfib : Nat
  win : Nat
  gpt : Nat
  teams : Nat
  spad : Nat
  aslots : Nat
  kargs : List W64
  largs : List W64
  /-- WALK: problem record and the consumer shape. -/
  recA : Nat
  centry : Addr48
  cwarps : Nat
  cwin : Nat
  /-- RECUR and bin launches: bytes copied into the extent. -/
  image : List Byte
  /-- Teams placed. -/
  placed : List Nat
  /-- Groups released and not complete. -/
  livegroups : Nat
  status : Nat
  fail : Nat
  /-- The cycle in which its packet was taken, or its bin triggered; what is not placed then is passed over from then on (R357). -/
  since : Nat
  /-- Passed over for 100 microseconds: it blocks (R357). -/
  blocking : Bool
  /-- Order of the KICK write that covered it. -/
  kickOrder : Nat
  /-- Its completion word is still to be written (R358). -/
  wordDue : Bool
  finished : Bool
  deriving DecidableEq, Repr

/-- A stream hold to release after its group (R375). -/
structure Release where
  id : Nat
  ctx : Nat
  hold : Hold
  deriving DecidableEq, Repr

/-- An entry of the last-events record (R405). -/
structure LastEv where
  hubt : Nat
  code : Nat
  src : Nat
  ctx : Nat
  detail : W64
  deriving DecidableEq, Repr

/-- Bytes of hub SRAM that a Corgon core has reserved for a store-conditional (R391). -/
structure SramResv where
  core : Nat
  addr : Nat
  size : Nat
  deriving DecidableEq, Repr

/-- The hub (19, 17, 22). -/
structure Hub where
  ctxs : List Ctx
  fns : List Fn
  queues : List Queue
  launches : List Launch
  nextLid : Nat
  nextGid : Nat
  nextKick : Nat
  cases : List Case
  s2recs : List S2Rec
  s2ring : Nat
  s2size : Nat
  s2rd : BitVec 24
  s2wr : BitVec 24
  pri : List PriMsg
  invals : List Inval
  frecs : List FRec
  releases : List Release
  nextRel : Nat
  /-- Number of the next page request. -/
  nextReq : Nat
  /-- Corgon's configuration: BASE and CEIL of each class, RSV0, RW, RB, RS (R361, R363). -/
  base : List Nat
  ceil : List Nat
  rsv0 : Nat
  rw_ : Nat
  rb : Nat
  rs : Nat
  /-- The management mailbox: command and reply (R403). -/
  cmdmb : List Byte
  cmdBusy : Bool
  /-- The form of the part (R1): G5120-X; and its installed tier-2 bytes divided by 256 (R402). -/
  isX : Bool
  tier2 : Nat
  links : BitVec 12
  /-- Cores that boot has not fenced (R397, R402). -/
  present : BitVec 512
  /-- Pending signal lines (R392). -/
  signals : BitVec 64
  sram : Mem
  resv : List SramResv
  lastev : List LastEv
  frozen : Bool
  /-- LEVREAD has returned the frozen record (R405). -/
  levread : Bool
  /-- Hub cycles since reset. -/
  hubt : Nat
  /-- Mapping ticks since reset (R360). -/
  mapTicks : Nat
  deriving DecidableEq, Repr

/-- What happens to a saved group while it is saved: it changes the save area (R170, R251, R269, R404). -/
inductive SavedOp where
  /-- An arrival latches in the slots, armed and unlatched, that hold its token: in a warp, by WARPID, or in every one. -/
  | latch (warpid : Option Nat) (token : W32) (payload : W64) (scope : Nat)
  /-- A barrier, or a team barrier, has completed: cycle and cohort number. -/
  | pass (team : Bool) (n now free : Nat)
  /-- The group has resumed from the fault path: the cycle. -/
  | resume (now : Nat)
  /-- STOP or GO of the monitor. -/
  | halt (on : Bool)
  deriving DecidableEq, Repr

/-- A saved group (R267) or the evicted warps of one (R265), with the address of its save area. -/
structure Saved where
  group : Group
  warps : List Warp
  fibres : List Fibre
  area : Nat
  partial_ : Bool
  /-- FLAGS.REPLAY and whether page requests are still out (R273). -/
  replay : Bool
  /-- FLAGS.HALTED: saved by the monitor's STOP (R404). -/
  halted : Bool
  walkArea : Nat
  recLive : Bool
  /-- The launch that its eviction makes room for, until that is placed (R365); 0 none. -/
  for_ : Nat := 0
  /-- What has happened to it that could not be written to its area. -/
  due : List SavedOp := []
  deriving DecidableEq, Repr

/-- A saved walk (R222): the core it ran on, its save area, and the code of an abort that has reached it. -/
structure SavedWalk where
  core : Nat
  area : Nat
  eng : WalkEng
  abrt : Option Nat
  deriving DecidableEq, Repr

/-- The batch being issued (R16). -/
structure Batch where
  core : Nat
  gid : Nat
  pc : Addr48
  word : W32
  /-- Warp slot and home lane of each member, in increasing home lane. -/
  members : List (Nat × Nat)
  anchor : Nat
  /-- Members of the ready batches of the anchor slot that it passes over (R22). -/
  rivals : List (Nat × Nat) := []
  deriving DecidableEq, Repr

/-- Everything but power and firmware: what instructions and engines act on. -/
structure Dev where
  cur : Batch
  arg : EvArg
  /-- Ordering and placement choices still to be made, oldest first; 0 when none is listed (log 1). -/
  oracle : List Nat
  /-- Counter of free values (log 4). -/
  free : Nat
  /-- Core cycles since reset. -/
  cycle : Nat
  /-- Next lane pipe to be served in this cycle, as core * 4 + pipe. -/
  pipe : Nat
  fibres : List Fibre
  warps : List Warp
  groups : List Group
  cores : List Core
  clusters : List Cluster
  tlbs : List Tlb
  ms : MemSys
  arrivals : List Arrival
  posts : List Post
  handoffs : List Handoff
  /-- Windows and grants kept until copies into them are complete (R284). -/
  heldWins : List HeldWin
  heldGrants : List HeldGrant
  saved : List Saved
  walks : List SavedWalk
  /-- Atomics under way to the peers (R389, R390). -/
  fabric : List AtomReq
  /-- Order of the next copy acceptance (R296). -/
  nextCopy : Nat
  hub : Hub
  deriving DecidableEq, Repr

/-- Power (R398, R399). -/
structure Power where
  cap : Nat
  code : Nat
  floors : List Nat
  plceil : List Nat
  idlefl : Nat
  /-- Power evaluations since reset (R399). -/
  evals : Nat
  deriving DecidableEq, Repr

/-- An entry of the boot record (R396). -/
structure BootEnt where
  bootno : Nat
  step : Nat
  result : Nat
  detail : BitVec 16
  hubt : Nat
  deriving DecidableEq, Repr

/-- A Corgon core (R391); the RISC-V registers are PRESUMED (log 11). -/
structure Corgon where
  no : Nat
  /-- x1 to x31. -/
  x : List W64
  pc : W64
  mepc : W64
  mcause : W64
  mtval : W64
  mtvec : W64
  mstatus : W64
  mscratch : W64
  mie : W64
  /-- What mcycle reads beyond the hub's clock. -/
  mcycle : W64
  minstret : W64
  /-- The mask and destination of an SWAIT in progress. -/
  waiting : Option (W64 × Nat)
  deriving DecidableEq, Repr

/-- Firmware: boot, Corgon, images, capabilities (22). -/
structure Fw where
  bootno : Nat
  bootrec : List BootEnt
  bootFail : Option Nat
  corgons : List Corgon
  /-- Links up when the capability list was built (R402). -/
  capLinks : BitVec 12
  /-- Image written to the alternate bank. -/
  altImage : List Byte
  /-- The identity key pair's private part (R394). -/
  idKey : BitVec 256
  /-- The eight digests of the latest measurement (R395, R396). -/
  digests : List Byte
  /-- Step 21 started in its degraded form; steps 11 and 20 were skipped when they last ran (R397). -/
  degraded : Bool
  nobias : Bool
  capFixed : Bool
  /-- The Corgon core whose word is being run. -/
  curCorgon : Nat
  deriving DecidableEq, Repr

/-- An input or a choice still to come (log 1). -/
inductive Todo where
  /-- An event row of the opcode table with its operands. -/
  | event (i : Instr) (a : EvArg)
  /-- The next batch of a lane pipe issues. -/
  | issue (core pipe : Nat)
  /-- A late page fault becomes known (R244). -/
  | late (core slot lane : Nat)
  /-- A core clock cycle passes. -/
  | tick
  /-- A Corgon core runs a word. -/
  | corgon (n : Nat)
  deriving DecidableEq, Repr

/-- The device. -/
structure State where
  agenda : List Todo
  dev : Dev
  pwr : Power
  fw : Fw
  deriving DecidableEq, Repr

/-! ## The state after reset -/

/-- No batch has issued. -/
def Batch.empty : Batch := { core := 0, gid := 0, pc := 0, word := 0, members := [], anchor := 0 }

/-- Memory with nothing listed. -/
def MemSys.empty : MemSys := { mem := [], pub := [], own := [], snap := [], compat := [] }

/-- The hub after reset: no context, no queue, no launch (R340, R342); Corgon's defaults (R361). -/
def Hub.reset : Hub :=
  { ctxs := [], fns := [], queues := [], launches := [], nextLid := 1, nextGid := 1, nextKick := 0, cases := [],
    s2recs := [], s2ring := 0, s2size := 0, s2rd := 0, s2wr := 0, pri := [], invals := [], frecs := [],
    releases := [], nextRel := 0, nextReq := 1, base := [15, 8, 4, 0], ceil := [15, 14, 11, 7], rsv0 := 0, rw_ := 0, rb := 0, rs := 0,
    cmdmb := List.replicate 128 0, cmdBusy := false, isX := false, tier2 := 0, links := 0, present := BitVec.allOnes 512, signals := 0, sram := [], resv := [],
    lastev := [], frozen := false, levread := false, hubt := 0, mapTicks := 0 }

/-- The device after reset: no fibre exists, memory is empty, PASS reads 1 where no cluster is listed (R32). -/
def Dev.reset : Dev :=
  { cur := .empty, arg := {}, oracle := [], free := 0, cycle := 0, pipe := 0, fibres := [], warps := [], groups := [],
    cores := [], clusters := [], tlbs := [], ms := .empty, arrivals := [], posts := [], handoffs := [], heldWins := [], heldGrants := [], saved := [], walks := [],
    fabric := [], nextCopy := 0, hub := .reset }

/-- Power after reset (R398, R386): the cap is 2,200 W, every PLCEIL is 7. -/
def Power.reset : Power :=
  { cap := 2200, code := 0, floors := List.replicate 64 0, plceil := List.replicate 64 7, idlefl := Config.idleFloor 1, evals := 0 }

/-- A Corgon core after reset (log 11). -/
def Corgon.reset (n : Nat) : Corgon :=
  { no := n, x := List.replicate 31 0, pc := 0, mepc := 0, mcause := 0, mtval := 0, mtvec := 0, mstatus := 0, mscratch := 0, mie := 0,
    mcycle := 0, minstret := 0, waiting := none }

/-- Firmware after a first cold reset in which every step succeeded (R396, log 17). -/
def Fw.reset : Fw :=
  { bootno := 1, bootrec := (List.range 24).map fun i => { bootno := 1, step := i + 1, result := 0, detail := 0, hubt := 0 },
    bootFail := none, corgons := (List.range 8).map Corgon.reset, capLinks := 0,
    altImage := Config.corgonImage, idKey := Config.idKey, digests := (List.range 256).map Config.firstDigest, degraded := false, nobias := false,
    capFixed := false, curCorgon := 0 }

/-- The machine right after reset. Values the spec does not give are in log 2. -/
def State.reset : State := { agenda := [], dev := .reset, pwr := .reset, fw := .reset }

end Sys2Proof.Machine
end

