-- ==== Sys2Proof/Machine/Lists.lean ====
section
/-! DEFINITION. The list operations the machine is written with: records found, replaced and kept in order of a number,
and little-endian bytes (R5). -/

namespace Sys2Proof.Machine

/-- The first record with the number asked for. -/
def getBy (key : α → Nat) (k : Nat) : List α → Option α
  | [] => none
  | x :: l => if key x == k then some x else getBy key k l

/-- Puts a record in order of its number, replacing the one that has it. -/
def putBy (key : α → Nat) (y : α) : List α → List α
  | [] => [y]
  | x :: l =>
    if key y < key x then y :: x :: l
    else if key x == key y then y :: l
    else x :: putBy key y l

/-- Takes out the records with a number. -/
def dropBy (key : α → Nat) (k : Nat) (l : List α) : List α := l.filter fun x => key x != k

/-- Changes the records that satisfy `p`. -/
def updWhere (p : α → Bool) (f : α → α) (l : List α) : List α := l.map fun x => if p x then f x else x

/-- Element `i`, or `d` when there is none. -/
def nth (l : List α) (i : Nat) (d : α) : α := l.getD i d

/-- Inserts by a key, rising; equal keys keep their order. -/
def insBy (key : α → Nat) (y : α) : List α → List α
  | [] => [y]
  | x :: l => if key y < key x then y :: x :: l else x :: insBy key y l

/-- Sorts by a key, rising; equal keys keep their order. -/
def sortBy (key : α → Nat) (l : List α) : List α := l.foldl (fun acc x => insBy key x acc) []

/-- The distinct members, first occurrences kept. -/
def dedup [BEq α] : List α → List α
  | [] => []
  | x :: l => x :: (dedup l).filter fun y => !(y == x)

/-- The least value of a key. -/
def minBy (key : α → Nat) : List α → Option α
  | [] => none
  | x :: l =>
    match minBy key l with
    | none => some x
    | some y => if key y < key x then some y else some x

/-- `n` little-endian bytes of `v` (R5). -/
def leBytes : Nat → Nat → List Byte
  | 0, _ => []
  | n + 1, v => BitVec.ofNat 8 v :: leBytes n (v / 256)

/-- The value of little-endian bytes (R5). -/
def leVal : List Byte → Nat
  | [] => 0
  | b :: l => b.toNat + 256 * leVal l

/-- Bytes `off` to `off + n - 1` of a record, as a value. -/
def fieldOf (l : List Byte) (off n : Nat) : Nat := leVal ((l.drop off).take n)

/-- Bits `lo` to `lo + n - 1` of a number. -/
def bitsOf (v lo n : Nat) : Nat := v / 2 ^ lo % 2 ^ n

/-- Replaces bytes of a record from an offset on. -/
def patch (l : List Byte) (off : Nat) (b : List Byte) : List Byte :=
  l.take off ++ b ++ l.drop (off + b.length)

/-- Whether a 64-bit virtual address is canonical: bits [63:48] copy bit 47 (R150). -/
def canonical (a : W64) : Bool := (a.setWidth 48).signExtend 64 == a

/-- A canonical 64-bit address of a 48-bit one. -/
def sext48 (a : Addr48) : W64 := a.signExtend 64

/-- A virtual address of 48 bits as the 64-bit number it stands for. -/
def vaOf (a : Nat) : Nat := (sext48 (BitVec.ofNat 48 a)).toNat

/-- Ceiling division. -/
def ceilDiv (a b : Nat) : Nat := (a + b - 1) / b

/-- Whether the ranges [a, a+n) and [b, b+m) share a byte. -/
def overlaps (a n b m : Nat) : Bool := decide (a < b + m) && decide (b < a + n)

end Sys2Proof.Machine
end

