-- ==== Sys2Proof/Machine/Memory.lean ====
section
/-! DEFINITION. Memory (R277, R278, R384) and what the cores see of it (15: R303 to R322). Addresses are device physical
addresses. The model keeps the bytes available at SYSTEM scope, the bytes published below it in coherence order, and for
each core its unpublished far bytes and its snapshot (log 8). -/

namespace Sys2Proof.Machine

/-- Whether numbers rise strictly. -/
def rising : List Nat → Bool
  | [] => true
  | [_] => true
  | a :: b :: l => decide (a < b) && rising (b :: l)

/-- The canonical form of memory and of the cores' unpublished bytes: equal contents are equal data. -/
def MemSys.wf (ms : MemSys) : Bool :=
  ms.mem.wf && rising (ms.own.map OwnView.core) && ms.own.all fun v => !v.mem.isEmpty && rising (v.mem.map Prod.fst)

/-- The byte at an address; an unlisted byte reads 0 (log 3). -/
def Mem.get : Mem → Nat → Byte
  | [], _ => 0
  | c :: m, a => if c.1 == a then c.2 else Mem.get m a

/-- Writes a byte, keeping the canonical form. -/
def Mem.set : Mem → Nat → Byte → Mem
  | [], a, b => if b == 0 then [] else [(a, b)]
  | c :: m, a, b =>
    if a < c.1 then (if b == 0 then c :: m else (a, b) :: c :: m)
    else if c.1 == a then (if b == 0 then m else (a, b) :: m)
    else c :: Mem.set m a b

/-- Reads `n` bytes from an address. -/
def Mem.read (m : Mem) (a n : Nat) : List Byte := (List.range n).map fun i => m.get (a + i)

/-- Writes bytes from an address on. -/
def Mem.write : Mem → Nat → List Byte → Mem
  | m, _, [] => m
  | m, a, b :: l => Mem.write (m.set a b) (a + 1) l

/-- A byte of a core's unpublished bytes, which may be 0. -/
def ovGet : List Host.Cell → Nat → Option Byte
  | [], _ => none
  | c :: m, a => if c.1 == a then some c.2 else ovGet m a

/-- Puts a byte among a core's unpublished bytes. -/
def ovSet (m : List Host.Cell) (a : Nat) (b : Byte) : List Host.Cell := putBy Prod.fst (a, b) m

/-! ## The physical map -/

/-- First byte of core slot 0 (R277). -/
def slotsBase : Nat := 0xFE0000000000

/-- First byte of a core's slot (R278). -/
def slotBase (core : Nat) : Nat := slotsBase + core * 0x800000

/-- The core whose slot holds an on-chip address (R278). -/
def onchipCore (a : Nat) : Option Nat :=
  if slotsBase ≤ a ∧ a < slotsBase + 0x100000000 then some ((a - slotsBase) / 0x800000) else none

/-- The cluster of a core. -/
def clusterOf (core : Nat) : Nat := core / 16

/-- Whether host or peer memory holds an address (R384). -/
def isHostOrPeer (a : Nat) : Bool :=
  (decide (0x400000000000 ≤ a) && decide (a < 0x800000000000)) || (decide (0x800000000000 ≤ a) && decide (a < slotsBase) &&
    decide (a < 0x800000000000 + 12 * 0x040000000000))

/-! ## Scopes -/

/-- Scope codes (R62). -/
abbrev Scope := Nat
/-- CORE scope. -/
def Scope.core : Scope := 3
/-- CLUSTER scope. -/
def Scope.cluster : Scope := 4
/-- DEVICE scope. -/
def Scope.device : Scope := 5
/-- SYSTEM scope. -/
def Scope.system : Scope := 6

/-- Who stores, as R303 tells the parties apart: one of a core, one of the device outside the cores, or the host or a peer. -/
inductive Party where
  | core (n : Nat)
  | hub
  | outside
  deriving DecidableEq, Repr

namespace MemSys

/-- Whether a published byte is available to a core (R306). -/
def seenBy (core : Nat) (p : PubByte) : Bool :=
  match p.cluster with
  | none => true
  | some k => k == clusterOf core

/-- The latest published byte of an address that is available to a core and not yet at SYSTEM scope. -/
def pubFor (ms : MemSys) (core a : Nat) : Option PubByte := ms.pub.find? fun p => p.addr == a && seenBy core p

/-- The co-latest byte available to a core, its own unpublished bytes aside (R307). -/
def avail (ms : MemSys) (core a : Nat) : Byte :=
  match ms.pubFor core a with
  | some p => p.byte
  | none => ms.mem.get a

/-- The co-latest byte available at DEVICE scope (R328, R346). -/
def availDevice (ms : MemSys) (a : Nat) : Byte :=
  match ms.pub.find? (fun p => p.addr == a && p.cluster.isNone) with
  | some p => p.byte
  | none => ms.mem.get a

/-- The co-latest byte published at any scope (R315). -/
def latest (ms : MemSys) (a : Nat) : Byte :=
  match ms.pub.find? (fun p => p.addr == a) with
  | some p => p.byte
  | none => ms.mem.get a

/-- A core's unpublished bytes. -/
def ownMem (ms : MemSys) (core : Nat) : List Host.Cell :=
  match getBy OwnView.core core ms.own with
  | some o => o.mem
  | none => []

/-- Replaces a core's unpublished bytes; an empty view is not listed. -/
def setOwn (ms : MemSys) (core : Nat) (m : List Host.Cell) : MemSys :=
  { ms with own := if m.isEmpty then dropBy OwnView.core core ms.own else putBy OwnView.core ⟨core, m⟩ ms.own }

/-- The unpublished byte of a core at an address. -/
def ownGet (ms : MemSys) (core a : Nat) : Option Byte := ovGet (ms.ownMem core) a

/-- Takes a byte out of a core's unpublished ones. -/
def dropOwn (ms : MemSys) (core a : Nat) : MemSys := ms.setOwn core ((ms.ownMem core).filter fun c => c.1 != a)

/-! ## Snapshots (R307, R309, R312) -/

/-- The snapshot line of a core that holds an address. -/
def snapLine (ms : MemSys) (core a : Nat) : Option Line :=
  ms.snap.find? fun l => l.core == core && l.line == a / 64

/-- Changes the snapshot lines that hold an address. -/
def updLines (ms : MemSys) (a : Nat) (f : Line → Line) : MemSys :=
  { ms with snap := ms.snap.map fun l => if l.line == a / 64 then f l else l }

/-- A byte the core itself has learnt replaces the snapshot's, so that its view never goes back (R309). -/
def patchSnap (ms : MemSys) (core a : Nat) (b : Byte) : MemSys :=
  ms.updLines a fun l =>
    if l.core == core then { l with bytes := l.bytes.set (a % 64) b, near := l.near.set (a % 64) b, wide := l.wide.set (a % 64) b }
    else l

/-- A store has become available to the cores that `sees` names: what strong loads of CLUSTER and DEVICE scope may take for it
(R312). -/
def noteStore (ms : MemSys) (who : Party) (sees : Nat → Bool) (a : Nat) (b : Byte) : MemSys :=
  ms.updLines a fun l =>
    if !sees l.core then l
    else match who with
      | .core c =>
        { l with near := if clusterOf c == clusterOf l.core then l.near.set (a % 64) b else l.near
                 wide := l.wide.set (a % 64) b }
      | .hub => { l with wide := l.wide.set (a % 64) b }
      | .outside => l

/-! ## Publication (R306, R309) -/

/-- A party's byte becomes available to everybody (SYSTEM scope). -/
def setAll (ms : MemSys) (who : Party) (a : Nat) (b : Byte) : MemSys :=
  ({ ms with mem := ms.mem.set a b, pub := ms.pub.filter fun p => p.addr != a } : MemSys).noteStore who (fun _ => true) a b

/-- Whether a publication of a core at a scope reaches everybody who can reach the byte: SYSTEM scope, and for on-chip bytes a scope
that includes the core that owns them (R306). -/
def toAll (core a : Nat) (sc : Scope) : Bool :=
  decide (Scope.system ≤ sc) ||
  match onchipCore a with
  | none => false
  | some o => decide (Scope.device ≤ sc) || clusterOf o == clusterOf core

/-- Publishes one byte of a core at CLUSTER scope or wider (R306, R309): the audience sees it from now on. -/
def publish (ms : MemSys) (core a : Nat) (b : Byte) (sc : Scope) : MemSys :=
  let ms := ms.patchSnap core a b
  if toAll core a sc then ms.setAll (.core core) a b
  else if Scope.device ≤ sc then
    ({ ms with pub := ⟨a, b, none⟩ :: ms.pub.filter fun p => p.addr != a } : MemSys).noteStore (.core core) (fun _ => true) a b
  else
    let k := clusterOf core
    ({ ms with pub := ⟨a, b, some k⟩ :: ms.pub.filter fun p => !(p.addr == a && p.cluster == some k) } : MemSys).noteStore
      (.core core) (fun c => clusterOf c == k) a b

/-- Publishes the listed unpublished bytes of a core. -/
def publishAll (core : Nat) (sc : Scope) : List Host.Cell → MemSys → MemSys
  | [], ms => ms
  | c :: l, ms => publishAll core sc l (ms.publish core c.1 c.2 sc)

/-- Takes out a published byte and, behind it, the older ones of its address. -/
def dropOlder (p : PubByte) : List PubByte → List PubByte
  | [] => []
  | q :: l => if q == p then l.filter fun r => r.addr != p.addr else q :: dropOlder p l

/-- Widens one published byte: to everybody, or to the cores of the device. It keeps its place in coherence order; a strong load of
DEVICE scope may take it where nothing newer is available (R312). -/
def widen (ms : MemSys) (p : PubByte) (toSys : Bool) : MemSys :=
  let ns : MemSys :=
    if toSys then { ms with mem := ms.mem.set p.addr p.byte, pub := dropOlder p ms.pub }
    else { ms with pub := ms.pub.map fun q => if q == p then { q with cluster := none } else q }
  let top := if toSys then none else some { p with cluster := none }
  ns.noteStore .hub (fun c => ns.pubFor c p.addr == top) p.addr p.byte

/-- Widens the stores the core has seen published more narrowly: they happen before its release (R306, R308). Oldest first. -/
def promote (core : Nat) (sc : Scope) : List PubByte → MemSys → MemSys
  | [], ms => ms
  | p :: l, ms =>
    let ms := promote core sc l ms
    if seenBy core p then ms.widen p (decide (Scope.system ≤ sc) || (onchipCore p.addr).isSome) else ms

/-- Publishes every unpublished byte of a core, and widens what it has observed. -/
def publishView (ms : MemSys) (core : Nat) (sc : Scope) : MemSys :=
  let ms := if Scope.device ≤ sc then promote core sc ms.pub ms else ms
  (publishAll core sc (ms.ownMem core) ms).setOwn core []

/-! ## Pending stores of compatibility mode (R320, R322) -/

/-- Whether a pending store writes a byte. -/
def wrote (c : CStore) (a : Nat) : Bool := decide (c.addr ≤ a) && decide (a < c.addr + c.bytes.length)

/-- Whether a pending store of a core writes a byte. -/
def pendingAt (core a : Nat) (l : List CStore) : Bool := l.any fun c => c.core == core && wrote c a

/-- Makes the bytes of one pending store available at a scope (R320, R322). A byte that the core has stored again since (`later`
pending, or one of `newer` by an ordinary store) stays in its view with the newer value. -/
def availBytes (core : Nat) (sc : Scope) (newer : List Nat) (later : List CStore) : List Byte → Nat → MemSys → MemSys
  | [], _, ms => ms
  | b :: l, a, ms =>
    let ms :=
      if (ms.ownGet core a).isNone then ms
      else
        let ms := ms.publish core a b sc
        if pendingAt core a later || newer.contains a then ms else ms.dropOwn core a
    availBytes core sc newer later l (a + 1) ms

/-- Scope at which a compatibility-mode store becomes available (R322). -/
def compatScope (a : Nat) : Scope := if isHostOrPeer a then Scope.system else Scope.device

/-- Whether stores to an address keep their order in compatibility mode (R320: on-chip windows and host memory). -/
def compatOrdered (a : Nat) : Bool :=
  (onchipCore a).isSome || (decide (0x400000000000 ≤ a) && decide (a < 0x800000000000))

/-- Whether of two pending stores of a core the earlier one becomes available first: their kinds of memory keep order (R320), or they
write a byte in common (R309). -/
def compatTied (e c : CStore) : Bool :=
  (compatOrdered e.addr && compatOrdered c.addr) || overlaps e.addr e.bytes.length c.addr c.bytes.length

/-- The pending store that must become available first for one to do so; `n` bounds the search. -/
def firstFor : Nat → List CStore → CStore → CStore
  | 0, _, c => c
  | n + 1, mine, c =>
    let e := (mine.find? fun e => compatTied e c).getD c
    if e == c then c else firstFor n mine e

/-- Makes one pending store available at its scope, or at `sc` where that is wider. -/
def compatPut (ms : MemSys) (core : Nat) (sc : Scope) (c : CStore) : MemSys :=
  let ms := { ms with compat := ms.compat.erase c }
  availBytes core (max sc (compatScope c.addr)) c.newer ms.compat c.bytes c.addr ms

/-- The pending stores of a core, in the order in which they entered its view. -/
def pendingOf (ms : MemSys) (core : Nat) : List CStore := ms.compat.filter fun c => c.core == core

/-- A pending store of a core becomes available: number `i`, or one that must come before it (R320). -/
def compatAvail (ms : MemSys) (core i : Nat) : MemSys :=
  let mine := ms.pendingOf core
  match mine[i]? with
  | none => ms
  | some c => ms.compatPut core Scope.core (firstFor mine.length mine c)

/-- Makes pending stores of a core available until none that `p` names is left; `n` bounds how many. -/
def compatUntil (core : Nat) (sc : Scope) (p : CStore → Bool) : Nat → MemSys → MemSys
  | 0, ms => ms
  | n + 1, ms =>
    let mine := ms.pendingOf core
    match mine.find? p with
    | none => ms
    | some c => compatUntil core sc p n (ms.compatPut core sc (firstFor mine.length mine c))

/-- Makes every pending store of a core available, oldest first: a compatibility-mode boundary (R320). -/
def compatDrain (ms : MemSys) (core : Nat) : MemSys := compatUntil core Scope.core (fun _ => true) ms.compat.length ms

/-- Makes available the pending stores of a core that write a byte. -/
def compatForce (ms : MemSys) (core a : Nat) (sc : Scope) : MemSys := compatUntil core sc (fun c => wrote c a) ms.compat.length ms

/-- Before a store that is available at once, the pending ones that keep order with it become available (R320). -/
def compatBefore (ms : MemSys) (core : Nat) : MemSys :=
  compatUntil core Scope.core (fun c => compatOrdered c.addr) ms.compat.length ms

/-! ## Releases and acquires (R306, R307) -/

/-- A release at a scope (R306): what is pending becomes available (log 8), then every store of the core's view is published, and
what it has observed is widened. -/
def release (ms : MemSys) (core : Nat) (sc : Scope) : MemSys :=
  let ms := ms.compatDrain core
  if sc ≤ Scope.core then ms else ms.publishView core sc

/-- An acquire at a scope (R307): CLUSTER or wider discards the snapshot. -/
def acquire (ms : MemSys) (core : Nat) (sc : Scope) : MemSys :=
  if sc ≤ Scope.core then ms else { ms with snap := ms.snap.filter fun l => l.core != core }

/-! ## Accesses of a core's parties (R304, R305, R307, R312, R320) -/

/-- Fills the snapshot line of an address (R307). -/
def fill (ms : MemSys) (core a : Nat) : MemSys :=
  match ms.snapLine core a with
  | some _ => ms
  | none =>
    let bs := (List.range 64).map fun i => ms.avail core (a / 64 * 64 + i)
    { ms with snap := ⟨core, a / 64, bs, bs, bs⟩ :: ms.snap }

/-- An ordinary load of one byte by a party of a core (R304 to R307): a far line is filled first; a byte the core has written and
not published is its own. -/
def loadByte (ms : MemSys) (core a : Nat) : Byte × MemSys :=
  if onchipCore a == some core then (ms.avail core a, ms)
  else
    let ms := ms.fill core a
    match ms.ownGet core a, ms.snapLine core a with
    | some b, _ => (b, ms)
    | none, some l => (l.bytes.getD (a % 64) 0, ms)
    | none, none => (ms.avail core a, ms)

/-- The latest byte available to a core, its unpublished ones included; the snapshot stays out of it. -/
def peek (ms : MemSys) (core a : Nat) : Byte :=
  if onchipCore a == some core then ms.avail core a
  else match ms.ownGet core a with
    | some b => b
    | none => ms.avail core a

/-- A load of one byte that uses no snapshot: channels (R316), compatibility mode (R320). What it has observed, later loads of the
core do not go behind (R309). -/
def loadNow (ms : MemSys) (core a : Nat) : Byte × MemSys := (ms.peek core a, ms.patchSnap core a (ms.peek core a))

/-- An ordinary store of one byte by a party of a core (R304). One over a pending store leaves that one's value to become available
by itself. -/
def storeByte (ms : MemSys) (core a : Nat) (b : Byte) : MemSys :=
  if onchipCore a == some core then ms.setAll (.core core) a b
  else
    let mark (c : CStore) : CStore := if c.core == core && wrote c a then { c with newer := a :: c.newer } else c
    { ms with compat := ms.compat.map mark }.setOwn core (ovSet (ms.ownMem core) a b)

/-- A strong access to a byte that holds an unpublished store first publishes it at its scope (R312). -/
def settle (ms : MemSys) (core a : Nat) (sc : Scope) : MemSys :=
  if sc ≤ Scope.core then ms
  else
    let ms := ms.compatForce core a sc
    match ms.ownGet core a with
    | none => ms
    | some b => (ms.publish core a b sc).dropOwn core a

/-- What a strong load of a scope takes: towards the parties within the scope the co-latest store; stores of others, only as the
snapshot holds them (R312). -/
def strongByte (ms : MemSys) (core a : Nat) (sc : Scope) : Byte :=
  match ms.snapLine core a with
  | none => ms.peek core a
  | some l =>
    if sc == Scope.cluster then l.near.getD (a % 64) 0
    else if sc == Scope.device then l.wide.getD (a % 64) 0
    else ms.peek core a

/-- A strong load of one byte (R312). At CORE scope and narrower every party of another core is outside its scope, so that it is an
ordinary load. -/
def strongLoad (ms : MemSys) (core a : Nat) (sc : Scope) : Byte × MemSys :=
  if sc ≤ Scope.core || onchipCore a == some core then ms.loadByte core a
  else
    let ms := ms.settle core a sc
    let b := ms.strongByte core a sc
    (b, ms.patchSnap core a b)

/-- A strong store of one byte (R312). -/
def strongStore (ms : MemSys) (core a : Nat) (b : Byte) (sc : Scope) : MemSys :=
  if onchipCore a == some core then ms.setAll (.core core) a b
  else if Scope.core < sc then (ms.settle core a sc).publish core a b sc
  else ms.storeByte core a b

/-- A store that becomes available to everybody at once: engines, atomics and host writes (R315, R385). -/
def poke (ms : MemSys) (who : Party) (a : Nat) : List Byte → MemSys
  | [] => ms
  | b :: l => poke (ms.setAll who a b) who (a + 1) l

/-- Before an atomic performs, the core's unpublished stores to its bytes are published with its reach (R315). -/
def flushBytes (ms : MemSys) (core a : Nat) : Nat → MemSys
  | 0 => ms
  | n + 1 =>
    let ms := (flushBytes ms core a n).compatForce core (a + n) Scope.system
    match ms.ownGet core (a + n) with
    | none => ms
    | some b => ((ms.patchSnap core (a + n) b).setAll (.core core) (a + n) b).dropOwn core (a + n)

/-- The value an atomic reads (R315): the co-latest bytes. -/
def atomRead (ms : MemSys) (a n : Nat) : Nat := leVal ((List.range n).map fun i => ms.latest (a + i))

/-- An atomic's store (R315): available to everybody; the issuing core's snapshot does not go back. -/
def atomWrite (ms : MemSys) (core a n v : Nat) : MemSys :=
  ((List.range n).foldl (fun ms i => ms.patchSnap core (a + i) (BitVec.ofNat 8 (v / 256 ^ i))) ms).poke (.core core) a (leBytes n v)

/-- Bytes at DEVICE scope. -/
def readDevice (ms : MemSys) (a n : Nat) : List Byte := (List.range n).map fun i => ms.availDevice (a + i)

/-- Bytes at SYSTEM scope: what the host and the peers read. -/
def readSystem (ms : MemSys) (a n : Nat) : List Byte := ms.mem.read a n

/-- The latest bytes available to a core. -/
def peeks (ms : MemSys) (core a n : Nat) : List Byte := (List.range n).map fun i => ms.peek core (a + i)

/-- A load of `n` bytes with no snapshot. -/
def loadsNow (core : Nat) : Nat → Nat → MemSys → List Byte × MemSys
  | 0, _, ms => ([], ms)
  | n + 1, a, ms =>
    let r := ms.loadNow core a
    let t := loadsNow core n (a + 1) r.2
    (r.1 :: t.1, t.2)

/-- An ordinary load of `n` bytes. -/
def loadBytes (core : Nat) : Nat → Nat → MemSys → List Byte × MemSys
  | 0, _, ms => ([], ms)
  | n + 1, a, ms =>
    let r := ms.loadByte core a
    let t := loadBytes core n (a + 1) r.2
    (r.1 :: t.1, t.2)

/-- A strong load of `n` bytes. -/
def strongLoads (core : Nat) (sc : Scope) : Nat → Nat → MemSys → List Byte × MemSys
  | 0, _, ms => ([], ms)
  | n + 1, a, ms =>
    let r := ms.strongLoad core a sc
    let t := strongLoads core sc n (a + 1) r.2
    (r.1 :: t.1, t.2)

/-- An ordinary store of bytes. -/
def storeBytes (core : Nat) : List Byte → Nat → MemSys → MemSys
  | [], _, ms => ms
  | b :: l, a, ms => storeBytes core l (a + 1) (ms.storeByte core a b)

/-- A strong store of bytes. -/
def strongStores (core : Nat) (sc : Scope) : List Byte → Nat → MemSys → MemSys
  | [], _, ms => ms
  | b :: l, a, ms => strongStores core sc l (a + 1) (ms.strongStore core a b sc)

/-- A compatibility-mode store (R320): in the core's view at once, pending for every other party; one to own bytes is available at
once, after those that keep order with it. -/
def compatStore (core slot lane : Nat) (b : List Byte) (a : Nat) (ms : MemSys) : MemSys :=
  if onchipCore a == some core then storeBytes core b a (ms.compatBefore core)
  else
    let old := ms.compat
    { storeBytes core b a ms with compat := old ++ [⟨core, slot, lane, a, b, []⟩] }

/-- Forgets unpublished and narrowly published stores to the bytes that `p` names, which change hands between contexts (R8). -/
def forget (ms : MemSys) (p : Nat → Bool) : MemSys :=
  { ms with
    own := (ms.own.map fun v => { v with mem := v.mem.filter fun c => !p c.1 }).filter fun v => !v.mem.isEmpty
    compat := ms.compat.filter fun c => !p c.addr
    pub := ms.pub.filter fun q => !p q.addr }

end MemSys

end Sys2Proof.Machine
end

