-- ==== Sys2Proof/Machine/Translate.lean ====
section
/-! DEFINITION. Address translation (17: R324 to R331): the two-stage walk, its faults, and the cached translations. -/

namespace Sys2Proof.Machine

/-- The function of a number; one never written has its reset registers. -/
def Hub.fn (h : Hub) (n : Nat) : Fn :=
  (getBy Fn.no n h.fns).getD
    { no := n, s2root := 0, ctxst := 0, allot := 0, reqs := [], gens := List.replicate 32 0, raised := [], priOff := false,
      dbgBusy := false }

/-- Replaces a function's record. -/
def Hub.setFn (h : Hub) (f : Fn) : Hub := { h with fns := putBy Fn.no f h.fns }

/-- The live context of a number. -/
def Hub.ctx? (h : Hub) (n : Nat) : Option Ctx := getBy Ctx.no n h.ctxs

/-- Replaces a context's record. -/
def Hub.setCtx (h : Hub) (c : Ctx) : Hub := { h with ctxs := putBy Ctx.no c h.ctxs }

/-- Changes a live context. -/
def Hub.updCtx (h : Hub) (n : Nat) (f : Ctx → Ctx) : Hub := { h with ctxs := updWhere (fun c => c.no == n) f h.ctxs }

/-- Tier-1 bytes (R277). -/
def tier1Size : Nat := 0x8000000000
/-- First byte of tier 2 (R277). -/
def tier2Base : Nat := 0x010000000000
/-- Room of tier 2 (R277). -/
def tier2Room : Nat := 0x018000000000

/-- Installed tier-2 bytes (R277): all of it on G5120-M. -/
def Hub.tier2Bytes (h : Hub) : Nat := if h.isX then min (h.tier2 * 256) tier2Room else tier2Room

/-- The peer whose aperture holds an address, with the offset (R384). -/
def peerOf (a : Nat) : Option (Nat × Nat) :=
  if 0x800000000000 ≤ a ∧ a < 0x800000000000 + 12 * 0x040000000000 then
    some ((a - 0x800000000000) / 0x040000000000, (a - 0x800000000000) % 0x040000000000)
  else none

/-- Whether a translation may give this address (R277, R384, R390): otherwise a Range fault (R329). -/
def Hub.inRange (h : Hub) (a : Nat) : Bool :=
  decide (a < tier1Size) || (decide (tier2Base ≤ a) && decide (a < tier2Base + h.tier2Bytes)) ||
  (decide (0x400000000000 ≤ a) && decide (a < 0x800000000000)) ||
  (match peerOf a with
   | some (p, o) => h.links.getLsbD p && decide (o < 0x030000000000)
   | none => false)

/-- Why a walk ended without a translation (R329): kind 0 invalid, 1 permission, 2 Malformed, 3 Range. -/
structure WFault where
  stage : Nat
  kind : Nat
  level : Nat
  /-- Input address of the stage. -/
  addr : Nat
  /-- Found while a stage-1 table was read, which needs only read permission. -/
  table : Bool := false
  deriving DecidableEq, Repr

/-- A leaf of a walk: output address, bytes covered, bytes that its entry or its group of entries maps, permissions. -/
structure Leaf where
  out : Nat
  size : Nat
  span : Nat
  w : Bool
  x : Bool
  deriving DecidableEq, Repr

/-- Whether the 16 entries of a group agree (R326), from the first one on. -/
def contAgree (e0 : Nat) (es : List Nat) : Bool :=
  es.zipIdx.all fun p =>
    bitsOf p.1 0 1 == 1 && bitsOf p.1 4 1 == 1 && bitsOf p.1 2 2 == bitsOf e0 2 2 && bitsOf p.1 1 1 == 1 &&
    bitsOf p.1 12 36 == bitsOf e0 12 36 + p.2

/-- A table walk (R324 to R326, R329) with `left` levels to go. `rd` reads the entry at an address or faults. -/
def walkTable (stage pick : Nat) (rd : Nat → Except WFault Nat) (needW needX : Bool) (input : Nat) :
    (left : Nat) → (table : Nat) → Except WFault Leaf
  | 0, _ => .error ⟨stage, 2, 3, input, false⟩
  | n + 1, table =>
    let level := 3 - n
    let bad (k : Nat) : Except WFault Leaf := .error ⟨stage, k, level, input, false⟩
    match rd (table + 8 * bitsOf input (12 + 9 * n) 9) with
    | .error f => .error f
    | .ok e =>
      if bitsOf e 0 1 == 0 then bad 0
      else if bitsOf e 48 16 != 0 || bitsOf e 5 1 != 0 then bad 2
      else if n != 0 && bitsOf e 4 1 == 1 then bad 2
      else if n != 0 && bitsOf e 1 1 == 1 then walkTable stage pick rd needW needX input n (bitsOf e 12 36 * 4096)
      else if n == 3 || (n == 0 && bitsOf e 1 1 == 0) then bad 2
      else
        let size := 2 ^ (12 + 9 * n)
        if bitsOf e 12 36 * 4096 % size != 0 then bad 2
        else
          let leaf (e out size span : Nat) : Except WFault Leaf :=
            if (needW && bitsOf e 2 1 == 0) || (needX && bitsOf e 3 1 == 0) then bad 1
            else .ok ⟨out, size, span, bitsOf e 2 1 == 1, bitsOf e 3 1 == 1⟩
          let own (span : Nat) := leaf e (bitsOf e 12 36 * 4096 + input % size) size span
          if n == 0 && bitsOf e 4 1 == 1 then
            let first := table + 8 * (bitsOf input 12 9 / 16 * 16)
            let es := (List.range 16).map fun i => match rd (first + 8 * i) with | .ok v => v | .error _ => 0
            let e0 := nth es 0 0
            if contAgree e0 es then leaf e0 (bitsOf e0 12 36 * 4096 + input % 65536) 65536 65536
            else
              let j := Config.contPick pick % 16
              let ej := nth es j 0
              if bitsOf ej 0 2 == 3 && bitsOf ej 4 1 == 1 && bitsOf ej 48 16 == 0 && bitsOf ej 5 1 == 0 then
                leaf ej ((bitsOf ej 12 36 * 4096 + input % 65536 + 2 ^ 48 - j * 4096) % 2 ^ 48) 4096 65536
              else own 65536
          else own size

/-- Stage 2 of a function (R324, R327, R329): IPA to physical address. -/
def stage2 (h : Hub) (ms : MemSys) (pick vf : Nat) (needW needX : Bool) (ipa : Nat) : Except WFault Leaf :=
  match walkTable 2 pick (fun a => .ok (leVal (ms.readDevice a 8))) needW needX ipa 4 (h.fn vf).s2root with
  | .error f => .error f
  | .ok l => if h.inRange l.out then .ok l else .error ⟨2, 3, 3, ipa, false⟩

/-- Where a cached translation puts an address of its range. -/
def Tlb.at_ (t : Tlb) (va : Nat) : Nat := t.pa + (va - t.va)

/-- The physical address of a stage-1 table entry (R328): by a cached translation of its page, among `tabs`, or by stage 2. -/
def tablePa (h : Hub) (ms : MemSys) (pick vf : Nat) (tabs : List Tlb) (ipa : Nat) : Except WFault Nat :=
  match tabs.find? fun t => decide (t.va ≤ ipa) && decide (ipa < t.va + t.size) && h.inRange (t.at_ ipa) with
  | some t => .ok (t.at_ ipa)
  | none =>
    match stage2 h ms pick vf false false ipa with
    | .error f => .error { f with table := true }
    | .ok l => .ok l.out

/-- Reads a stage-1 table entry (R328). -/
def readS1 (h : Hub) (ms : MemSys) (pick vf : Nat) (tabs : List Tlb) (ipa : Nat) : Except WFault Nat :=
  (tablePa h ms pick vf tabs ipa).map fun a => leVal (ms.readDevice a 8)

/-- The bytes a composed translation covers (R327): the smaller of the two pages, where the stage-1 page lies in the IPA as it does in
the virtual addresses; a CONT group whose first ADDR is not 64 KiB-aligned does not, and gives 4 KiB pieces. -/
def pieceSize (va out size1 size2 : Nat) : Nat :=
  let m := min size1 size2
  if out % m == va % m then m else 4096

/-- Both stages (R327, R328), with the translations `tabs` of table pages that are cached. -/
def stages (h : Hub) (ms : MemSys) (pick : Nat) (c : Ctx) (tabs : List Tlb) (needW needX : Bool) (va : Nat) : Except WFault Leaf :=
  match walkTable 1 pick (readS1 h ms pick c.vf tabs) needW needX va 4 c.s1root with
  | .error f => .error f
  | .ok l1 =>
    match stage2 h ms pick c.vf needW needX l1.out with
    | .error f => .error f
    | .ok l2 => .ok ⟨l2.out, pieceSize va l1.out l1.size l2.size, l1.span, l1.w && l2.w, l1.x && l2.x⟩

/-- The tables that a stage-1 walk reads, with `left` levels to go. -/
def tablesRead (rd : Nat → Except WFault Nat) (input : Nat) : (left : Nat) → (table : Nat) → List Nat
  | 0, _ => []
  | n + 1, table =>
    table :: match rd (table + 8 * bitsOf input (12 + 9 * n) 9) with
      | .error _ => []
      | .ok e =>
        if n != 0 && bitsOf e 0 2 == 3 && bitsOf e 4 2 == 0 && bitsOf e 48 16 == 0 then tablesRead rd input n (bitsOf e 12 36 * 4096)
        else []

/-- The unit of a page request that a fault names (R332); stage 0 when no request can resolve it. -/
def unitOf (f : WFault) (va acc : Nat) : FaultUnit :=
  { stage := if f.kind ≥ 2 then 0 else f.stage
    page := if f.stage == 1 then va / 4096 else f.addr / 65536
    va := va
    acc := if f.table then 1 else acc
    kind := f.kind
    level := f.level }

/-- Whether a cached translation serves an access. -/
def Tlb.hits (t : Tlb) (place ctx vf va : Nat) (needW needX : Bool) : Bool :=
  !t.table && t.place == place && t.ctx == ctx && t.vf == vf && decide (t.va ≤ va) && decide (va < t.va + t.size) &&
  (!needW || t.w) && (!needX || t.x)

/-- Places a translation in a TLB; the oldest of a full one leaves (R330, log 9). -/
def tlbPut (t : Tlb) (room : Nat) (l : List Tlb) : List Tlb :=
  let mine := l.filter fun x => x.place == t.place
  let l := if mine.length < room then l else
    match mine.getLast? with
    | some old => l.erase old
    | none => l
  t :: l

/-- The place number of a cluster's TLB. -/
def clusterTlb (core : Nat) : Nat := 512 + clusterOf core

/-- The cached translations of a context's stage-1 table pages in a cluster's TLB (R330). -/
def tableTlbs (tlbs : List Tlb) (place ctx vf : Nat) : List Tlb :=
  tlbs.filter fun t => t.table && t.place == place && t.ctx == ctx && t.vf == vf

/-- The cluster's TLB keeps the stage-2 translations of the table pages that a walk has read (R330). -/
def Dev.keepTables (d : Dev) (core : Nat) (c : Ctx) (va : Nat) : Dev :=
  let place := clusterTlb core
  let tabs := tableTlbs d.tlbs place c.no c.vf
  let put (l : List Tlb) (p : Nat) : List Tlb :=
    if l.any fun t => t.table && t.place == place && t.ctx == c.no && t.vf == c.vf && decide (t.va ≤ p) && decide (p < t.va + t.size) then l
    else match stage2 d.hub d.ms d.free c.vf false false p with
      | .error _ => l
      | .ok s => tlbPut { place := place, ctx := c.no, vf := c.vf, va := p / s.size * s.size, size := s.size, pa := s.out - p % s.size,
                          w := s.w, x := s.x, from_ := 0, span := 0, table := true } 2048 l
  { d with tlbs := (tablesRead (readS1 d.hub d.ms d.free c.vf tabs) va 4 c.s1root).foldl put d.tlbs }

/-- Translates a virtual address for an access (R327, R330); `acc` has bit 0 read, 1 write, 2 fetch. A cached translation beyond what is
installed does not serve (R329). -/
def Dev.translate (d : Dev) (core ctx va acc : Nat) : Except FaultUnit Nat × Dev :=
  let needW := acc / 2 % 2 == 1
  let needX := acc / 4 % 2 == 1
  match d.hub.ctx? ctx with
  | none => (.error ⟨0, va / 4096, va, acc, 0, 0⟩, d)
  | some c =>
    let served (place : Nat) (t : Tlb) : Bool := t.hits place ctx c.vf va needW needX && d.hub.inRange (t.at_ va)
    match d.tlbs.find? (served core) with
    | some t => (.ok (t.at_ va), d)
    | none =>
      match d.tlbs.find? (served (clusterTlb core)) with
      | some t => (.ok (t.at_ va), { d with tlbs := tlbPut { t with place := core } 64 d.tlbs })
      | none =>
        let d1 := d.keepTables core c va
        match stages d.hub d.ms d.free c (tableTlbs d.tlbs (clusterTlb core) ctx c.vf) needW needX va with
        | .error f => (.error (unitOf f va acc), d1)
        | .ok l =>
          let t : Tlb := { place := core, ctx := ctx, vf := c.vf, va := va / l.size * l.size, size := l.size, pa := l.out - va % l.size,
                           w := l.w, x := l.x, from_ := va / l.span * l.span, span := l.span, table := false }
          (.ok l.out, { d1 with tlbs := tlbPut t 64 (tlbPut { t with place := clusterTlb core } 2048 d1.tlbs) })

/-- Translates an IPA of a function for an access of the hub or an engine (R341): stage 2 alone. -/
def Dev.translateIpa (d : Dev) (vf ipa acc : Nat) : Except FaultUnit Nat :=
  match stage2 d.hub d.ms d.free vf (acc / 2 % 2 == 1) (acc / 4 % 2 == 1) ipa with
  | .ok l => .ok l.out
  | .error f => .error { unitOf f 0 acc with va := 0 }

/-- Translates for an access of the hub, which caches nothing. -/
def Dev.translateHub (d : Dev) (ctx va acc : Nat) : Except FaultUnit Nat :=
  match d.hub.ctx? ctx with
  | none => .error ⟨0, va / 4096, va, acc, 0, 0⟩
  | some c =>
    match stages d.hub d.ms d.free c [] (acc / 2 % 2 == 1) (acc / 4 % 2 == 1) va with
    | .ok l => .ok l.out
    | .error f => .error (unitOf f va acc)

/-- Whether the tables could be used: a translation without a fault. -/
def okAddr : Except FaultUnit Nat → Option Nat
  | .ok a => some a
  | .error _ => none

end Sys2Proof.Machine
end

