-- ==== Sys2Proof/Machine/Ops.lean ====
section
/-! DEFINITION. The named operations over fibres, warps, groups and registers; taking a trap (10: R242 to R248) and going on
after an instruction (R67, R131, R144, R253). -/

namespace Sys2Proof.Machine

/-! ## Looking things up -/

/-- A group record with nothing in it; it stands for a group that does not exist. -/
def Group.none_ : Group :=
  { gid := 0, ctx := 0, core := 0, cls := 0, lid := 0, launchid := 0, teamid := 0, groupid := 0, entry := 0, role := .plain,
    slots := [], ks := List.replicate 55 0, gctl := 0, uhv := 0, bars := List.replicate 8 0, tbars := List.replicate 8 0,
    gwx := false, spad := [], aslots := [], gaveUnits := [], gaveSlots := [], grants := List.replicate 8 none, holds := [], stat := .running,
    born := 0, infl := [], outst := [] }

/-- The fibre at a position. -/
def Dev.fibre? (d : Dev) (core slot lane : Nat) : Option Fibre :=
  d.fibres.find? fun f => f.core == core && f.slot == slot && f.lane == lane

/-- The warp in a slot of a core. -/
def Dev.warp? (d : Dev) (core slot : Nat) : Option Warp :=
  d.warps.find? fun w => w.core == core && w.slot == slot

/-- A resident group. -/
def Dev.group? (d : Dev) (gid : Nat) : Option Group := getBy Group.gid gid d.groups

/-- The record of a core. -/
def Dev.core (d : Dev) (n : Nat) : Core :=
  (getBy Core.no n d.cores).getD
    { no := n, shut := [], chans := [], walk := none, wstat := 0, wstall := 0, rec_ := none }

/-- The record of a cluster. -/
def Dev.cluster (d : Dev) (n : Nat) : Cluster :=
  (getBy Cluster.no n d.clusters).getD { no := n, queue := [], bins := [], pass := 1, want := 1, grant := 4 }

/-- Replaces a core's record. -/
def Dev.setCore (d : Dev) (c : Core) : Dev := { d with cores := putBy Core.no c d.cores }

/-- Changes a core's record. -/
def Dev.updCore (d : Dev) (n : Nat) (f : Core → Core) : Dev := d.setCore (f (d.core n))

/-- Replaces a cluster's record. -/
def Dev.setCluster (d : Dev) (c : Cluster) : Dev := { d with clusters := putBy Cluster.no c d.clusters }

/-- Changes a group. -/
def Dev.updGroup (d : Dev) (gid : Nat) (f : Group → Group) : Dev :=
  { d with groups := updWhere (fun g => g.gid == gid) f d.groups }

/-- Changes the fibres that satisfy `p`. -/
def Dev.updFibres (d : Dev) (p : Fibre → Bool) (f : Fibre → Fibre) : Dev :=
  { d with fibres := updWhere p f d.fibres }

/-- Changes the fibre at a position. -/
def Dev.updFibre (d : Dev) (core slot lane : Nat) (f : Fibre → Fibre) : Dev :=
  d.updFibres (fun x => x.core == core && x.slot == slot && x.lane == lane) f

/-- Changes the warp in a slot. -/
def Dev.updWarp (d : Dev) (core slot : Nat) (f : Warp → Warp) : Dev :=
  { d with warps := updWhere (fun w => w.core == core && w.slot == slot) f d.warps }

/-- Whether a stop holds a warp still (R263): masked, or occupied while its walk finishes or is in its grace, it goes on
(R264, R272). -/
def Dev.isStopped (d : Dev) (w : Warp) : Bool :=
  w.stopping && !w.masked &&
  !(w.occ.isSome && match (d.core w.core).walk with | some e => e.st == .stopping || (e.st == .grace && decide (d.cycle < e.grace)) | none => false)

/-- Changes the hub. -/
def Dev.updHub (d : Dev) (f : Hub → Hub) : Dev := { d with hub := f d.hub }

/-- Changes memory. -/
def Dev.updMs (d : Dev) (f : MemSys → MemSys) : Dev := { d with ms := f d.ms }

/-- Lifts an operation of the device to the state. -/
def State.onDev (s : State) (f : Dev → Dev) : State := { s with dev := f s.dev }

/-- The outcome of an operation that always completes. -/
def ok (s : State) : Host.Outcome State Fault Refusal := .next s

/-- The next ordering or placement choice (log 1). -/
def Dev.choose (d : Dev) : Nat × Dev :=
  match d.oracle with
  | [] => (0, d)
  | c :: l => (c, { d with oracle := l })

/-! ## The batch -/

/-- Whether a fibre is a member of the batch being issued. -/
def Batch.has (b : Batch) (f : Fibre) : Bool := f.core == b.core && b.members.contains (f.slot, f.lane)

/-- The active fibres, in increasing home lane. -/
def Dev.active (d : Dev) : List Fibre := d.cur.members.filterMap fun m => d.fibre? d.cur.core m.1 m.2

/-- Whether the batch holds helper fibres alone (R25, R182). -/
def Dev.allHelpers (d : Dev) : Bool := d.active.all fun f => f.helper

/-- The batch's group. -/
def Dev.grp (d : Dev) : Group := (d.group? d.cur.gid).getD Group.none_

/-- Changes the active fibres. -/
def Dev.updActive (d : Dev) (f : Fibre → Fibre) : Dev := d.updFibres d.cur.has f

/-- Warp slots with a fibre in the batch. -/
def Dev.slotsOf (d : Dev) : List Nat := dedup (d.cur.members.map Prod.fst)

/-- Whether the batch holds every unretired fibre of its anchor slot and no other fibre (R169, R206, R236). -/
def Dev.wholeWarp (d : Dev) : Bool :=
  let mine := d.fibres.filter fun f => f.core == d.cur.core && f.slot == d.cur.anchor
  mine.all d.cur.has && d.cur.members.all fun m => m.1 == d.cur.anchor

/-- PASS of a core's cluster (R71). -/
def Dev.pass (d : Dev) (core : Nat) : Nat := (d.cluster (clusterOf core)).pass

/-! ## Registers -/

/-- The bits of a masked merge. -/
def merge (old value bits : W64) : W64 := (old &&& ~~~bits) ||| (value &&& bits)

/-- A lane register as it stands. -/
def Fibre.vreg (f : Fibre) (n : Nat) : W64 := nth f.win n 0

/-- A mask register; m0 reads 0xFF (R29). -/
def Fibre.mask (f : Fibre) (n : Nat) : Byte :=
  if n == 0 then 0xFF else f.pred.extractLsb' (8 * n) 8

/-- The predicate word as it reads (R29). -/
def Fibre.predWord (f : Fibre) : W64 := f.pred ||| 0xFF

/-- The issue slot of a fibre that the passing of cycles alone gives (R67, R71). -/
def Fibre.elapsed (f : Fibre) (now pass : Nat) : Nat := f.pace.slot + (now / pass - f.pace.at_ / pass)

/-- The issue slot in which an instruction of a fibre issues now: the stall counts of the instructions before it count in full at
every pass count (R67, R71). -/
def Fibre.slotNow (f : Fibre) (now pass : Nat) : Nat := max f.pace.due (f.elapsed now pass)

/-- The issue slot of a fibre at present. -/
def Dev.slotOf (d : Dev) (f : Fibre) : Nat := f.slotNow d.cycle (d.pass f.core)

/-- The result in flight to a register that a read in this slot or cycle finds too early (R69). -/
def shortOf (infl : List InFlight) (r : Reg) (now : Nat) : Option InFlight :=
  infl.find? fun e => e.reg == r && decide (now < e.ready)

/-- A lane register as an instruction of the batch reads it: a short read obtains the old value or the new (R69). -/
def Dev.readV (d : Dev) (f : Fibre) (n : Nat) : W64 :=
  match shortOf f.infl (.v n) (d.slotOf f) with
  | none => f.vreg n
  | some e => if Config.shortRead d.free (f.slot * 32 + f.lane) n then f.vreg n else e.old

/-- A mask register as an instruction reads it. -/
def Dev.readM (d : Dev) (f : Fibre) (n : Nat) : Byte :=
  match shortOf f.infl (.m n) (d.slotOf f) with
  | none => f.mask n
  | some e => if Config.shortRead d.free (f.slot * 32 + f.lane) (128 + n) then f.mask n else e.old.setWidth 8

/-- A uniform register as it stands: k55 to k63 are the anchor warp's copy (R27). -/
def Dev.kreg (d : Dev) (n : Nat) : W64 :=
  if n < 55 then nth d.grp.ks n 0
  else match d.warp? d.cur.core d.cur.anchor with
    | some w => nth w.kd (n - 55) 0
    | none => 0

/-- The number under which a result in flight to a uniform register is held: k55 to k63 are kept per warp (R27). -/
def Dev.kkey (d : Dev) (n : Nat) : Nat := if n < 55 then n else 64 * (d.cur.anchor + 1) + n

/-- A uniform register as an instruction of the batch reads it (R28, R69); `who` is the reader: 2048 + anchor slot for the
uniform pipe, a fibre's position for a lane operand. -/
def Dev.readKAs (d : Dev) (who n : Nat) : W64 :=
  match shortOf d.grp.infl (.k (d.kkey n)) d.cycle with
  | none => d.kreg n
  | some e => if Config.shortRead d.free who (256 + n) then d.kreg n else e.old

/-- A uniform register as a uniform instruction of the batch reads it. -/
def Dev.readK (d : Dev) (n : Nat) : W64 := d.readKAs (2048 + d.cur.anchor) n

/-- Writes outstanding to a register land before a later write of it (R69). -/
def landV (f : Fibre) (r : Reg) : Fibre :=
  match r with
  | .v n =>
    let mine := f.outst.filter fun o => o.reg == r
    { f with win := f.win.set n (mine.foldl (fun x o => merge x o.value o.bits) (f.vreg n))
             outst := f.outst.filter fun o => !(o.reg == r) }
  | _ => f

/-- Every outstanding write of a fibre lands. -/
def Fibre.landAll (f : Fibre) : Fibre :=
  { f with win := f.outst.foldl (fun w o => match o.reg with
                    | .v n => w.set n (merge (nth w n 0) o.value o.bits)
                    | _ => w) f.win
           outst := [] }

/-- A fixed-latency write of a lane register, readable from issue slot `rdy` on (R67). -/
def Fibre.putV (f : Fibre) (n : Nat) (x : W64) (rdy : Nat) : Fibre :=
  let f := landV f (.v n)
  { f with win := f.win.set n x, infl := ⟨.v n, f.vreg n, rdy⟩ :: (f.infl.filter fun e => !(e.reg == .v n)) }

/-- A fixed-latency write of a mask register; one of m0 is ignored (R29). -/
def Fibre.putM (f : Fibre) (n : Nat) (x : Byte) (rdy : Nat) : Fibre :=
  if n == 0 then f
  else
    let sh := 8 * n
    { f with pred := (f.pred &&& ~~~((0xFF : W64) <<< sh)) ||| (x.setWidth 64 <<< sh)
             infl := ⟨.m n, (f.mask n).setWidth 64, rdy⟩ :: (f.infl.filter fun e => !(e.reg == .m n)) }

/-- A variable-latency write of a lane register: it becomes outstanding (R68). -/
def Fibre.owe (f : Fibre) (n : Nat) (x bits : W64) : Fibre :=
  { f with outst := f.outst ++ [⟨.v n, 0, x, bits⟩], infl := f.infl.filter fun e => !(e.reg == .v n) }

/-- Writes a uniform register at once: in the group, or in the copy of the warp in `slot` (R27). -/
def Dev.setK (d : Dev) (gid core slot n : Nat) (x : W64) : Dev :=
  if n < 55 then d.updGroup gid fun g => { g with ks := g.ks.set n x }
  else d.updWarp core slot fun w => { w with kd := w.kd.set (n - 55) x }

/-- Lands the outstanding writes of a uniform register before a later write of it. -/
def Dev.landK (d : Dev) (n : Nat) : Dev :=
  let mine := d.grp.outst.filter fun o => o.reg == .k n && (n < 55 || o.slot == d.cur.anchor)
  let d := mine.foldl (fun d o => d.setK d.cur.gid d.cur.core d.cur.anchor n o.value) d
  d.updGroup d.cur.gid fun g =>
    { g with outst := g.outst.filter fun o => !(o.reg == .k n && (n < 55 || o.slot == d.cur.anchor)) }

/-- A fixed-latency write of a uniform register of the batch (R28, R68): readable two cycles on. -/
def Dev.putK (d : Dev) (n : Nat) (x : W64) : Dev :=
  let d := d.landK n
  let old := d.kreg n
  let d := d.setK d.cur.gid d.cur.core d.cur.anchor n x
  d.updGroup d.cur.gid fun g =>
    { g with infl := ⟨.k (d.kkey n), old, d.cycle + 2⟩ :: (g.infl.filter fun e => !(e.reg == .k (d.kkey n))) }

/-- A variable-latency write of a uniform register of the batch (R68). -/
def Dev.oweK (d : Dev) (n : Nat) (x : W64) : Dev :=
  let d := d.landK n
  d.updGroup d.cur.gid fun g =>
    { g with outst := g.outst ++ [⟨.k n, d.cur.anchor, x, BitVec.allOnes 64⟩]
             infl := g.infl.filter fun e => !(e.reg == .k (d.kkey n)) }

/-! ## Traps -/

/-- Whether a cause may enter the user handler (R243); a walk fault's PANEGEOM never reaches this. -/
def mayEnter (cause : Nat) : Bool := !(cause == 5 || cause == 11 || cause == 15 || cause == 18)

/-- TRAPCAUSE of a trap (R242). -/
def causeWord (t : Trap) (nest : Bool) : W64 :=
  BitVec.ofNat 64 (t.cause + t.acc * 2 ^ 10 + (if t.impr then 2 ^ 16 else 0) + (if nest then 2 ^ 17 else 0) + t.code * 2 ^ 32)

/-- MDONE of a memory instruction that completed in part (R36, R152). -/
def mdoneWord (old : W64) (pc : Addr48) (done : Byte) : W64 :=
  let prev : W64 := if old.getLsbD 48 && old.extractLsb' 2 46 == pc.extractLsb' 2 46 then old.extractLsb' 56 8 |>.setWidth 64 else 0
  ((done.setWidth 64 ||| prev) <<< 56) ||| (1 <<< 48) ||| ((pc.setWidth 64 >>> 2) <<< 2)

/-- The trap registers after a trap (R246, step 1). -/
def Fibre.trapRegs (f : Fibre) (t : Trap) (at_ : Addr48) (nest : Bool) : Fibre :=
  { f with
    trapcause := causeWord t nest
    trappc := sext48 at_
    trapaddr := t.addr
    ilenc := match t.ill with | some p => p.1 | none => f.ilenc
    ilf0 := match t.ill with | some p => p.2.f0 | none => f.ilf0
    ilf1 := match t.ill with | some p => p.2.f1 | none => f.ilf1
    ilf2 := match t.ill with | some p => p.2.f2 | none => f.ilf2
    ilf3 := match t.ill with | some p => p.2.f3 | none => f.ilf3
    mdone := match t.done with | some b => mdoneWord f.mdone at_ b | none => f.mdone }

/-- A trap taken by one fibre (R246): the registers of step 1; then the user handler, if the cause may enter it, UHV is
nonzero and the warp is not masked; else the fault path. `at_` is the trapping instruction. -/
def Fibre.takeTrap (f : Fibre) (t : Trap) (at_ : Addr48) (uhv : W64) (masked : Bool) (now : Nat) : Fibre :=
  let f := { f.trapRegs t at_ masked with wait := .none, late := none, age := now }
  if mayEnter t.cause && uhv != 0 && !masked then
    { f with pc := uhv.setWidth 48, ready := now + 1 }
  else { f with pc := at_, trapped := true, units := t.units }

/-- Whether a trap of a fibre goes to the user handler: the monitor's never does (R404). -/
def Dev.enters (d : Dev) (f : Fibre) (cause : Nat) : Bool :=
  match d.warp? f.core f.slot with
  | none => false
  | some w =>
    match d.group? w.gid with
    | none => false
    | some g => mayEnter cause && g.uhv != 0 && !w.masked && !w.mon

/-- UHV and mask of a fibre's group and warp; the monitor has no user handler (R404). -/
def Dev.trapCtx (d : Dev) (f : Fibre) : W64 × Bool :=
  match d.warp? f.core f.slot with
  | none => (0, false)
  | some w => (if w.mon then 0 else ((d.group? w.gid).map Group.uhv).getD 0, w.masked)

/-- A cohort number no other fibre has: one per issue and next PC (R274). 0 is no cohort. -/
def cohortAt (free : Nat) (pc : Addr48) (kind : Nat) : Nat := (free * 8 + kind + 1) * 2 ^ 48 + pc.toNat

/-- Divides the cohorts of the fibres that satisfy `p`, which have been given new PCs outside an issue: by those PCs and, where only those
fibres have trapped, `apart` from their other members; saved members divide with them (R274). -/
def Dev.divide (d : Dev) (p : Fibre → Bool) (apart : Bool) : Dev :=
  let cs := (dedup ((d.fibres.filter p).map Fibre.cohort)).filter (· != 0)
  let part (other : Bool) (f : Fibre) : Fibre := match cs.findIdx? (· == f.cohort) with
    | some i => { f with cohort := cohortAt (d.free + 2 * i + if apart && other then 1 else 0) f.pc 5 }
    | none => f
  { d with
    fibres := d.fibres.map fun f => part (!p f) f
    saved := d.saved.map fun s => { s with fibres := s.fibres.map (part true) }
    free := d.free + 2 * cs.length }

/-- What a fibre that is to take a trap at an instruction reports: its earliest fault. Where a page fault of an earlier access is not
yet known, that one, and what later instructions have outstanding is discarded (R244). -/
def Fibre.earliest (f : Fibre) (t : Trap) (at_ : Addr48) : Fibre × Trap × Addr48 :=
  match f.late with
  | some x => ({ f with outst := [], infl := [] }, x.2, x.1)
  | none => (f, t, at_)

/-- TAKING A TRAP: delivers a trap at instruction address `at_ f` in every fibre for which `t` gives one (R246, R249); `join` puts each
into a cohort. -/
def Dev.trapEach (d : Dev) (t : Fibre → Option Trap) (at_ : Fibre → Addr48) (join : Fibre → Fibre) : Dev :=
  let toPath (f : Fibre) : Bool := match t f with | some x => !d.enters f (f.earliest x (at_ f)).2.1.cause | none => false
  let gids := dedup ((d.fibres.filter toPath).filterMap fun f => (d.warp? f.core f.slot).map Warp.gid)
  let fs := d.fibres.map fun f =>
    match t f with
    | none => f
    | some x =>
      let e := f.earliest x (at_ f)
      join (e.1.takeTrap e.2.1 e.2.2 (d.trapCtx f).1 (d.trapCtx f).2 d.cycle)
  { d with
    fibres := fs
    groups := updWhere (fun g => gids.contains g.gid && g.stat == .running)
      (fun g => { g with stat := .faulting }) d.groups }

/-- Traps that come about outside an issue: the cohorts of the fibres that take them divide (R274). -/
def Dev.deliver (d : Dev) (t : Fibre → Option Trap) (at_ : Fibre → Addr48) : Dev :=
  let hit := (d.fibres.filter fun f => (t f).isSome).map fun f => (f.core, f.slot, f.lane)
  (d.trapEach t at_ id).divide (fun f => hit.contains (f.core, f.slot, f.lane)) true

/-- Traps of the batch being issued, each at its fibre's PC: those of its members that go to one PC form a cohort (R274). -/
def Dev.trapBatch (d : Dev) (t : Fibre → Option Trap) : Dev :=
  { (d.trapEach t Fibre.pc fun f => { f with cohort := cohortAt d.free f.pc 1 }) with free := d.free + 1 }

/-- A trap in every active fibre of the batch. -/
def Dev.trapAll (d : Dev) (t : Trap) : Dev := d.trapBatch fun f => if d.cur.has f then some t else none

/-- A trap of the active fibres for which `t` gives one; the others stay where they are. -/
def Dev.trapSome (d : Dev) (t : Fibre → Option Trap) : Dev := d.trapBatch fun f => if d.cur.has f then t f else none

/-- ILLEGAL for the batch's word (R73). -/
def illTrap (w : W32) (r : Reject) : Trap := { cause := 1, ill := some (w.setWidth 64, ilfOf w r) }

/-- Cause codes of R243 by name. -/
def tAlign (a : W64) : Trap := { cause := 6, addr := a }
/-- GRANT. -/
def tGrant (a : W64) : Trap := { cause := 14, addr := a }
/-- BADTOKEN. -/
def tBad (a : W64) : Trap := { cause := 13, addr := a }
/-- PARTIALWARP. -/
def tPartial : Trap := { cause := 3 }
/-- SHUTTER. -/
def tShutter (acc : Nat) (a : W64) : Trap := { cause := 4, acc := acc, addr := a }
/-- STALLSHORT. -/
def tShort : Trap := { cause := 2 }

/-! ## Going on -/

/-- Extra issue slots of STL (R55). -/
def stall (stl : BitVec 2) : Nat := 2 ^ stl.toNat - 1

/-- One level of a loop-end step (R144): the level, and whether it loops back. -/
def LoopLevel.finish (l : LoopLevel) (a : Addr48) : LoopLevel × Bool :=
  if l.count != 0 && l.last == a then ({ l with count := l.count - 1 }, l.count - 1 != 0) else (l, false)

/-- The loop-end step after the instruction at `a` (R144). -/
def Fibre.loopEnd (f : Fibre) (a : Addr48) : Fibre :=
  let r2 := f.lp2.finish a
  if r2.2 then { f with lp2 := r2.1, pc := r2.1.start }
  else
    let r1 := f.lp1.finish a
    if r1.2 then { f with lp2 := r2.1, lp1 := r1.1, pc := r1.1.start }
    else
      let r0 := f.lp0.finish a
      if r0.2 then { f with lp2 := r2.1, lp1 := r1.1, lp0 := r0.1, pc := r0.1.start }
      else { f with lp2 := r2.1, lp1 := r1.1, lp0 := r0.1 }

/-- A fibre that has completed its instruction sequentially: PC + 4, then the loop-end step (R131, R144). -/
def Fibre.goOn (f : Fibre) : Fibre := { f with pc := f.pc + 4 }.loopEnd f.pc

/-- An instruction of a fibre has issued: where its next one may issue (R67), `lane` in slots of the lane pipe, of `pass` cycles
(R71). -/
def Fibre.counted (f : Fibre) (now pass : Nat) (lane : Bool) (stl : Nat) : Fibre :=
  let s := f.slotNow now pass
  { f with ready := now + (if lane then pass else 1) * (1 + stl)
           pace := { f.pace with slot := s, at_ := now, due := s + 1 + stl, lane := lane } }

/-- What a completed instruction leaves besides its effect: the next issue slot (R67), the age (R21), the cohort (R274). -/
def Fibre.issued (f : Fibre) (now pass : Nat) (lane : Bool) (stl free : Nat) : Fibre :=
  { f with age := now, cohort := cohortAt free f.pc 0 }.counted now pass lane stl

/-- The active fibres begin to wait in their instruction: its stall count holds for the next one all the same (R67). -/
def Dev.countActive (d : Dev) (stl : BitVec 2) (lane : Bool) : Dev :=
  d.updActive fun f => f.counted d.cycle (d.pass d.cur.core) lane (stall stl)

/-- A region-closing instruction has completed at `a` (R253). -/
def Fibre.close (f : Fibre) (a : Addr48) : Fibre := { f with repc := sext48 (a + 4), rec_ := f.rec_ + 1 }

/-- The active fibres that did not trap continue at PC + 4 (R131, R144); `lane`: after a lane instruction. -/
def Dev.advance (d : Dev) (stl : BitVec 2) (lane : Bool) : Dev :=
  { (d.updActive fun f => if f.trapped then f else f.goOn.issued d.cycle (d.pass d.cur.core) lane (stall stl) d.free) with
    free := d.free + 1 }

/-- After a lane instruction. -/
def Dev.advLane (d : Dev) (stl : BitVec 2) : Dev := d.advance stl true

/-- After a uniform instruction (R71: its pipe runs at one cycle per slot). -/
def Dev.advUni (d : Dev) (stl : BitVec 2) : Dev := d.advance stl false

/-- After a region-closing uniform instruction (R253). -/
def Dev.advClose (d : Dev) (stl : BitVec 2) : Dev := (d.updActive fun f => f.close f.pc).advUni stl

/-- The active fibres for which `dest` names a target transfer there; the others go on at PC + 4. -/
def Dev.transfer (d : Dev) (stl : BitVec 2) (lane : Bool) (dest : Fibre → Option Addr48) : Dev :=
  { (d.updActive fun f =>
      if f.trapped then f
      else match dest f with
        | some a => { f with pc := a }.issued d.cycle (d.pass d.cur.core) lane (stall stl) d.free
        | none => f.goOn.issued d.cycle (d.pass d.cur.core) lane (stall stl) d.free) with free := d.free + 1 }

/-- The batch's instruction does not issue after all: its pipe may still issue another batch in this cycle, and no opportunity of its
slot has passed (R22). -/
def Dev.unissue (d : Dev) : Dev :=
  let back (f : Fibre) : Fibre := { f with pace := { f.pace with passed := f.pace.passed - 1 } }
  { (d.updFibres (fun f => f.core == d.cur.core && d.cur.rivals.contains (f.slot, f.lane)) back) with
    pipe := d.cur.core * 4 + d.cur.anchor % 4 }

/-- The batch's instruction cannot proceed: its fibres wait at their PC and are ready again in the next cycle. -/
def Dev.hold (d : Dev) : Dev := (d.updActive fun f => { f with wait := .held }).unissue

/-- The batch without the members that `p` drops. -/
def Dev.narrow (d : Dev) (p : Fibre → Bool) : Dev :=
  let keep (m : Nat × Nat) : Bool := match d.fibre? d.cur.core m.1 m.2 with | some f => p f | none => false
  { d with cur := { d.cur with members := d.cur.members.filter keep } }

/-- Traps of some members, by position. -/
def Dev.trapsOf (d : Dev) (t : Fibre → Option Trap) : List ((Nat × Nat) × Trap) :=
  d.active.filterMap fun f => (t f).map fun x => ((f.slot, f.lane), x)

/-- Delivers traps listed by position in the batch's core, each at its fibre's PC. -/
def Dev.deliverAt (d : Dev) (ts : List ((Nat × Nat) × Trap)) : Dev :=
  d.trapBatch fun f => if f.core == d.cur.core then (ts.find? fun p => p.1 == (f.slot, f.lane)).map Prod.snd else none

/-- The fibres for which `t` gives a trap take it; then the others complete the instruction by `body` (R246). -/
def Dev.split (d : Dev) (t : Fibre → Option Trap) (body : Dev → Dev) : Dev :=
  let ts := d.trapsOf t
  if ts.isEmpty then body d
  else
    let keep := d.cur.members.filter fun m => ts.all fun p => p.1 != m
    let d1 := d.deliverAt ts
    if keep.isEmpty then d1 else { body { d1 with cur := { d1.cur with members := keep } } with cur := d.cur }

/-- Continues the listed fibres at an address, released together as one cohort (R274); stall counts of what they issued hold (R67). -/
def Fibre.release (f : Fibre) (pc : Addr48) (now mark : Nat) : Fibre :=
  { f with pc := pc, wait := .none, age := now, ready := max f.ready (now + 1), cohort := mark }

/-- A fibre continues after the instruction it waited at (R131, R144); fibres released together that continue at one PC form a
cohort, and cohorts divide by next PC (R274). -/
def Fibre.after (f : Fibre) (now free : Nat) : Fibre :=
  { f.goOn with wait := .none, age := now, ready := max f.ready (now + 1), cohort := cohortAt free f.goOn.pc 2 }

end Sys2Proof.Machine
end

