-- ==== Sys2Proof/Machine/Operands.lean ====
section
/-! DEFINITION. Operands: register fields and their HV and KB forms (R56, R58, R59), sub-elements (R26, R57), immediates
(R60), which registers an instruction names, and the checks made before it has any effect (R14, R70, R72). -/

namespace Sys2Proof.Machine

/-! ## Fields -/

/-- How an instruction uses a register. -/
inductive Mode where
  | r | w | rw
  /-- MOVK merges into the register as it stands after every earlier write: no short read, but a wait (R184). -/
  | merge
  deriving DecidableEq, Repr

/-- A register named by a field: the lowest bit and the width of the field. -/
structure Use where
  reg : Reg
  lo : Nat
  wid : Nat
  mode : Mode
  deriving DecidableEq, Repr

/-- A lane register number: HV times 64 plus the field (R56). -/
def laneNo (hv : BitVec 1) (f : BitVec 6) : Nat := 64 * hv.toNat + f.toNat

/-- A lane-register field. -/
def Use.lane (hv : BitVec 1) (f : BitVec 6) (lo : Nat) (m : Mode) : Use := ⟨.v (laneNo hv f), lo, 6, m⟩

/-- The 7-bit lane-register field of SRD and SWR (R59). -/
def Use.lane7 (f : BitVec 7) (m : Mode) : Use := ⟨.v f.toNat, 14, 7, m⟩

/-- A uniform-register field. -/
def Use.uni (f : BitVec 6) (lo : Nat) (m : Mode) : Use := ⟨.k f.toNat, lo, 6, m⟩

/-- A mask-register field. -/
def Use.mask (f : BitVec 3) (lo : Nat) (m : Mode) : Use := ⟨.m f.toNat, lo, 3, m⟩

/-- The B operand: a lane register, or with KB = 1 a uniform one (R58). -/
def opB (kb hv : BitVec 1) (f : BitVec 6) : Use := if kb == 1 then .uni f 4 .r else .lane hv f 4 .r

/-- Whether the value of the register is taken. -/
def Use.reads (u : Use) : Bool := u.mode == .r || u.mode == .rw

/-- Whether an outstanding variable-latency write of the register makes the reader wait (R68). -/
def Use.waits (u : Use) : Bool := u.reads || u.mode == .merge

/-- The registers an instruction names, in the order of their fields from the highest bit down (R58, R59, R61, R66). -/
def usesOf : Instr → List Use
  | .add o => [.lane o.hv o.vd 16 .w, .lane o.hv o.va 10 .r, opB o.kb o.hv o.vb]
  | .sub o => [.lane o.hv o.vd 16 .w, .lane o.hv o.va 10 .r, opB o.kb o.hv o.vb]
  | .mul o => [.lane o.hv o.vd 16 .w, .lane o.hv o.va 10 .r, opB o.kb o.hv o.vb]
  | .mulhiI o => [.lane o.hv o.vd 16 .w, .lane o.hv o.va 10 .r, opB o.kb o.hv o.vb]
  | .mulhiN o => [.lane o.hv o.vd 16 .w, .lane o.hv o.va 10 .r, opB o.kb o.hv o.vb]
  | .mad o => [.lane o.hv o.vd 16 .rw, .lane o.hv o.va 10 .r, opB o.kb o.hv o.vb]
  | .and o => [.lane o.hv o.vd 16 .w, .lane o.hv o.va 10 .r, opB o.kb o.hv o.vb]
  | .or o => [.lane o.hv o.vd 16 .w, .lane o.hv o.va 10 .r, opB o.kb o.hv o.vb]
  | .xor o => [.lane o.hv o.vd 16 .w, .lane o.hv o.va 10 .r, opB o.kb o.hv o.vb]
  | .andn o => [.lane o.hv o.vd 16 .w, .lane o.hv o.va 10 .r, opB o.kb o.hv o.vb]
  | .shl o => [.lane o.hv o.vd 16 .w, .lane o.hv o.va 10 .r, opB o.kb o.hv o.vb]
  | .shr o => [.lane o.hv o.vd 16 .w, .lane o.hv o.va 10 .r, opB o.kb o.hv o.vb]
  | .sar o => [.lane o.hv o.vd 16 .w, .lane o.hv o.va 10 .r, opB o.kb o.hv o.vb]
  | .rot o => [.lane o.hv o.vd 16 .w, .lane o.hv o.va 10 .r, opB o.kb o.hv o.vb]
  | .minI o => [.lane o.hv o.vd 16 .w, .lane o.hv o.va 10 .r, opB o.kb o.hv o.vb]
  | .minN o => [.lane o.hv o.vd 16 .w, .lane o.hv o.va 10 .r, opB o.kb o.hv o.vb]
  | .maxI o => [.lane o.hv o.vd 16 .w, .lane o.hv o.va 10 .r, opB o.kb o.hv o.vb]
  | .maxN o => [.lane o.hv o.vd 16 .w, .lane o.hv o.va 10 .r, opB o.kb o.hv o.vb]
  | .addsatI o => [.lane o.hv o.vd 16 .w, .lane o.hv o.va 10 .r, opB o.kb o.hv o.vb]
  | .addsatN o => [.lane o.hv o.vd 16 .w, .lane o.hv o.va 10 .r, opB o.kb o.hv o.vb]
  | .subsatI o => [.lane o.hv o.vd 16 .w, .lane o.hv o.va 10 .r, opB o.kb o.hv o.vb]
  | .subsatN o => [.lane o.hv o.vd 16 .w, .lane o.hv o.va 10 .r, opB o.kb o.hv o.vb]
  | .avgI o => [.lane o.hv o.vd 16 .w, .lane o.hv o.va 10 .r, opB o.kb o.hv o.vb]
  | .avgN o => [.lane o.hv o.vd 16 .w, .lane o.hv o.va 10 .r, opB o.kb o.hv o.vb]
  | .sadI o => [.lane o.hv o.vd 16 .rw, .lane o.hv o.va 10 .r, opB o.kb o.hv o.vb]
  | .sadN o => [.lane o.hv o.vd 16 .rw, .lane o.hv o.va 10 .r, opB o.kb o.hv o.vb]
  | .dot4I o => [.lane o.hv o.vd 16 .rw, .lane o.hv o.va 10 .r, opB o.kb o.hv o.vb]
  | .dot4N o => [.lane o.hv o.vd 16 .rw, .lane o.hv o.va 10 .r, opB o.kb o.hv o.vb]
  | .cmpI o => [.mask o.md 16 .w, .lane o.hv o.va 10 .r, opB o.kb o.hv o.vb]
  | .cmpN o => [.mask o.md 16 .w, .lane o.hv o.va 10 .r, opB o.kb o.hv o.vb]
  | .sel o => [.lane o.hv o.vd 16 .rw, .lane o.hv o.va 10 .r, .mask o.ms 7 .r]
  | .movReg o => [.lane o.hv o.vd 16 .w, .lane o.hv o.va 10 .r]
  | .movUniform o => [.lane o.hv o.vd 16 .w, .uni o.ku 4 .r]
  | .neg o => [.lane o.hv o.vd 16 .w, .lane o.hv o.va 10 .r]
  | .abs o => [.lane o.hv o.vd 16 .w, .lane o.hv o.va 10 .r]
  | .not o => [.lane o.hv o.vd 16 .w, .lane o.hv o.va 10 .r]
  | .popc o => [.lane o.hv o.vd 16 .w, .lane o.hv o.va 10 .r]
  | .clz o => [.lane o.hv o.vd 16 .w, .lane o.hv o.va 10 .r]
  | .ctz o => [.lane o.hv o.vd 16 .w, .lane o.hv o.va 10 .r]
  | .brev o => [.lane o.hv o.vd 16 .w, .lane o.hv o.va 10 .r]
  | .bfx o => [.lane o.hv o.vd 16 .w, .lane o.hv o.va 10 .r, opB o.kb o.hv o.vb]
  | .bfi o => [.lane o.hv o.vd 16 .rw, .lane o.hv o.va 10 .r, opB o.kb o.hv o.vb]
  | .permb o => [.lane o.hv o.vd 16 .w, .lane o.hv o.va 10 .r, opB o.kb o.hv o.vb]
  | .lea o => [.lane o.hv o.vd 16 .w, .lane o.hv o.va 10 .r, opB o.kb o.hv o.vb]
  | .addi o => [.lane 0 o.vd 16 .w, .lane 0 o.va 10 .r]
  | .shli o => [.lane 0 o.vd 16 .w, .lane 0 o.va 10 .r]
  | .shri o => [.lane 0 o.vd 16 .w, .lane 0 o.va 10 .r]
  | .sari o => [.lane 0 o.vd 16 .w, .lane 0 o.va 10 .r]
  | .roti o => [.lane 0 o.vd 16 .w, .lane 0 o.va 10 .r]
  | .movi o => [.lane 0 o.vd 16 .w]
  | .fadd o => [.lane o.hv o.vd 16 .w, .lane o.hv o.va 10 .r, opB o.kb o.hv o.vb]
  | .fsub o => [.lane o.hv o.vd 16 .w, .lane o.hv o.va 10 .r, opB o.kb o.hv o.vb]
  | .fmul o => [.lane o.hv o.vd 16 .w, .lane o.hv o.va 10 .r, opB o.kb o.hv o.vb]
  | .fma o => [.lane o.hv o.vd 16 .rw, .lane o.hv o.va 10 .r, opB o.kb o.hv o.vb]
  | .fms o => [.lane o.hv o.vd 16 .rw, .lane o.hv o.va 10 .r, opB o.kb o.hv o.vb]
  | .fmin o => [.lane o.hv o.vd 16 .w, .lane o.hv o.va 10 .r, opB o.kb o.hv o.vb]
  | .fmax o => [.lane o.hv o.vd 16 .w, .lane o.hv o.va 10 .r, opB o.kb o.hv o.vb]
  | .fcmp o => [.mask o.md 16 .w, .lane o.hv o.va 10 .r, opB o.kb o.hv o.vb]
  | .fscale o => [.lane o.hv o.vd 16 .w, .lane o.hv o.va 10 .r, opB o.kb o.hv o.vb]
  | .fabs o => [.lane o.hv o.vd 16 .w, .lane o.hv o.va 10 .r]
  | .fneg o => [.lane o.hv o.vd 16 .w, .lane o.hv o.va 10 .r]
  | .fclass o => [.lane o.hv o.vd 16 .w, .lane o.hv o.va 10 .r]
  | .frnd o => [.lane o.hv o.vd 16 .w, .lane o.hv o.va 10 .r]
  | .frndRn o => [.lane o.hv o.vd 16 .w, .lane o.hv o.va 10 .r]
  | .frndRz o => [.lane o.hv o.vd 16 .w, .lane o.hv o.va 10 .r]
  | .frndRu o => [.lane o.hv o.vd 16 .w, .lane o.hv o.va 10 .r]
  | .frndRd o => [.lane o.hv o.vd 16 .w, .lane o.hv o.va 10 .r]
  | .rcp o => [.lane o.hv o.vd 16 .w, .lane o.hv o.va 10 .r]
  | .rsq o => [.lane o.hv o.vd 16 .w, .lane o.hv o.va 10 .r]
  | .sqrt o => [.lane o.hv o.vd 16 .w, .lane o.hv o.va 10 .r]
  | .ex2 o => [.lane o.hv o.vd 16 .w, .lane o.hv o.va 10 .r]
  | .lg2 o => [.lane o.hv o.vd 16 .w, .lane o.hv o.va 10 .r]
  | .sinp o => [.lane o.hv o.vd 16 .w, .lane o.hv o.va 10 .r]
  | .cosp o => [.lane o.hv o.vd 16 .w, .lane o.hv o.va 10 .r]
  | .tanh o => [.lane o.hv o.vd 16 .w, .lane o.hv o.va 10 .r]
  | .cvt o => [.lane 0 o.vd 16 .w, .lane 0 o.va 10 .r]
  | .cvtnb o => [.lane 0 o.vd 16 .w, .lane 0 o.va 10 .r]
  | .cvtnbx o => [.lane 0 o.vd 16 .w, .lane 0 o.va 10 .r]
  | .had o => [.lane 0 o.vd 16 .w, .lane 0 o.va 10 .r]
  | .pack o => [.lane o.hv o.vd 16 .w, .lane o.hv o.va 10 .r, opB o.kb o.hv o.vb]
  | .unpack o => [.lane o.hv o.vd 16 .w, .lane o.hv o.va 10 .r, opB o.kb o.hv o.vb]
  | .shflIdx o => [.lane o.hv o.vd 16 .w, .lane o.hv o.va 10 .r, opB o.kb o.hv o.vb]
  | .shflXor o => [.lane o.hv o.vd 16 .w, .lane o.hv o.va 10 .r, opB o.kb o.hv o.vb]
  | .shflUp o => [.lane o.hv o.vd 16 .w, .lane o.hv o.va 10 .r, opB o.kb o.hv o.vb]
  | .shflDn o => [.lane o.hv o.vd 16 .w, .lane o.hv o.va 10 .r, opB o.kb o.hv o.vb]
  | .bcast o => [.lane 0 o.vd 16 .w, .lane 0 o.va 10 .r]
  | .shflXorConst o => [.lane 0 o.vd 16 .w, .lane 0 o.va 10 .r]
  | .shflUpConst o => [.lane 0 o.vd 16 .w, .lane 0 o.va 10 .r]
  | .shflDnConst o => [.lane 0 o.vd 16 .w, .lane 0 o.va 10 .r]
  | .qxch o => [.lane 0 o.vd 16 .w, .lane 0 o.va 10 .r]
  | .vote o => [.lane o.hv o.vd 16 .w, .lane o.hv o.va 10 .r]
  | .matchLanes o => [.lane o.hv o.vd 16 .w, .lane o.hv o.va 10 .r]
  | .wred o => [.lane o.hv o.vd 16 .w, .lane o.hv o.va 10 .r]
  | .wscan o => [.lane o.hv o.vd 16 .w, .lane o.hv o.va 10 .r]
  | .br o => [.lane o.hv o.va 16 .r]
  | .jmp _ => []
  | .ji o => [.lane o.hv o.va 10 .r]
  | .call o => [.lane 0 o.vd 16 .w]
  | .calli o => [.lane o.hv o.vd 16 .w, .lane o.hv o.va 10 .r]
  | .ret o => [.lane o.hv o.va 10 .r]
  | .fork o => (List.range (o.cnt.toNat + 1)).map fun i => .lane 0 (o.va + BitVec.ofNat 6 i) 16 .r
  | .rejoin o => [opB o.kb o.hv o.vb]
  | .loopImm _ => []
  | .loopUniform o => [.uni o.kc 12 .r]
  | .nop _ => []
  | .yield _ => []
  | .endFibre _ => []
  | .setperfL o => [.lane o.hv o.va 10 .r]
  | .ldG o => [.lane o.hv o.vd 16 .w, .lane o.hv o.va 10 .r, .mask o.msk 7 .r]
  | .ldS o => [.lane o.hv o.vd 16 .w, .lane o.hv o.va 10 .r, .mask o.msk 7 .r]
  | .ldA o => [.lane o.hv o.vd 16 .w, .lane o.hv o.va 10 .r, .mask o.msk 7 .r]
  | .ldO o => [.lane o.hv o.vd 16 .w, .lane o.hv o.va 10 .r, .mask o.msk 7 .r]
  | .ldW o => [.lane o.hv o.vd 16 .w, .lane o.hv o.va 10 .r, .mask o.msk 7 .r]
  | .stG o => [.lane o.hv o.vd 16 .r, .lane o.hv o.va 10 .r, .mask o.msk 7 .r]
  | .stS o => [.lane o.hv o.vd 16 .r, .lane o.hv o.va 10 .r, .mask o.msk 7 .r]
  | .stA o => [.lane o.hv o.vd 16 .r, .lane o.hv o.va 10 .r, .mask o.msk 7 .r]
  | .stO o => [.lane o.hv o.vd 16 .r, .lane o.hv o.va 10 .r, .mask o.msk 7 .r]
  | .stW o => [.lane o.hv o.vd 16 .r, .lane o.hv o.va 10 .r, .mask o.msk 7 .r]
  | .ldStrong o => [.lane o.hv o.vd 16 .w, .lane o.hv o.va 10 .r, .mask o.msk 7 .r]
  | .stStrong o => [.lane o.hv o.vd 16 .r, .lane o.hv o.va 10 .r, .mask o.msk 7 .r]
  | .atomG32 o => [.lane o.hv o.vd 16 .rw, .lane o.hv o.va 10 .r]
  | .atomG64 o => [.lane o.hv o.vd 16 .rw, .lane o.hv o.va 10 .r] ++ (if o.aop == 9 then [.lane o.hv (o.vd + 1) 16 .r] else [])
  | .atomS32 o => [.lane o.hv o.vd 16 .rw, .lane o.hv o.va 10 .r]
  | .atomS64 o => [.lane o.hv o.vd 16 .rw, .lane o.hv o.va 10 .r] ++ (if o.aop == 9 then [.lane o.hv (o.vd + 1) 16 .r] else [])
  | .atomW32 o => [.lane o.hv o.vd 16 .rw, .lane o.hv o.va 10 .r]
  | .atomW64 o => [.lane o.hv o.vd 16 .rw, .lane o.hv o.va 10 .r] ++ (if o.aop == 9 then [.lane o.hv (o.vd + 1) 16 .r] else [])
  | .fence _ => []
  | .phase _ => []
  | .pref o => [.lane o.hv o.va 10 .r, .mask o.msk 7 .r]
  | .kvldRead o => [.lane o.hv o.vd 16 .w, .lane o.hv (o.vd + 1) 16 .w, .lane o.hv o.va 10 .r, opB o.kb o.hv o.vb]
  | .kvldOpen o => [.lane o.hv o.vd 16 .w, .lane o.hv (o.vd + 1) 16 .w, .lane o.hv o.va 10 .r, opB o.kb o.hv o.vb]
  | .kvldClose o => [.lane o.hv o.vd 16 .w, .lane o.hv (o.vd + 1) 16 .w, .lane o.hv o.va 10 .r, opB o.kb o.hv o.vb]
  | .kvappAppend o => [.lane o.hv o.vd 16 .w, .lane o.hv o.va 10 .r, .lane o.hv (o.va + 1) 10 .r, opB o.kb o.hv o.vb]
  | .kvappUnref o => [.lane o.hv o.vd 16 .w, .lane o.hv o.va 10 .r, .lane o.hv (o.va + 1) 10 .r, opB o.kb o.hv o.vb]
  | .kvappPagein o => [.lane o.hv o.vd 16 .w, .lane o.hv o.va 10 .r, .lane o.hv (o.va + 1) 10 .r, opB o.kb o.hv o.vb]
  | .kvappCommit o => [.lane o.hv o.vd 16 .w, .lane o.hv o.va 10 .r, .lane o.hv (o.va + 1) 10 .r, opB o.kb o.hv o.vb]
  | .kvappRetain o => [.lane o.hv o.vd 16 .w, .lane o.hv o.va 10 .r, .lane o.hv (o.va + 1) 10 .r, opB o.kb o.hv o.vb]
  | .illegalWord _ => []
  | .kaddImm o => [.uni o.kd 16 .w, .uni o.ka 10 .r]
  | .ksubImm o => [.uni o.kd 16 .w, .uni o.ka 10 .r]
  | .kmulImm o => [.uni o.kd 16 .w, .uni o.ka 10 .r]
  | .kandImm o => [.uni o.kd 16 .w, .uni o.ka 10 .r]
  | .korImm o => [.uni o.kd 16 .w, .uni o.ka 10 .r]
  | .kxorImm o => [.uni o.kd 16 .w, .uni o.ka 10 .r]
  | .kshlImm o => [.uni o.kd 16 .w, .uni o.ka 10 .r]
  | .kshrImm o => [.uni o.kd 16 .w, .uni o.ka 10 .r]
  | .kaddReg o => [.uni o.kd 16 .w, .uni o.ka 10 .r, .uni o.kb 4 .r]
  | .ksubReg o => [.uni o.kd 16 .w, .uni o.ka 10 .r, .uni o.kb 4 .r]
  | .kmulReg o => [.uni o.kd 16 .w, .uni o.ka 10 .r, .uni o.kb 4 .r]
  | .kandReg o => [.uni o.kd 16 .w, .uni o.ka 10 .r, .uni o.kb 4 .r]
  | .korReg o => [.uni o.kd 16 .w, .uni o.ka 10 .r, .uni o.kb 4 .r]
  | .kxorReg o => [.uni o.kd 16 .w, .uni o.ka 10 .r, .uni o.kb 4 .r]
  | .kshlReg o => [.uni o.kd 16 .w, .uni o.ka 10 .r, .uni o.kb 4 .r]
  | .kshrReg o => [.uni o.kd 16 .w, .uni o.ka 10 .r, .uni o.kb 4 .r]
  | .kcmp o => [.uni o.kd 16 .w, .uni o.ka 10 .r, .uni o.kb 4 .r]
  | .ksel o => [.uni o.kd 16 .rw, .uni o.ka 10 .r, .uni o.kb 4 .r]
  | .kmov o => [.uni o.kd 16 .w, .uni o.ka 10 .r]
  | .movkH0 o => [.uni o.kd 16 .merge]
  | .movkH1 o => [.uni o.kd 16 .merge]
  | .movkH2 o => [.uni o.kd 16 .merge]
  | .movkH3 o => [.uni o.kd 16 .merge]
  | .kldG o => [.uni o.kd 16 .w, .uni o.ka 10 .r]
  | .kldS o => [.uni o.kd 16 .w, .uni o.ka 10 .r]
  | .kstG o => [.uni o.kd 16 .r, .uni o.ka 10 .r]
  | .kstS o => [.uni o.kd 16 .r, .uni o.ka 10 .r]
  | .kbr o => [.uni o.ka 16 .r]
  | .kjmp _ => []
  | .kcall o => [.uni o.vd 16 .w]
  | .kret o => [.uni o.ka 10 .r]
  | .bar _ => []
  | .tbar _ => []
  | .waitany o => (List.range (o.n.toNat + 1)).map fun i => .uni (o.ka + BitVec.ofNat 6 i) 10 .r
  | .arm o => [.uni o.ka 10 .r]
  | .disarm o => [.uni o.ka 10 .r]
  | .post o => [.uni o.kd 16 .r, .uni o.ka 10 .r]
  | .evset o => [.uni o.ka 10 .r]
  | .evclr o => [.uni o.ka 10 .r]
  | .cpyk o => [.uni o.ka 10 .r]
  | .handoff o => [.uni o.kd 16 .r, .uni o.ka 10 .r]
  | .qpull o => [.uni o.kd 16 .w, .uni o.ka 10 .r]
  | .enq o => [.uni o.kd 16 .r, .uni o.ka 10 .r]
  | .kick o => [.uni o.ka 10 .r]
  | .pres o => [.uni o.ka 10 .r]
  | .prel o => [.uni o.ka 10 .r]
  | .pscl o => [.uni o.kd 16 .w, .uni o.ka 10 .r]
  | .upret _ => []
  | .upfail o => [.uni o.ka 10 .r]
  | .recur o => [.uni o.ka 10 .r]
  | .rchild o => [.uni o.ka 10 .r]
  | .rbase _ => []
  | .rres o => [.uni o.ka 10 .r]
  | .rarg o => [.uni o.kd 16 .w, .uni o.ka 10 .r]
  | .srd o => [if o.dk == 1 then .uni (o.reg.setWidth 6) 14 .w else .lane7 o.reg .w]
  | .swr o => [if o.dk == 1 then .uni (o.reg.setWidth 6) 14 .r else .lane7 o.reg .r]
  | .trap _ => []
  | .tret _ => []
  | .tmask _ => []
  | .tunmask _ => []
  | .rgn _ => []
  | .setperf o => [.uni o.ka 10 .r]
  | .bkpt _ => []
  | .halt _ => []
  | .rfetch _ => []
  | .xbfe _ => []
  | .xbfeS _ => []
  | .swait _ => []
  | .disp _ => []
  | .variableLatencyArrival => []
  | .yieldWaitEnd => []
  | .rejoinRelease => []
  | .rejoindl => []
  | .eventDelivery => []
  | .mailboxArrival => []
  | .faultPath => []
  | .pageRequestIssue => []
  | .stage2RequestRecord => []
  | .faultRecord => []
  | .faultRingPoll => []
  | .prgResponseSuccess => []
  | .prgResponseInvalidRequest => []
  | .prgResponseFailure => []
  | .s2replySuccess => []
  | .s2replyInvalidRequest => []
  | .s2replyResponseFailure => []
  | .freplyResume => []
  | .freplyTerminate => []
  | .translationWalk => []
  | .atsInvalidationRequest => []
  | .s2invRange => []
  | .s2invAll => []
  | .invalidationComplete => []
  | .maskBudgetExpiry => []
  | .preemptionRequest => []
  | .groupSave => []
  | .groupRestore => []
  | .partialEviction => []
  | .energyQuotaExhausted => []
  | .energyPeriodStart => []
  | .walkDispatch => []
  | .walkDraw => []
  | .walkStepAdmit => []
  | .upcallDelivery => []
  | .tileProduct => []
  | .walkAbortRemote => []
  | .walkGraceExpiry => []
  | .routineStart => []
  | .copyElement => []
  | .atomicEngineApply => []
  | .gopenWrite => []
  | .gcloseWrite => []
  | .grantLapse => []
  | .streamRelease => []
  | .kickWrite => []
  | .packetFetch => []
  | .fetcherRetry => []
  | .launch => []
  | .walk => []
  | .recurPacket => []
  | .event => []
  | .groupPlacement => []
  | .passedOverTimeout => []
  | .completionWordWrite => []
  | .mappingTick => []
  | .binCountdownExpiry => []
  | .ctxcmdCreate => []
  | .ctxcmdReread => []
  | .ctxcmdDestroy => []
  | .contextDestroyDone => []
  | .s2rootWrite => []
  | .capWrite => []
  | .floorWrite => []
  | .registerWrite => []
  | .powerEvaluation => []
  | .hostWrite => []
  | .peerAccess => []
  | .linkUp => []
  | .linkDown => []
  | .temperatureThreshold => []
  | .uncorrectedError => []
  | .coreSignalWrite => []
  | .swaitWake => []
  | .attest => []
  | .cert => []
  | .bootclr => []
  | .allot => []
  | .levread => []
  | .update => []
  | .stopCmd => []
  | .goCmd => []
  | .rdmem => []
  | .wrmem => []
  | .rdsave => []
  | .breakCmd => []
  | .coldReset => []
  | .warmReset => []
  | .queueReset => []
  | .priReenable => []
  | .nodeBinConfiguration => []
  | .storeBecomesAvailable => []

/-- Whether an instruction names a delivery register (R18). -/
def namesDelivery (i : Instr) : Bool :=
  (usesOf i).any fun u => match u.reg with | .k n => decide (55 ≤ n) | _ => false

/-! ## The checks before an instruction (R14, R70, R72) -/

/-- The first register beyond a fibre's window (R14), as the failing field it reports. -/
def windowReject (us : List Use) (f : Fibre) : Option Reject :=
  (us.find? fun u => match u.reg with | .v n => decide (f.win.length ≤ n) | _ => false).map fun u => ⟨5, u.lo, u.wid⟩

/-- Whether a fibre would make a short read (R69). -/
def Dev.isShort (d : Dev) (us : List Use) (f : Fibre) : Bool :=
  us.any fun u => u.reads &&
    match u.reg with
    | .k n => (shortOf d.grp.infl (.k (d.kkey n)) d.cycle).isSome
    | r => (shortOf f.infl r (d.slotOf f)).isSome

/-- GCTL.SBCHK of the batch's group (R35). -/
def Dev.sbchk (d : Dev) : Bool := d.grp.gctl.getLsbD 0

/-- GCTL.COMPAT of the batch's group (R35). -/
def Dev.isCompat (d : Dev) : Bool := d.grp.gctl.getLsbD 1

/-- Runs an instruction of the batch behind its checks, in the order of R72: the window (R14), the instruction's own ILLEGAL
check `own` (R32), then short reads (R70). An instruction that fails one traps in the fibres that fail it and has no effect
in any fibre. -/
def Dev.guardWith (d : Dev) (i : Instr) (own : Fibre → Option Reject) (body : Dev → Dev) : Dev :=
  let us := usesOf i
  let ill (f : Fibre) : Option Reject := (windowReject us f).or (own f)
  if d.active.any fun f => (ill f).isSome then d.trapSome fun f => (ill f).map (illTrap d.cur.word)
  else if d.sbchk && d.active.any (d.isShort us) then d.trapSome fun f => if d.isShort us f then some tShort else none
  else body d

/-- The same for an instruction without a check of its own. -/
def Dev.guard (d : Dev) (i : Instr) (body : Dev → Dev) : Dev := d.guardWith i (fun _ => none) body

/-- Whether the checks pass in every fibre of the batch. -/
def Dev.passes (d : Dev) (i : Instr) : Bool :=
  d.active.all fun f => (windowReject (usesOf i) f).isNone && !(d.sbchk && d.isShort (usesOf i) f)

/-- A meaning of a device instruction: it always gives a next state. -/
def State.run (s : State) (i : Instr) (body : Dev → Dev) : Host.Outcome State Fault Refusal :=
  .next (s.onDev fun d => d.guard i body)

/-! ## Reading operands -/

/-- The B operand of a fibre (R58, R76). -/
def Dev.readB (d : Dev) (f : Fibre) (kb hv : BitVec 1) (vb : BitVec 6) : W64 :=
  if kb == 1 then d.readKAs (f.slot * 32 + f.lane) vb.toNat else d.readV f (laneNo hv vb)

/-! ## Sub-elements (R26, R57) -/

/-- Sub-element width of a TY or SZ value in the integer reading. -/
def widthOf (ty : BitVec 2) : Nat := 8 * 2 ^ ty.toNat

/-- Sub-element width of a TY value in the float reading. -/
def fwidthOf (ty : BitVec 2) : Nat := if ty.toNat ≤ 1 then 16 else 8 * 2 ^ ty.toNat

/-- Sub-element `j` of width `w`. -/
def elem (w : Nat) (x : W64) (j : Nat) : BitVec w := x.extractLsb' (w * j) w

/-- Sub-elements side by side, the first lowest. -/
def join {w : Nat} : List (BitVec w) → W64
  | [] => 0
  | b :: l => (join l <<< w) ||| b.setWidth 64

/-- Computes each of the 64/w sub-elements. -/
def perElem (w : Nat) (f : Nat → BitVec w) : W64 := join ((List.range (64 / w)).map f)

/-! ## Immediates (R60) -/

/-- A signed field, sign-extended. -/
def simm {n : Nat} (x : BitVec n) : W64 := x.signExtend 64

/-- IMM10 of uniform arithmetic: V times 16 to the SH. -/
def kimm (x : BitVec 10) : W64 := BitVec.ofNat 64 (immSh x.toNat)

/-- A branch target: the instruction's address plus the offset in words (R60). -/
def target {n : Nat} (pc : Addr48) (off : BitVec n) : Addr48 := pc + (off.signExtend 48 <<< 2)

/-! ## Writing destinations -/

/-- Writes a lane register in every active fibre with latency `lat` (R68, R76): every member reads before any writes. -/
def Dev.writeV (d : Dev) (vd lat : Nat) (g : Fibre → W64) : Dev :=
  d.updActive fun f => f.putV vd (g f) (d.slotOf f + lat)

/-- Writes a mask register in every active fibre (R89). -/
def Dev.writeM (d : Dev) (md lat : Nat) (g : Fibre → Byte) : Dev :=
  d.updActive fun f => f.putM md (g f) (d.slotOf f + lat)

/-- Writes a lane register of the active fibres for which a value is given, with variable latency (R68). -/
def Dev.oweV (d : Dev) (vd : Nat) (g : Fibre → Option W64) : Dev :=
  d.updActive fun f => match g f with | some x => (landV f (.v vd)).owe vd x (BitVec.allOnes 64) | none => f

end Sys2Proof.Machine
end

