-- ==== Sys2Proof/Machine/Flags.lean ====
section
/-! DEFINITION. Conditions (R63) and the mask bits a comparison writes (R89, R95). -/

namespace Sys2Proof.Machine

/-- CMP conditions 0 to 5 on signed values (R63, R89). -/
def condI {w : Nat} (cc : Nat) (a b : BitVec w) : Bool :=
  match cc with
  | 0 => a == b
  | 1 => a != b
  | 2 => a.slt b
  | 3 => a.sle b
  | 4 => b.slt a
  | 5 => b.sle a
  | _ => false

/-- CMP conditions 0 to 5 on unsigned values (R63, R89). -/
def condN {w : Nat} (cc : Nat) (a b : BitVec w) : Bool :=
  match cc with
  | 0 => a == b
  | 1 => a != b
  | 2 => a.ult b
  | 3 => a.ule b
  | 4 => b.ult a
  | 5 => b.ule a
  | _ => false

/-- BR and KBR: a register read as signed against zero (R63). -/
def condZ (cc : Nat) (a : W64) : Bool := condI cc a 0

/-- KCMP conditions 0 to 9 (R63, R184). -/
def condK (cc : Nat) (a b : W64) : Bool := if cc ≤ 5 then condI cc a b else condN (cc - 4) a b

/-- Bit `j` of a mask register is the condition of sub-element `j`; bits 64/w to 7 are 0 (R89). -/
def maskOf (n : Nat) (p : Nat → Bool) : Byte :=
  (List.range n).foldl (fun m j => if p j then m ||| (1 <<< j) else m) 0

end Sys2Proof.Machine
end

