-- ==== Sys2Proof/Machine/FloatOps.lean ====
section
/-! DEFINITION. Floating-point values and exact arithmetic on them, rounded once (04: R92 to R100; 05: R101, R102). A finite
value is a sign, a natural number and a power of two, so that nothing is lost before the one rounding. -/

namespace Sys2Proof.Machine

/-- A lane format (R102): exponent bits and fraction bits. -/
structure FFmt where
  eb : Nat
  fb : Nat
  deriving DecidableEq, Repr

/-- binary16. -/
def FFmt.f16 : FFmt := ⟨5, 10⟩
/-- bfloat16. -/
def FFmt.bf16 : FFmt := ⟨8, 7⟩
/-- binary32. -/
def FFmt.f32 : FFmt := ⟨8, 23⟩
/-- binary64. -/
def FFmt.f64 : FFmt := ⟨11, 52⟩

/-- The format of a TY value in the float reading (R57). -/
def FFmt.ofTy (ty : BitVec 2) : FFmt :=
  match ty.toNat with
  | 0 => .bf16
  | 1 => .f16
  | 2 => .f32
  | _ => .f64

/-- Width in bits. -/
def FFmt.width (f : FFmt) : Nat := 1 + f.eb + f.fb
/-- Exponent of the lowest bit of a subnormal. -/
def FFmt.emin (f : FFmt) : Int := 2 - 2 ^ (f.eb - 1) - f.fb
/-- The code of +Inf. -/
def FFmt.infCode (f : FFmt) : Nat := (2 ^ f.eb - 1) * 2 ^ f.fb
/-- The sign bit. -/
def FFmt.signBit (f : FFmt) : Nat := 2 ^ (f.eb + f.fb)
/-- The canonical NaN (R92, R102). -/
def FFmt.nan (f : FFmt) : Nat := f.infCode + 2 ^ (f.fb - 1)

/-- A floating-point datum; a finite one is (-1)^neg * m * 2^e. -/
inductive FVal where
  | nan
  | inf (neg : Bool)
  | fin (neg : Bool) (m : Nat) (e : Int)
  deriving DecidableEq, Repr

/-- Rounding attributes, in the code of FPCTL.RM and RND (R34, R62). -/
abbrev Rm := Nat

/-- Whether a magnitude with dropped bits `rem` of `s` places is rounded up. -/
def roundsUp (rm : Rm) (neg odd : Bool) (rem s : Nat) : Bool :=
  match rm with
  | 0 => decide (2 ^ s < 2 * rem) || (2 * rem == 2 ^ s && odd)
  | 1 => false
  | 2 => rem != 0 && !neg
  | _ => rem != 0 && neg

/-- A magnitude `m * 2^e` cut to a multiple of `2^q`, as the multiple, under a rounding attribute. -/
def cutTo (rm : Rm) (neg : Bool) (m : Nat) (e q : Int) : Nat :=
  if q ≤ e then m * 2 ^ (e - q).toNat
  else
    let s := (q - e).toNat
    let n := m / 2 ^ s
    if roundsUp rm neg (n % 2 == 1) (m % 2 ^ s) s then n + 1 else n

/-- The code of a finite value rounded once (R92, R101): overflow as IEEE 754-2019 gives it for the attribute. -/
def FFmt.round (f : FFmt) (rm : Rm) (neg : Bool) (m : Nat) (e : Int) : Nat :=
  let sg := if neg then f.signBit else 0
  if m == 0 then sg
  else
    let q := max f.emin (e + m.log2 - f.fb)
    let code := (q - f.emin).toNat * 2 ^ f.fb + cutTo rm neg m e q
    if code < f.infCode then sg + code
    else
      let toInf := rm == 0 || (rm == 2 && !neg) || (rm == 3 && neg)
      sg + if toInf then f.infCode else f.infCode - 1

/-- Whether a code is subnormal. -/
def FFmt.isSub (f : FFmt) (c : Nat) : Bool := decide (c % f.signBit < 2 ^ f.fb) && c % f.signBit != 0

/-- FTZ on a code: a subnormal becomes zero of its sign (R92). -/
def FFmt.flush (f : FFmt) (ftz : Bool) (c : Nat) : Nat := if ftz && f.isSub c then c / f.signBit * f.signBit else c

/-- The datum of a code; a subnormal input is flushed under FTZ. -/
def FFmt.read (f : FFmt) (ftz : Bool) (code : Nat) : FVal :=
  let c := f.flush ftz code
  let neg := c / f.signBit % 2 == 1
  let mag := c % f.signBit
  if f.infCode < mag then .nan
  else if mag == f.infCode then .inf neg
  else
    let ex := mag / 2 ^ f.fb
    if ex == 0 then .fin neg mag f.emin else .fin neg (2 ^ f.fb + mag % 2 ^ f.fb) (f.emin + ex - 1)

/-- The code of a datum, rounded once, then flushed under FTZ. -/
def FFmt.write (f : FFmt) (rm : Rm) (ftz : Bool) : FVal → Nat
  | .nan => f.nan
  | .inf neg => (if neg then f.signBit else 0) + f.infCode
  | .fin neg m e => f.flush ftz (f.round rm neg m e)

namespace FVal

/-- Sign inverted. -/
def neg : FVal → FVal
  | .nan => .nan
  | .inf s => .inf !s
  | .fin s m e => .fin (!s) m e

/-- Signed multiple of `2^q` of a finite value whose exponent is at least `q`. -/
def scaled (s : Bool) (m : Nat) (e q : Int) : Int :=
  let n : Int := (m * 2 ^ (e - q).toNat : Nat)
  if s then -n else n

/-- The exact sum; an exact zero sum has sign `zneg`, unless both addends are zeros of one sign (R92). -/
def add (zneg : Bool) : FVal → FVal → FVal
  | .nan, _ => .nan
  | _, .nan => .nan
  | .inf s, .inf t => if s == t then .inf s else .nan
  | .inf s, .fin .. => .inf s
  | .fin .., .inf t => .inf t
  | .fin s m e, .fin t n g =>
    let q := min e g
    let x := scaled s m e q + scaled t n g q
    if x == 0 then .fin (if m == 0 && n == 0 && s == t then s else zneg) 0 q
    else .fin (decide (x < 0)) x.natAbs q

/-- The exact product. -/
def mul : FVal → FVal → FVal
  | .nan, _ => .nan
  | _, .nan => .nan
  | .inf s, .inf t => .inf (s != t)
  | .inf s, .fin t n _ => if n == 0 then .nan else .inf (s != t)
  | .fin s m _, .inf t => if m == 0 then .nan else .inf (s != t)
  | .fin s m e, .fin t n g => .fin (s != t) (m * n) (e + g)

/-- Less than, both not NaN; zeros of either sign are equal. -/
def lt : FVal → FVal → Bool
  | .nan, _ => false
  | _, .nan => false
  | .inf s, .inf t => s && !t
  | .inf s, .fin .. => s
  | .fin .., .inf t => !t
  | .fin s m e, .fin t n g => decide (scaled s m e (min e g) < scaled t n g (min e g))

/-- Equal, both not NaN. -/
def eqv : FVal → FVal → Bool
  | .nan, _ => false
  | _, .nan => false
  | a, b => !(lt a b) && !(lt b a)

/-- Whether the sign is negative. -/
def isNeg : FVal → Bool
  | .nan => false
  | .inf s => s
  | .fin s _ _ => s

/-- minimumNumber (R94). -/
def minNum : FVal → FVal → FVal
  | .nan, b => b
  | a, .nan => a
  | a, b => if lt a b || (eqv a b && isNeg a) then a else b

/-- maximumNumber (R94). -/
def maxNum : FVal → FVal → FVal
  | .nan, b => b
  | a, .nan => a
  | a, b => if lt b a || (eqv a b && !isNeg a) then a else b

/-- FCMP's condition (R95). -/
def cmp (cc : Nat) (a b : FVal) : Bool :=
  let un := a == .nan || b == .nan
  match cc with
  | 0 => !un && eqv a b
  | 1 => un || !eqv a b
  | 2 => lt a b
  | 3 => !un && !lt b a
  | 4 => lt b a
  | 5 => !un && !lt a b
  | 6 => un
  | _ => !un

/-- The value times a power of two; counts beyond every format's range act as the range's end (R96). -/
def scale (k : Int) : FVal → FVal
  | .fin s m e => .fin s m (e + max (-6000) (min k 6000))
  | v => v

/-- Rounded to an integral value, sign kept (R97). -/
def toIntegral (rm : Rm) : FVal → FVal
  | .fin s m e => .fin s (cutTo rm s m e 0) 0
  | v => v

end FVal

/-! ## Codes -/

/-- FPCTL.RM (R34). -/
def Fibre.rm (f : Fibre) : Rm := bitsOf f.fpctl.toNat 0 2
/-- FPCTL.FTZ (R34). -/
def Fibre.ftz (f : Fibre) : Bool := f.fpctl.getLsbD 2

/-- Sum of two codes. -/
def FFmt.addC (f : FFmt) (rm : Rm) (ftz : Bool) (a b : Nat) : Nat :=
  f.write rm ftz (.add (rm == 3) (f.read ftz a) (f.read ftz b))

/-- Product of two codes. -/
def FFmt.mulC (f : FFmt) (rm : Rm) (ftz : Bool) (a b : Nat) : Nat := f.write rm ftz (.mul (f.read ftz a) (f.read ftz b))

/-- Fused product and sum. -/
def FFmt.fmaC (f : FFmt) (rm : Rm) (ftz : Bool) (a b c : Nat) (negC : Bool) : Nat :=
  let z := f.read ftz c
  f.write rm ftz (.add (rm == 3) (.mul (f.read ftz a) (f.read ftz b)) (if negC then z.neg else z))

/-- FCLASS (R97): the bit number. -/
def FFmt.classBit (f : FFmt) (c : Nat) : Nat :=
  let neg := c / f.signBit % 2 == 1
  let mag := c % f.signBit
  if f.infCode < mag then (if mag % 2 ^ f.fb < 2 ^ (f.fb - 1) then 8 else 9)
  else if mag == f.infCode then (if neg then 0 else 7)
  else if mag == 0 then (if neg then 3 else 4)
  else if mag < 2 ^ f.fb then (if neg then 2 else 5)
  else if neg then 1 else 6

/-! ## Special functions (R98 to R100)

The exact value is computed to 2^-320 and the device's result is a free choice among those that R99 allows (log 5). -/

/-- Fixed point: 320 bits after the point. -/
def fx : Nat := 320

/-- `n` terms of a power series in fixed point: term 0 is given, each next one from the last by `step`. -/
def series (step : Nat → Int → Int) : Nat → Nat → Int → Int
  | 0, _, _ => 0
  | n + 1, i, t => t + series step n (i + 1) (step i t)

/-- atanh(p/q) in fixed point. -/
def atanhFx (p q : Int) : Int :=
  let z := p * 2 ^ fx / q
  let z2 := z * z / 2 ^ fx
  -- terms z^(2i+1), divided by 2i+1 as they are added
  let rec go : Nat → Nat → Int → Int
    | 0, _, _ => 0
    | n + 1, i, t => t / (2 * i + 1) + go n (i + 1) (t * z2 / 2 ^ fx)
  go 220 0 z

/-- atan(1/q) in fixed point. -/
def atanInvFx (q : Int) : Int :=
  let rec go : Nat → Nat → Int → Int
    | 0, _, _ => 0
    | n + 1, i, t => (if i % 2 == 0 then t / (2 * i + 1) else -(t / (2 * i + 1))) + go n (i + 1) (t / (q * q))
  go 180 0 (2 ^ fx / q)

/-- Pi. -/
def piFx : Int := 16 * atanInvFx 5 - 4 * atanInvFx 239
/-- ln 2. -/
def ln2Fx : Int := 2 * atanhFx 1 3

/-- e^y of a fixed-point number. -/
def expFx (y : Int) : Int := series (fun i t => t * y / 2 ^ fx / (i + 1)) 260 0 (2 ^ fx)
/-- sin y of a fixed-point number. -/
def sinFx (y : Int) : Int := series (fun i t => -(t * y / 2 ^ fx * y / 2 ^ fx / ((2 * i + 2) * (2 * i + 3)))) 90 0 y

/-- Integer square root, bit by bit. -/
def isqrt (n : Nat) : Nat :=
  let rec go : Nat → Nat → Nat
    | 0, r => r
    | k + 1, r => let c := r + 2 ^ k
                  go k (if c * c ≤ n then c else r)
  go (n.log2 / 2 + 1) 0

/-- A finite value in fixed point, towards minus infinity. -/
def fixOf (s : Bool) (m : Nat) (e : Int) : Int :=
  let n : Int := (if 0 ≤ e + fx then m * 2 ^ (e + fx).toNat else m / 2 ^ (-(e + fx)).toNat : Nat)
  if s then -n else n

/-- The exact value, to the precision of the fixed point, of a special function at a finite nonzero argument. -/
def specialFx (sub : Nat) (s : Bool) (m : Nat) (e : Int) : Int :=
  let x := fixOf s m e
  match sub with
  | 0 => 2 ^ (2 * fx) / x
  | 1 => (isqrt (2 ^ (3 * fx) / x.natAbs) : Nat)
  | 3 =>
    -- below -2 fx the value is 0 at this precision
    let x := max x (-(2 * fx : Int) * 2 ^ fx)
    let n := x / 2 ^ fx
    let f := x % 2 ^ fx
    let y := expFx (f * ln2Fx / 2 ^ fx)
    if 0 ≤ n then y * 2 ^ n.toNat else y / 2 ^ (-n).toNat
  | 4 =>
    let k := m.log2
    (e + k) * 2 ^ fx + 2 * atanhFx ((m : Int) - 2 ^ k) ((m : Int) + 2 ^ k) * 2 ^ fx / ln2Fx
  | 5 =>
    -- x reduced to [-1/2, 1/2] about the nearest integer, whose parity gives the sign
    let n := (2 * x + 2 ^ fx) / 2 ^ (fx + 1)
    let y := sinFx ((x - n * 2 ^ fx) * piFx / 2 ^ fx)
    if n % 2 == 0 then y else -y
  | 6 =>
    -- cos(pi x) = sin(pi (x + 1/2))
    let x := x + 2 ^ (fx - 1)
    let n := (2 * x + 2 ^ fx) / 2 ^ (fx + 1)
    let y := sinFx ((x - n * 2 ^ fx) * piFx / 2 ^ fx)
    if n % 2 == 0 then y else -y
  | _ =>
    let t := expFx (2 * x)
    (t - 2 ^ fx) * 2 ^ fx / (t + 2 ^ fx)

/-- Codes of binary32 in rising order of value: the place of a code, and the code at a place. -/
def place32 (c : Nat) : Int := if c < 2 ^ 31 then c else -((c - 2 ^ 31 : Nat) : Int)
/-- The code at a place, within the finite values. -/
def code32 (p : Int) : Nat :=
  let p := max (-0x7F7FFFFF : Int) (min p 0x7F7FFFFF)
  if p < 0 then 2 ^ 31 + p.natAbs else p.toNat

/-- A binary32 code in fixed point. -/
def fix32 (c : Nat) : Int :=
  match FFmt.f32.read false c with
  | .fin s m e => fixOf s m e
  | _ => 0

/-- The unit in the last place of a value in binary32, in fixed point. -/
def ulp32 (y : Int) : Int :=
  let k : Int := (y.natAbs.log2 : Int) - fx - 23
  2 ^ (max k (-149) + fx).toNat

/-- Whether R99 allows an error for a function at an argument with value `y`. -/
def r99 (sub : Nat) (x y err : Int) : Bool :=
  let u := ulp32 y
  let err := (err.natAbs : Int)
  match sub with
  | 0 => decide (err ≤ u)
  | 1 => decide (err ≤ u)
  | 4 => if 2 ^ (fx - 1) ≤ x ∧ x ≤ 2 ^ (fx + 1) then decide (err ≤ 2 ^ (fx - 22)) else decide (err ≤ 2 * u)
  | 5 => decide (err ≤ max (2 * u) (2 ^ (fx - 24)))
  | 6 => decide (err ≤ max (2 * u) (2 ^ (fx - 24)))
  | _ => decide (err ≤ 2 * u)

/-- Whether R99 lists the argument as an exact case, whose result is the value itself. -/
def exactCase (sub : Nat) (s : Bool) (m : Nat) (e : Int) (y : Int) : Bool :=
  let pow2 := m == 2 ^ m.log2
  let k := e + m.log2
  let x := fixOf s m e
  let normal := decide ((2 ^ (fx - 126) : Int) ≤ y.natAbs)
  match sub with
  | 0 => pow2 && normal
  | 1 => pow2 && k % 2 == 0 && normal
  | 3 => x % 2 ^ fx == 0 && normal
  | 4 => pow2
  | 5 => x % 2 ^ (fx - 1) == 0
  | 6 => x % 2 ^ (fx - 1) == 0
  | _ => false

/-- The binary32 result of a special function other than SQRT at a binary32 code already flushed (R98 to R100). EX2 below
-149 is free among +0 and the results that the bound of R99 allows, none of them negative. RCP of a nonzero argument of at
most 2^-128, whose reciprocal lies beyond binary32, has no stated result and is the free value `Config.rcpBeyond` (log 5). -/
def special32 (sub : Nat) (c : Nat) : Nat :=
  let one := 0x3F800000
  let sgn (s : Bool) : Nat := if s then 2 ^ 31 else 0
  let f := FFmt.f32
  match f.read false c with
  | .nan => f.nan
  | .inf s =>
    match sub with
    | 0 => sgn s
    | 1 => if s then f.nan else 0
    | 3 => if s then 0 else f.infCode
    | 4 => if s then f.nan else f.infCode
    | 7 => sgn s + one
    | _ => f.nan
  | .fin s m e =>
    if m == 0 then
      match sub with
      | 0 => sgn s + f.infCode
      | 1 => sgn s + f.infCode
      | 3 => one
      | 4 => 2 ^ 31 + f.infCode
      | 6 => one
      | _ => sgn s
    else if s && (sub == 1 || sub == 4) then f.nan
    else
      let x := fixOf s m e
      if sub == 3 && decide (128 * 2 ^ fx ≤ x) then f.infCode
      else if sub == 7 && decide (10 * 2 ^ fx ≤ (x.natAbs : Int)) then sgn s + one
      else if sub == 5 && x % 2 ^ fx == 0 then sgn s
      else if sub == 6 && x % 2 ^ fx == 2 ^ (fx - 1) then 0
      else
        let y := specialFx sub s m e
        let near := f.round 0 (decide (y < 0)) y.natAbs (-fx)
        if near == f.infCode || near == 2 ^ 31 + f.infCode then
          let free := (Config.rcpBeyond (BitVec.ofNat 32 c)).toNat
          if f.infCode < free % 2 ^ 31 then f.nan else free
        else if exactCase sub s m e y then if y == 0 then 0 else near
        else
          let place := place32 near + Config.specialUlp sub (BitVec.ofNat 32 c)
          let free := code32 (if sub == 3 then max 0 place else place)
          if r99 sub x y (fix32 free - y) then free else near

/-- The code of the correctly rounded square root of a finite positive value (R98, R99). -/
def sqrtTo (f : FFmt) (rm : Rm) (m : Nat) (e : Int) : Nat :=
  let e2 := if e % 2 == 0 then e else e - 1
  let m2 := (if e % 2 == 0 then m else 2 * m) * 2 ^ 160
  let r := isqrt m2
  -- a remainder is marked below every bit that counts
  f.round rm false (2 * r + if r * r == m2 then 0 else 1) ((e2 - 160) / 2 - 1)

/-- A special function of format `f` (R98): the input is flushed and widened to binary32, the result rounded under RM and
flushed. -/
def specialC (f : FFmt) (rm : Rm) (ftz : Bool) (sub c : Nat) : Nat :=
  if sub == 2 then
    match f.read ftz c with
    | .nan => f.nan
    | .inf s => if s then f.nan else f.infCode
    | .fin s m e => if m == 0 then (if s then f.signBit else 0) else if s then f.nan else f.flush ftz (sqrtTo f rm m e)
  else
    let wide := FFmt.f32.write 0 false (f.read ftz c)
    let r := special32 sub wide
    if f == .f32 then f.flush ftz r else f.write rm ftz (FFmt.f32.read false r)

end Sys2Proof.Machine
end

