-- ==== Sys2Proof/Machine/Integer.lean ====
section
/-! DEFINITION. Integer lane instructions, opcodes 0x00 to 0x27 (04: R76 to R91). -/

namespace Sys2Proof.Machine

/-! ## The operations on one sub-element (R81 to R85) -/

/-- Bits [2w-1:w] of an exact product. -/
def highHalf (w : Nat) (p : Int) : BitVec w := BitVec.ofInt w (p / 2 ^ w)

/-- An exact value clamped to the signed range (R81). -/
def satI (w : Nat) (x : Int) : BitVec w := BitVec.ofInt w (max (-(2 ^ (w - 1) : Int)) (min x (2 ^ (w - 1) - 1)))

/-- An exact value clamped to the unsigned range (R81). -/
def satN (w : Nat) (x : Int) : BitVec w := BitVec.ofInt w (max 0 (min x (2 ^ w - 1)))

/-- AVG: floor of half of a + b + 1 (R81). -/
def avg (w : Nat) (a b : Int) : BitVec w := BitVec.ofInt w ((a + b + 1) / 2)

/-- SAD: the exact absolute difference added to the old destination (R81). -/
def sad {w : Nat} (d : BitVec w) (a b : Int) : BitVec w := d + BitVec.ofInt w (a - b).natAbs

/-- SHL (R82). -/
def shlE {w : Nat} (a : BitVec w) (c : Nat) : BitVec w := if c < w then a <<< c else 0

/-- SHR (R82). -/
def shrE {w : Nat} (a : BitVec w) (c : Nat) : BitVec w := if c < w then a >>> c else 0

/-- SAR (R82). -/
def sarE {w : Nat} (a : BitVec w) (c : Nat) : BitVec w := a.sshiftRight (if c < w then c else w - 1)

/-- ROT: left by the count modulo w (R82). -/
def rotE {w : Nat} (a : BitVec w) (c : Nat) : BitVec w := a.rotateLeft (c % w)

/-- NEG and ABS (R84). -/
def absE {w : Nat} (a : BitVec w) : BitVec w := if a.msb then 0 - a else a

/-- POPC (R84). -/
def popcE {w : Nat} (a : BitVec w) : BitVec w := BitVec.ofNat w ((List.range w).countP fun i => a.getLsbD i)

/-- CLZ: w when a = 0 (R84). -/
def clzE {w : Nat} (a : BitVec w) : BitVec w := BitVec.ofNat w (((List.range w).find? fun i => a.getMsbD i).getD w)

/-- CTZ: w when a = 0 (R84). -/
def ctzE {w : Nat} (a : BitVec w) : BitVec w := BitVec.ofNat w (((List.range w).find? fun i => a.getLsbD i).getD w)

/-- BREV (R84). -/
def brevE {w : Nat} (a : BitVec w) : BitVec w :=
  (List.range w).foldl (fun r i => if a.getMsbD i then r ||| (1 <<< i) else r) 0

/-- The field that B describes: position and effective length (R85). -/
def bitField {w : Nat} (b : BitVec w) : Nat × Nat :=
  let lg := w.log2
  let p := bitsOf b.toNat 0 lg
  let l := bitsOf b.toNat lg lg
  (p, min (if l == 0 then w else l) (w - p))

/-- BFX (R85). -/
def bfxE {w : Nat} (a b : BitVec w) : BitVec w :=
  BitVec.ofNat w (bitsOf a.toNat (bitField b).1 (bitField b).2)

/-- BFI (R85). -/
def bfiE {w : Nat} (a b d : BitVec w) : BitVec w :=
  let m : BitVec w := BitVec.ofNat w ((2 ^ (bitField b).2 - 1) * 2 ^ (bitField b).1)
  (d &&& ~~~m) ||| ((a <<< (bitField b).1) &&& m)

/-- PERMB (R86). -/
def permb (a b : W64) : W64 :=
  perElem 8 fun i => if (elem 8 b i).getLsbD 7 then 0 else elem 8 a ((elem 8 b i).toNat % 8)

/-- DOT4 of one 32-bit sub-element, with the reading of a byte (R87). -/
def dot4 (rd : Byte → Int) (a b d : BitVec 32) : BitVec 32 :=
  let by_ (x : BitVec 32) (i : Nat) : Int := rd (x.extractLsb' (8 * i) 8)
  d + BitVec.ofInt 32 (by_ a 0 * by_ b 0 + by_ a 1 * by_ b 1 + by_ a 2 * by_ b 2 + by_ a 3 * by_ b 3)

/-- LEA (R88). -/
def lea (ty : BitVec 2) (a b : W64) : W64 :=
  let t := if ty == 2 then a + (b.setWidth 32).signExtend 64 else a + b
  (t.setWidth 48).signExtend 64

/-! ## The forms -/

/-- The loop of R76 over registers: reads A, B and the old destination, writes the whole destination. -/
def regOp (i : Instr) (o : R3Op) (lat : Nat) (g : W64 → W64 → W64 → W64) (s : State) : Host.Outcome State Fault Refusal :=
  s.run i fun d =>
    (d.writeV (laneNo o.hv o.vd) lat fun f =>
      g (d.readV f (laneNo o.hv o.va)) (d.readB f o.kb o.hv o.vb) (d.readV f (laneNo o.hv o.vd))).advLane o.stl

/-- The loop of R76 per sub-element: `f w a b d`. -/
def intOp (i : Instr) (o : R3Op) (lat : Nat) (f : (w : Nat) → BitVec w → BitVec w → BitVec w → BitVec w) (s : State) :
    Host.Outcome State Fault Refusal :=
  let w := widthOf o.ty
  regOp i o lat (fun a b d => perElem w fun j => f w (elem w a j) (elem w b j) (elem w d j)) s

/-- An immediate form: one source register (R83). -/
def immOp (i : Instr) (stl : BitVec 2) (vd va : BitVec 6) (g : W64 → W64) (s : State) : Host.Outcome State Fault Refusal :=
  s.run i fun d => (d.writeV vd.toNat 2 fun f => g (d.readV f va.toNat)).advLane stl

/-- A unary form (R84): result of each sub-element. -/
def unaryOp (i : Instr) (o : UnOp) (f : (w : Nat) → BitVec w → BitVec w) (s : State) : Host.Outcome State Fault Refusal :=
  let w := widthOf o.ty
  s.run i fun d =>
    (d.writeV (laneNo o.hv o.vd) 2 fun x => perElem w fun j => f w (elem w (d.readV x (laneNo o.hv o.va)) j)).advLane o.stl

/-- A comparison into a mask register (R89): the condition on sub-element `j` of A and B. -/
def cmpOp (i : Instr) (o : CmpOp) (lat n : Nat) (p : Fibre → W64 → W64 → Nat → Bool) (s : State) :
    Host.Outcome State Fault Refusal :=
  s.run i fun d =>
    (d.writeM o.md.toNat lat fun f =>
      maskOf n (p f (d.readV f (laneNo o.hv o.va)) (d.readB f o.kb o.hv o.vb))).advLane o.stl

/-! ## The instructions -/

/-- ADD (R81). -/
def execAdd (o : R3Op) (s : State) := intOp (.add o) o 2 (fun _ a b _ => a + b) s
/-- SUB (R81). -/
def execSub (o : R3Op) (s : State) := intOp (.sub o) o 2 (fun _ a b _ => a - b) s
/-- MUL (R81). -/
def execMul (o : R3Op) (s : State) := intOp (.mul o) o 4 (fun _ a b _ => a * b) s
/-- MULHI.i (R81). -/
def execMulhiI (o : R3Op) (s : State) := intOp (.mulhiI o) o 4 (fun w a b _ => highHalf w (a.toInt * b.toInt)) s
/-- MULHI.n (R81). -/
def execMulhiN (o : R3Op) (s : State) := intOp (.mulhiN o) o 4 (fun w a b _ => highHalf w (a.toNat * b.toNat)) s
/-- MAD (R81). -/
def execMad (o : R3Op) (s : State) := intOp (.mad o) o 4 (fun _ a b d => a * b + d) s
/-- AND (R81). -/
def execAnd (o : R3Op) (s : State) := intOp (.and o) o 2 (fun _ a b _ => a &&& b) s
/-- OR (R81). -/
def execOr (o : R3Op) (s : State) := intOp (.or o) o 2 (fun _ a b _ => a ||| b) s
/-- XOR (R81). -/
def execXor (o : R3Op) (s : State) := intOp (.xor o) o 2 (fun _ a b _ => a ^^^ b) s
/-- ANDN (R81). -/
def execAndn (o : R3Op) (s : State) := intOp (.andn o) o 2 (fun _ a b _ => a &&& ~~~b) s
/-- SHL (R82). -/
def execShl (o : R3Op) (s : State) := intOp (.shl o) o 2 (fun _ a b _ => shlE a b.toNat) s
/-- SHR (R82). -/
def execShr (o : R3Op) (s : State) := intOp (.shr o) o 2 (fun _ a b _ => shrE a b.toNat) s
/-- SAR (R82). -/
def execSar (o : R3Op) (s : State) := intOp (.sar o) o 2 (fun _ a b _ => sarE a b.toNat) s
/-- ROT (R82). -/
def execRot (o : R3Op) (s : State) := intOp (.rot o) o 2 (fun _ a b _ => rotE a b.toNat) s
/-- MIN.i (R81). -/
def execMinI (o : R3Op) (s : State) := intOp (.minI o) o 2 (fun _ a b _ => if a.sle b then a else b) s
/-- MIN.n (R81). -/
def execMinN (o : R3Op) (s : State) := intOp (.minN o) o 2 (fun _ a b _ => if a.ule b then a else b) s
/-- MAX.i (R81). -/
def execMaxI (o : R3Op) (s : State) := intOp (.maxI o) o 2 (fun _ a b _ => if a.sle b then b else a) s
/-- MAX.n (R81). -/
def execMaxN (o : R3Op) (s : State) := intOp (.maxN o) o 2 (fun _ a b _ => if a.ule b then b else a) s
/-- ADDSAT.i (R81). -/
def execAddsatI (o : R3Op) (s : State) := intOp (.addsatI o) o 2 (fun w a b _ => satI w (a.toInt + b.toInt)) s
/-- ADDSAT.n (R81). -/
def execAddsatN (o : R3Op) (s : State) := intOp (.addsatN o) o 2 (fun w a b _ => satN w (a.toNat + b.toNat)) s
/-- SUBSAT.i (R81). -/
def execSubsatI (o : R3Op) (s : State) := intOp (.subsatI o) o 2 (fun w a b _ => satI w (a.toInt - b.toInt)) s
/-- SUBSAT.n (R81). -/
def execSubsatN (o : R3Op) (s : State) := intOp (.subsatN o) o 2 (fun w a b _ => satN w (a.toNat - b.toNat)) s
/-- AVG.i (R81). -/
def execAvgI (o : R3Op) (s : State) := intOp (.avgI o) o 2 (fun w a b _ => avg w a.toInt b.toInt) s
/-- AVG.n (R81). -/
def execAvgN (o : R3Op) (s : State) := intOp (.avgN o) o 2 (fun w a b _ => avg w a.toNat b.toNat) s
/-- SAD.i (R81). -/
def execSadI (o : R3Op) (s : State) := intOp (.sadI o) o 4 (fun _ a b d => sad d a.toInt b.toInt) s
/-- SAD.n (R81). -/
def execSadN (o : R3Op) (s : State) := intOp (.sadN o) o 4 (fun _ a b d => sad d a.toNat b.toNat) s
/-- BFX (R85). -/
def execBfx (o : R3Op) (s : State) := intOp (.bfx o) o 2 (fun _ a b _ => bfxE a b) s
/-- BFI (R85). -/
def execBfi (o : R3Op) (s : State) := intOp (.bfi o) o 2 (fun _ a b d => bfiE a b d) s
/-- LEA (R88). -/
def execLea (o : R3Op) (s : State) := regOp (.lea o) o 2 (fun a b _ => lea o.ty a b) s

/-- The form of PERMB and DOT4, whose type the opcode fixes. -/
def wideOp (i : Instr) (o : R3wOp) (lat : Nat) (g : W64 → W64 → W64 → W64) (s : State) : Host.Outcome State Fault Refusal :=
  s.run i fun d =>
    (d.writeV (laneNo o.hv o.vd) lat fun f =>
      g (d.readV f (laneNo o.hv o.va)) (d.readB f o.kb o.hv o.vb) (d.readV f (laneNo o.hv o.vd))).advLane o.stl

/-- PERMB (R86). -/
def execPermb (o : R3wOp) (s : State) := wideOp (.permb o) o 2 (fun a b _ => permb a b) s
/-- DOT4.i (R87). -/
def execDot4I (o : R3wOp) (s : State) :=
  wideOp (.dot4I o) o 4 (fun a b d => perElem 32 fun j => dot4 BitVec.toInt (elem 32 a j) (elem 32 b j) (elem 32 d j)) s
/-- DOT4.n (R87). -/
def execDot4N (o : R3wOp) (s : State) :=
  wideOp (.dot4N o) o 4
    (fun a b d => perElem 32 fun j => dot4 (fun x => (x.toNat : Int)) (elem 32 a j) (elem 32 b j) (elem 32 d j)) s

/-- CMP.i (R89). -/
def execCmpI (o : CmpOp) (s : State) :=
  let w := widthOf o.ty
  cmpOp (.cmpI o) o 2 (64 / w) (fun _ a b j => condI o.cc.toNat (elem w a j) (elem w b j)) s
/-- CMP.n (R89). -/
def execCmpN (o : CmpOp) (s : State) :=
  let w := widthOf o.ty
  cmpOp (.cmpN o) o 2 (64 / w) (fun _ a b j => condN o.cc.toNat (elem w a j) (elem w b j)) s

/-- SEL (R90). -/
def execSel (o : SelOp) (s : State) :=
  let w := widthOf o.ty
  s.run (.sel o) fun d =>
    (d.writeV (laneNo o.hv o.vd) 2 fun f =>
      perElem w fun j =>
        if (d.readM f o.ms.toNat).getLsbD j then elem w (d.readV f (laneNo o.hv o.va)) j
        else elem w (d.readV f (laneNo o.hv o.vd)) j).advLane o.stl

/-- MOV of a lane register (R91). -/
def execMovReg (o : UnOp) (s : State) :=
  s.run (.movReg o) fun d => (d.writeV (laneNo o.hv o.vd) 2 fun f => d.readV f (laneNo o.hv o.va)).advLane o.stl
/-- MOV of a uniform register (R91). -/
def execMovUniform (o : MovUOp) (s : State) :=
  s.run (.movUniform o) fun d =>
    (d.writeV (laneNo o.hv o.vd) 2 fun f => d.readKAs (f.slot * 32 + f.lane) o.ku.toNat).advLane o.stl

/-- NEG (R84). -/
def execNeg (o : UnOp) (s : State) := unaryOp (.neg o) o (fun _ a => 0 - a) s
/-- ABS (R84). -/
def execAbs (o : UnOp) (s : State) := unaryOp (.abs o) o (fun _ a => absE a) s
/-- NOT (R84). -/
def execNot (o : UnOp) (s : State) := unaryOp (.not o) o (fun _ a => ~~~a) s
/-- POPC (R84). -/
def execPopc (o : UnOp) (s : State) := unaryOp (.popc o) o (fun _ a => popcE a) s
/-- CLZ (R84). -/
def execClz (o : UnOp) (s : State) := unaryOp (.clz o) o (fun _ a => clzE a) s
/-- CTZ (R84). -/
def execCtz (o : UnOp) (s : State) := unaryOp (.ctz o) o (fun _ a => ctzE a) s
/-- BREV (R84). -/
def execBrev (o : UnOp) (s : State) := unaryOp (.brev o) o (fun _ a => brevE a) s

/-- ADDI (R83). -/
def execAddi (o : Im8Op) (s : State) :=
  let w := widthOf o.ty
  immOp (.addi o) o.stl o.vd o.va (fun a => perElem w fun j => elem w a j + (simm o.imm).setWidth w) s
/-- SHLI (R83). -/
def execShli (o : ShIOp) (s : State) :=
  let w := widthOf o.ty
  immOp (.shli o) o.stl o.vd o.va (fun a => perElem w fun j => shlE (elem w a j) o.cnt.toNat) s
/-- SHRI (R83). -/
def execShri (o : ShIOp) (s : State) :=
  let w := widthOf o.ty
  immOp (.shri o) o.stl o.vd o.va (fun a => perElem w fun j => shrE (elem w a j) o.cnt.toNat) s
/-- SARI (R83). -/
def execSari (o : ShIOp) (s : State) :=
  let w := widthOf o.ty
  immOp (.sari o) o.stl o.vd o.va (fun a => perElem w fun j => sarE (elem w a j) o.cnt.toNat) s
/-- ROTI (R83). -/
def execRoti (o : ShIOp) (s : State) :=
  let w := widthOf o.ty
  immOp (.roti o) o.stl o.vd o.va (fun a => perElem w fun j => rotE (elem w a j) o.cnt.toNat) s
/-- MOVI (R83). -/
def execMovi (o : Im14Op) (s : State) :=
  let w := widthOf o.ty
  s.run (.movi o) fun d => (d.writeV o.vd.toNat 2 fun _ => perElem w fun _ => (simm o.imm).setWidth w).advLane o.stl

end Sys2Proof.Machine
end

