-- ==== Sys2Proof/Machine/Float.lean ====
section
/-! DEFINITION. Floating-point lane instructions, opcodes 0x28 to 0x32 (04: R92 to R100). -/

namespace Sys2Proof.Machine

/-- A float form (R76, R92): the result code of each sub-element from those of A, B and the old destination, under the
issuing fibre's RM and FTZ. -/
def floatOp (i : Instr) (o : R3Op) (g : FFmt → Rm → Bool → Nat → Nat → Nat → Nat) (s : State) :
    Host.Outcome State Fault Refusal :=
  let w := fwidthOf o.ty
  s.run i fun d =>
    (d.writeV (laneNo o.hv o.vd) 4 fun f =>
      let a := d.readV f (laneNo o.hv o.va)
      let b := d.readB f o.kb o.hv o.vb
      let c := d.readV f (laneNo o.hv o.vd)
      perElem w fun j =>
        BitVec.ofNat w (g (.ofTy o.ty) f.rm f.ftz (elem w a j).toNat (elem w b j).toNat (elem w c j).toNat)).advLane o.stl

/-- A unary float form of fixed latency (R97). -/
def floatUn (i : Instr) (o : UnOp) (g : FFmt → Rm → Bool → Nat → Nat) (s : State) : Host.Outcome State Fault Refusal :=
  let w := fwidthOf o.ty
  s.run i fun d =>
    (d.writeV (laneNo o.hv o.vd) 4 fun f =>
      let a := d.readV f (laneNo o.hv o.va)
      perElem w fun j => BitVec.ofNat w (g (.ofTy o.ty) f.rm f.ftz (elem w a j).toNat)).advLane o.stl

/-- A special function (R98): the result has variable latency. -/
def specialOp (i : Instr) (o : UnOp) (sub : Nat) (s : State) : Host.Outcome State Fault Refusal :=
  let w := fwidthOf o.ty
  s.run i fun d =>
    (d.oweV (laneNo o.hv o.vd) fun f =>
      let a := d.readV f (laneNo o.hv o.va)
      some (perElem w fun j => BitVec.ofNat w (specialC (.ofTy o.ty) f.rm f.ftz sub (elem w a j).toNat))).advLane o.stl

/-- FADD (R93). -/
def execFadd (o : R3Op) (s : State) := floatOp (.fadd o) o (fun f rm z a b _ => f.addC rm z a b) s
/-- FSUB (R93). -/
def execFsub (o : R3Op) (s : State) :=
  floatOp (.fsub o) o (fun f rm z a b _ => f.write rm z (.add (rm == 3) (f.read z a) (f.read z b).neg)) s
/-- FMUL (R93). -/
def execFmul (o : R3Op) (s : State) := floatOp (.fmul o) o (fun f rm z a b _ => f.mulC rm z a b) s
/-- FMA (R93). -/
def execFma (o : R3Op) (s : State) := floatOp (.fma o) o (fun f rm z a b d => f.fmaC rm z a b d false) s
/-- FMS (R93). -/
def execFms (o : R3Op) (s : State) := floatOp (.fms o) o (fun f rm z a b d => f.fmaC rm z a b d true) s
/-- FMIN (R94). -/
def execFmin (o : R3Op) (s : State) :=
  floatOp (.fmin o) o (fun f rm z a b _ => f.write rm z (.minNum (f.read z a) (f.read z b))) s
/-- FMAX (R94). -/
def execFmax (o : R3Op) (s : State) :=
  floatOp (.fmax o) o (fun f rm z a b _ => f.write rm z (.maxNum (f.read z a) (f.read z b))) s
/-- FSCALE (R96): B is a two's-complement integer of the sub-element's width. -/
def execFscale (o : R3Op) (s : State) :=
  floatOp (.fscale o) o
    (fun f rm z a b _ => f.write rm z ((f.read z a).scale (BitVec.ofNat f.width b).toInt)) s

/-- FCMP (R95). -/
def execFcmp (o : CmpOp) (s : State) :=
  let w := fwidthOf o.ty
  let g := FFmt.ofTy o.ty
  cmpOp (.fcmp o) o 4 (64 / w)
    (fun f a b j => FVal.cmp o.cc.toNat (g.read f.ftz (elem w a j).toNat) (g.read f.ftz (elem w b j).toNat)) s

/-- FABS (R97). -/
def execFabs (o : UnOp) (s : State) := floatUn (.fabs o) o (fun f _ _ a => a % f.signBit) s
/-- FNEG (R97). -/
def execFneg (o : UnOp) (s : State) := floatUn (.fneg o) o (fun f _ _ a => a ^^^ f.signBit) s
/-- FCLASS (R97). -/
def execFclass (o : UnOp) (s : State) := floatUn (.fclass o) o (fun f _ _ a => 2 ^ f.classBit a) s
/-- FRND under FPCTL.RM (R97). -/
def execFrnd (o : UnOp) (s : State) := floatUn (.frnd o) o (fun f rm z a => f.write rm z ((f.read z a).toIntegral rm)) s
/-- FRND.rn (R97). -/
def execFrndRn (o : UnOp) (s : State) := floatUn (.frndRn o) o (fun f rm z a => f.write rm z ((f.read z a).toIntegral 0)) s
/-- FRND.rz (R97). -/
def execFrndRz (o : UnOp) (s : State) := floatUn (.frndRz o) o (fun f rm z a => f.write rm z ((f.read z a).toIntegral 1)) s
/-- FRND.ru (R97). -/
def execFrndRu (o : UnOp) (s : State) := floatUn (.frndRu o) o (fun f rm z a => f.write rm z ((f.read z a).toIntegral 2)) s
/-- FRND.rd (R97). -/
def execFrndRd (o : UnOp) (s : State) := floatUn (.frndRd o) o (fun f rm z a => f.write rm z ((f.read z a).toIntegral 3)) s

/-- RCP (R98). -/
def execRcp (o : UnOp) (s : State) := specialOp (.rcp o) o 0 s
/-- RSQ (R98). -/
def execRsq (o : UnOp) (s : State) := specialOp (.rsq o) o 1 s
/-- SQRT (R98). -/
def execSqrt (o : UnOp) (s : State) := specialOp (.sqrt o) o 2 s
/-- EX2 (R98). -/
def execEx2 (o : UnOp) (s : State) := specialOp (.ex2 o) o 3 s
/-- LG2 (R98). -/
def execLg2 (o : UnOp) (s : State) := specialOp (.lg2 o) o 4 s
/-- SINP (R98). -/
def execSinp (o : UnOp) (s : State) := specialOp (.sinp o) o 5 s
/-- COSP (R98). -/
def execCosp (o : UnOp) (s : State) := specialOp (.cosp o) o 6 s
/-- TANH (R98). -/
def execTanh (o : UnOp) (s : State) := specialOp (.tanh o) o 7 s

end Sys2Proof.Machine
end

