-- ==== Sys2Proof/Machine/Convert.lean ====
section
/-! DEFINITION. Conversions, opcodes 0x40 to 0x45 (05: R101 to R115): CVT, the Hadamard converter, quantisation into the
block formats, PACK and UNPACK. -/

namespace Sys2Proof.Machine

/-! ## CVT (R107, R108) -/

/-- Width of a type code (R64). -/
def typeWidth (t : Nat) : Nat := if t ≤ 7 then 8 * 2 ^ (t % 4) else if t ≤ 9 then 16 else if t == 10 then 32 else 64

/-- Format of a float type code (R64). -/
def typeFmt (t : Nat) : FFmt :=
  match t with
  | 8 => .f16
  | 9 => .bf16
  | 10 => .f32
  | _ => .f64

/-- The exact value of a source sub-element of type `t` (R108); an integer has no negative zero. -/
def typeRead (t c : Nat) : FVal :=
  if 8 ≤ t then (typeFmt t).read false c
  else
    let v : Int := if t ≤ 3 then (BitVec.ofNat (typeWidth t) c).toInt else (c : Int)
    .fin (decide (v < 0)) v.natAbs 0

/-- An integral value clamped to an integer type, as its code (R108). -/
def clampTo (t : Nat) (v : Int) : Nat :=
  let w := typeWidth t
  let (lo, hi) : Int × Int := if t ≤ 3 then (-(2 ^ (w - 1)), 2 ^ (w - 1) - 1) else (0, 2 ^ w - 1)
  (BitVec.ofInt w (max lo (min v hi))).toNat

/-- A value as a code of type `t`, rounded under `rm` (R108). -/
def typeWrite (t : Nat) (rm : Rm) (v : FVal) : Nat :=
  if 8 ≤ t then (typeFmt t).write rm false v
  else
    match v with
    | .nan => 0
    | .inf s => clampTo t (if s then -(2 ^ 80) else 2 ^ 80)
    | .fin s m e => let n : Int := (cutTo rm s m e 0 : Nat)
                    clampTo t (if s then -n else n)

/-- CVT of a register (R108). -/
def cvt (td ts : Nat) (rm : Rm) (a : W64) : W64 :=
  let ws := typeWidth ts
  let wd := typeWidth td
  let n := 64 / max ws wd
  (List.range n).foldl
    (fun r j => r ||| (BitVec.ofNat 64 (typeWrite td rm (typeRead ts (elem ws a j).toNat)) <<< (wd * j))) 0

/-- CVT (R107, R108). -/
def execCvt (o : CvtOp) (s : State) :=
  s.run (.cvt o) fun d =>
    (d.writeV o.vd.toNat 4 fun f => cvt o.td.toNat o.ts.toNat o.rnd.toNat (d.readV f o.va.toNat)).advLane o.stl

/-! ## Vectors across lanes (R109) -/

/-- The value a home lane supplies: its member's register, or zero bits where the batch has no member (R109, R120). -/
def Dev.laneV (d : Dev) (va : Nat) (lane : Nat) : W64 :=
  match d.active.find? fun f => f.lane == lane with
  | some f => d.readV f va
  | none => 0

/-- Binary32 sub-element `j` of every home lane. -/
def Dev.vector (d : Dev) (va j : Nat) : List Nat := (List.range 32).map fun l => (elem 32 (d.laneV va l) j).toNat

/-- RNE sum of binary32 codes with subnormals kept (R101). -/
def add32 (a b : Nat) : Nat := FFmt.f32.addC 0 false a b
/-- RNE difference. -/
def sub32 (a b : Nat) : Nat := FFmt.f32.addC 0 false a (b ^^^ 0x80000000)

/-- One round of butterflies at distance `s` (R110). -/
def butterfly (s : Nat) (x : List Nat) : List Nat :=
  (List.range x.length).map fun i =>
    if i / s % 2 == 0 then add32 (nth x i 0) (nth x (i + s) 0) else sub32 (nth x (i - s) 0) (nth x i 0)

/-- The Hadamard transform of a segment of 16 or 32 (R110). -/
def hadamard (x : List Nat) : List Nat :=
  let y := butterfly 8 (butterfly 4 (butterfly 2 (butterfly 1 x)))
  if x.length == 16 then y.map fun v => FFmt.f32.mulC 0 false v 0x3E800000
  else (butterfly 16 y).map fun v => FFmt.f32.mulC 0 false v 0x3E3504F3

/-- Cuts 32 lanes into segments of `n`. -/
def segments (n : Nat) (x : List Nat) : List (List Nat) := if n == 16 then [x.take 16, x.drop 16] else [x]

/-- HAD (R110). -/
def execHad (o : HadOp) (s : State) :=
  s.run (.had o) fun d =>
    let y (j : Nat) := ((segments o.imm.toNat (d.vector o.va.toNat j)).map hadamard).flatten
    let y0 := y 0
    let y1 := y 1
    (d.writeV o.vd.toNat 6 fun f =>
      join [BitVec.ofNat 32 (nth y0 f.lane 0), BitVec.ofNat 32 (nth y1 f.lane 0)]).advLane o.stl

/-! ## Quantisation (R103, R104, R112, R113) -/

/-- An SC8 code other than 0x00 and 0xFF as a multiple of 2^-34 (R103). -/
def sc8 (c : Nat) : Nat := (4 + c % 4) * 2 ^ (c / 4)

/-- Finite magnitudes of a block format in rising order, as multiples of 2^-5, each with its magnitude code (R104):
0 NB8, 1 NB6, 2 NB4. -/
def grid (nf : Nat) : List (Nat × Nat) :=
  match nf with
  | 0 => (List.range 62).map fun c => (if c < 8 then c else (8 + c % 8) * 2 ^ (c / 8 - 1), c)
  | 1 => (List.range 16).map fun c => (if c < 4 then 8 * c else (4 + c % 4) * 2 ^ (c / 4 - 1) * 8, c)
  | _ => [(0, 0), (16, 1), (32, 2), (48, 3)]

/-- Q of a block format as a multiple of 2^-5 (R104). -/
def gridMax (nf : Nat) : Nat :=
  match nf with
  | 0 => 832
  | 1 => 224
  | _ => 48

/-- A nonnegative binary32 magnitude as a multiple of 2^-149. -/
def mag32 (c : Nat) : Nat :=
  let m := c % 2 ^ 31
  if m < 2 ^ 23 then m else (2 ^ 23 + m % 2 ^ 23) * 2 ^ (m / 2 ^ 23 - 1)

/-- ceil_sc8 of amax / Q (R101), for amax > 0 in multiples of 2^-149: the least code whose value times Q reaches it. -/
def ceilSc8 (nf amax : Nat) : Nat :=
  -- sc8 * 2^-34 * Q * 2^-5 >= amax * 2^-149
  ((List.range 254).find? fun i => decide (amax ≤ sc8 (i + 1) * gridMax nf * 2 ^ 110)).elim 0xFE (· + 1)

/-- grid of |x| / S (R112): the magnitude code nearest to the exact quotient, a tie to an even code, and Q beyond Q. -/
def toGrid (nf x sc : Nat) : Nat :=
  let s := sc8 sc * 2 ^ 110
  let dist (g : Nat) : Nat := if g * s ≤ x then x - g * s else g * s - x
  let best := (grid nf).foldl (fun b g =>
    match b with
    | none => some g
    | some b => if dist g.1 < dist b.1 || (dist g.1 == dist b.1 && g.2 % 2 == 0) then some g else some b) none
  (best.map Prod.snd).getD 0

/-- Code width of a block format. -/
def codeWidth (nf : Nat) : Nat :=
  match nf with
  | 0 => 8
  | 1 => 6
  | _ => 4

/-- A quantised block (R112): S0, S1 and the element codes. -/
structure Quant where
  s0 : Nat
  s1 : Nat
  codes : List Nat
  deriving DecidableEq, Repr

/-- Quantises a block of binary32 codes (R112); `g` is G. In an all-zero block T is 0, so by the pseudocode of R112 every
element has sel 1; the tables of R113 and R115 show code 0 there, and the model follows the pseudocode (log 61, DEDUCED). -/
def quantise (nf g : Nat) (x : List Nat) : Quant :=
  let isNan (c : Nat) : Bool := decide (0x7F800000 < c % 2 ^ 31)
  let isInf (c : Nat) : Bool := c % 2 ^ 31 == 0x7F800000
  if x.any isNan then ⟨0xFF, 0xFF, x.map fun _ => 0⟩
  else
    let amax := (x.filter fun c => !isInf c).foldl (fun m c => max m (mag32 c)) 0
    -- |x| < T, with T = amax * 2^-G
    let below (c : Nat) : Bool := !isInf c && decide (mag32 c * 2 ^ g < amax)
    let s1 := if amax == 0 then 0 else ceilSc8 nf amax
    let alo := (x.filter below).foldl (fun m c => max m (mag32 c)) 0
    let s0 := if alo == 0 then 0 else ceilSc8 nf alo
    let w := codeWidth nf
    let code (c : Nat) : Nat :=
      let sel := if below c then 0 else 1
      let sc := if sel == 1 then s1 else s0
      let mag :=
        if isInf c then (if nf == 0 then 62 else 2 ^ (w - 2) - 1)
        else if sc == 0 then 0
        else toGrid nf (mag32 c) sc
      sel * 2 ^ (w - 1) + c / 2 ^ 31 * 2 ^ (w - 2) + mag
    ⟨s0, s1, x.map code⟩

/-- The blocks of a batch (R112), by sub-element and segment. -/
def Dev.blocks (d : Dev) (o : QuantOp) : List (List Quant) :=
  let n := if o.bl == 1 then 32 else 16
  let g := if o.g == 0 then 3 else o.g.toNat
  [0, 1].map fun j =>
    (segments n (d.vector o.va.toNat j)).map fun x =>
      quantise o.nf.toNat g (if o.hf == 0 then x else hadamard x)

/-- CVTNB (R113): the member's own codes in bytes 0 and 1. -/
def execCvtnb (o : QuantOp) (s : State) :=
  s.run (.cvtnb o) fun d =>
    let codes := (d.blocks o).map fun bs => (bs.map Quant.codes).flatten
    (d.writeV o.vd.toNat 6 fun f =>
      join [BitVec.ofNat 8 (nth (nth codes 0 []) f.lane 0), BitVec.ofNat 8 (nth (nth codes 1 []) f.lane 0)]).advLane o.stl

/-- CVTNBX (R113): the scale pairs of every block, in every member. -/
def execCvtnbx (o : QuantOp) (s : State) :=
  s.run (.cvtnbx o) fun d =>
    let bs := (d.blocks o).flatten
    (d.writeV o.vd.toNat 6 fun _ =>
      join ((bs.map fun b => [BitVec.ofNat 8 b.s0, BitVec.ofNat 8 b.s1]).flatten)).advLane o.stl

/-! ## PACK and UNPACK (R114, R115) -/

/-- PACK (R114): the low halves of the sub-elements of A below those of B. -/
def pack (w : Nat) (a b : W64) : W64 :=
  join (((List.range (64 / w)).map fun j => (elem w a j).setWidth (w / 2)) ++
    (List.range (64 / w)).map fun j => (elem w b j).setWidth (w / 2))

/-- UNPACK (R115): the fields of the half that bit 0 of B selects, zero-extended. -/
def unpack (w : Nat) (a b : W64) : W64 :=
  let half := a.extractLsb' (if b.getLsbD 0 then 32 else 0) 32
  perElem w fun j => (half.extractLsb' (w / 2 * j) (w / 2)).setWidth w

/-- PACK (R114). -/
def execPack (o : R3Op) (s : State) := regOp (.pack o) o 2 (fun a b _ => pack (widthOf o.ty) a b) s
/-- UNPACK (R115). -/
def execUnpack (o : R3Op) (s : State) := regOp (.unpack o) o 2 (fun a b _ => unpack (widthOf o.ty) a b) s

end Sys2Proof.Machine
end

