-- ==== Sys2Proof/Machine/CrossLane.lean ====
section
/-! DEFINITION. Cross-lane instructions, opcodes 0x48 to 0x53 (06: R120 to R130). The partner set is the batch. -/

namespace Sys2Proof.Machine

/-! ## SHFL, BCAST, QXCH (R121 to R125) -/

/-- The forms of SHFL. -/
inductive Shfl where
  | idx | xor | up | dn
  deriving DecidableEq, Repr

/-- Where sub-element `j` of home lane `l` comes from under index or distance `x` (R121, R122): a lane and a sub-element, or
nothing when the position runs off either end. -/
def shflFrom (form : Shfl) (n l j x : Nat) : Option (Nat × Nat) :=
  let lp := x / 8 % 32
  let sp := x % 8 % n
  match form with
  | .idx => some (lp, sp)
  | .xor => some (l ^^^ lp, j ^^^ sp)
  | .up => if l * n + j < lp * n + sp then none
           else some ((l * n + j - (lp * n + sp)) / n, (l * n + j - (lp * n + sp)) % n)
  | .dn => if 32 * n ≤ l * n + j + (lp * n + sp) then none
           else some ((l * n + j + (lp * n + sp)) / n, (l * n + j + (lp * n + sp)) % n)

/-- A shuffle of the register `va` of the batch (R122): the index of each fibre and sub-element is `x`. -/
def Dev.shuffle (d : Dev) (form : Shfl) (w va : Nat) (x : Nat → Nat) (f : Fibre) : W64 :=
  perElem w fun j =>
    match shflFrom form (64 / w) f.lane j (x j) with
    | some (sl, ss) => elem w (d.laneV va sl) ss
    | none => elem w (d.readV f va) j

/-- A register form of SHFL (R122). -/
def shflReg (i : Instr) (o : R3Op) (form : Shfl) (s : State) : Host.Outcome State Fault Refusal :=
  let w := widthOf o.ty
  s.run i fun d =>
    (d.writeV (laneNo o.hv o.vd) 6 fun f =>
      let b := d.readB f o.kb o.hv o.vb
      d.shuffle form w (laneNo o.hv o.va) (fun j => (elem w b j).toNat % 256) f).advLane o.stl

/-- A constant form of SHFL (R122, R123). -/
def shflImm (i : Instr) (o : Im8Op) (form : Shfl) (s : State) : Host.Outcome State Fault Refusal :=
  let w := widthOf o.ty
  s.run i fun d =>
    (d.writeV o.vd.toNat 6 fun f => d.shuffle form w o.va.toNat (fun _ => o.imm.toNat) f).advLane o.stl

/-- SHFL.idx (R122). -/
def execShflIdx (o : R3Op) (s : State) := shflReg (.shflIdx o) o .idx s
/-- SHFL.xor (R122). -/
def execShflXor (o : R3Op) (s : State) := shflReg (.shflXor o) o .xor s
/-- SHFL.up (R122). -/
def execShflUp (o : R3Op) (s : State) := shflReg (.shflUp o) o .up s
/-- SHFL.dn (R122). -/
def execShflDn (o : R3Op) (s : State) := shflReg (.shflDn o) o .dn s
/-- BCAST (R123). -/
def execBcast (o : Im8Op) (s : State) := shflImm (.bcast o) o .idx s
/-- SHFL.xor with a constant (R122). -/
def execShflXorConst (o : Im8Op) (s : State) := shflImm (.shflXorConst o) o .xor s
/-- SHFL.up with a constant (R122). -/
def execShflUpConst (o : Im8Op) (s : State) := shflImm (.shflUpConst o) o .up s
/-- SHFL.dn with a constant (R122). -/
def execShflDnConst (o : Im8Op) (s : State) := shflImm (.shflDnConst o) o .dn s

/-- QXCH (R125): the partner's place in the quad is XORed with 1, 2 or 3. -/
def execQxch (o : Im8Op) (s : State) :=
  s.run (.qxch o) fun d =>
    (d.writeV o.vd.toNat 6 fun f => d.laneV o.va.toNat (f.lane ^^^ (o.imm.toNat + 1))).advLane o.stl

/-! ## Votes and MATCH (R126, R127) -/

/-- The contributors (R126): active fibres that are no helpers, in home-lane order. -/
def Dev.contributors (d : Dev) : List Fibre := sortBy Fibre.lane (d.active.filter fun f => !f.helper)

/-- The map of the contributors whose sub-element satisfies `p`. -/
def laneMap (w : Nat) (xs : List (Nat × BitVec w)) (p : BitVec w → Bool) : BitVec w :=
  xs.foldl (fun m x => if p x.2 then m ||| (1 <<< x.1) else m) 0

/-- Sub-element `j` of each contributor with its home lane. -/
def Dev.votes (d : Dev) (w va j : Nat) : List (Nat × BitVec w) :=
  d.contributors.map fun f => (f.lane, elem w (d.readV f va) j)

/-- The result of a vote (R126). -/
def vote (w form : Nat) (xs : List (Nat × BitVec w)) : BitVec w :=
  let bit (b : Bool) : BitVec w := if b then 1 else 0
  match form with
  | 0 => bit (xs.any fun x => x.2 != 0)
  | 1 => bit (xs.all fun x => x.2 != 0)
  | 2 => bit (match xs with | [] => true | y :: l => l.all fun x => x.2 == y.2)
  | _ => laneMap w xs fun x => x != 0

/-- VOTE (R126). -/
def execVote (o : VoteOp) (s : State) :=
  let w := widthOf o.ty
  s.run (.vote o) fun d =>
    let r := perElem w fun j => vote w o.form.toNat (d.votes w (laneNo o.hv o.va) j)
    (d.writeV (laneNo o.hv o.vd) 6 fun _ => r).advLane o.stl

/-- MATCH (R127). -/
def execMatchLanes (o : UnOp) (s : State) :=
  let w := widthOf o.ty
  s.run (.matchLanes o) fun d =>
    (d.writeV (laneNo o.hv o.vd) 6 fun f =>
      perElem w fun j =>
        laneMap w (d.votes w (laneNo o.hv o.va) j) (· == elem w (d.readV f (laneNo o.hv o.va)) j)).advLane o.stl

/-! ## Reductions and scans (R128, R129) -/

/-- One step of a reduction and the empty value, by sub-code: `f` has RM and FTZ of the chosen member. -/
def redStep (op : Nat) (ty : BitVec 2) (rm : Rm) (ftz : Bool) {w : Nat} (a b : BitVec w) : BitVec w :=
  let g := FFmt.ofTy ty
  match op with
  | 0 => a + b
  | 1 => if a.sle b then a else b
  | 2 => if a.ule b then a else b
  | 3 => if a.sle b then b else a
  | 4 => if a.ule b then b else a
  | 8 => BitVec.ofNat w (g.addC rm ftz a.toNat b.toNat)
  | 9 => BitVec.ofNat w (g.write rm ftz (.minNum (g.read ftz a.toNat) (g.read ftz b.toNat)))
  | _ => BitVec.ofNat w (g.write rm ftz (.maxNum (g.read ftz a.toNat) (g.read ftz b.toNat)))

/-- The empty value of a reduction (R129). -/
def redEmpty (op : Nat) (ty : BitVec 2) (w : Nat) : BitVec w :=
  let g := FFmt.ofTy ty
  match op with
  | 0 => 0
  | 1 => BitVec.ofNat w (2 ^ (w - 1) - 1)
  | 2 => BitVec.allOnes w
  | 3 => BitVec.ofNat w (2 ^ (w - 1))
  | 4 => 0
  | 8 => 0
  | 9 => BitVec.ofNat w g.infCode
  | _ => BitVec.ofNat w (g.signBit + g.infCode)

/-- Joins two places of the tree, either of which may be absent. -/
def redJoin {w : Nat} (op : BitVec w → BitVec w → BitVec w) : Option (BitVec w) → Option (BitVec w) → Option (BitVec w)
  | some a, some b => some (op a b)
  | some a, none => some a
  | none, b => b

/-- Neighbouring places joined in pairs: one level of the tree of R128. -/
def redLevel {w : Nat} (op : BitVec w → BitVec w → BitVec w) : List (Option (BitVec w)) → List (Option (BitVec w))
  | a :: b :: l => redJoin op a b :: redLevel op l
  | l => l

/-- The tree of R128 over 32 places. -/
def redTree {w : Nat} (op : BitVec w → BitVec w → BitVec w) (x : List (Option (BitVec w))) : Option (BitVec w) :=
  (redLevel op (redLevel op (redLevel op (redLevel op (redLevel op x))))).head?.join

/-- The inclusive prefix of R129 up to home lane `l`: a walk over the lanes. -/
def scanTo {w : Nat} (op : BitVec w → BitVec w → BitVec w) (x : Nat → Option (BitVec w)) (l : Nat) : Option (BitVec w) :=
  (List.range (l + 1)).foldl (fun acc i => redJoin op acc (x i)) none

/-- Sub-element `j` of the contributor at each home lane. -/
def Dev.voteAt (d : Dev) (w va j l : Nat) : Option (BitVec w) := ((d.votes w va j).find? fun y => y.1 == l).map Prod.snd

/-- Width of a WRED or WSCAN by its sub-code's reading (R130). -/
def redWidth (o : RedOp) : Nat := if o.op.toNat ≤ 4 then widthOf o.ty else fwidthOf o.ty

/-- The member with the lowest home lane, whose FPCTL governs float forms (R128). -/
def Dev.chief (d : Dev) : Fibre → Fibre := fun f => ((sortBy Fibre.lane d.active).head?).getD f

/-- WRED (R128). -/
def execWred (o : RedOp) (s : State) :=
  let w := redWidth o
  s.run (.wred o) fun d =>
    (d.writeV (laneNo o.hv o.vd) 6 fun f =>
      let c := d.chief f
      perElem w fun j =>
        (redTree (redStep o.op.toNat o.ty c.rm c.ftz) ((List.range 32).map (d.voteAt w (laneNo o.hv o.va) j))).getD (redEmpty o.op.toNat o.ty w)).advLane o.stl

/-- WSCAN (R129). -/
def execWscan (o : RedOp) (s : State) :=
  let w := redWidth o
  s.run (.wscan o) fun d =>
    (d.writeV (laneNo o.hv o.vd) 6 fun f =>
      let c := d.chief f
      perElem w fun j =>
        (scanTo (redStep o.op.toNat o.ty c.rm c.ftz) (d.voteAt w (laneNo o.hv o.va) j) f.lane).getD
          (redEmpty o.op.toNat o.ty w)).advLane o.stl

end Sys2Proof.Machine
end

