-- ==== Sys2Proof/Machine/Area.lean ====
section
/-! DEFINITION. Who may touch what on a core: extents and window grants (R38, R188, R282 to R284), the walk's guards (R200),
the shutter table (R293 to R297), the elements of a copy (R176, R287), and free room in the register banks (R14, R138). -/

namespace Sys2Proof.Machine

/-! ## Extents -/

/-- Whether a context holds a scratchpad unit on a core (R38). -/
def Dev.holdsUnit (d : Dev) (ctx core u : Nat) : Bool :=
  d.groups.any fun g => g.ctx == ctx && g.core == core && g.spad.any fun e => decide (e.first ≤ u) && decide (u < e.first + e.len)

/-- The live walk of a context on a core. -/
def Dev.walkOf (d : Dev) (ctx core : Nat) : Option WalkEng := (d.core core).walk.filter fun w => w.ctx == ctx

/-- Whether a context holds an accumulator slot on a core (R38, R188). -/
def Dev.holdsSlot (d : Dev) (ctx core s : Nat) : Bool :=
  (d.groups.any fun g => g.ctx == ctx && g.core == core && g.aslots.contains s) ||
  (match d.walkOf ctx core with | some w => w.slots.contains s | none => false)

/-- The pane that holds a granule. -/
def WalkEng.paneAt (w : WalkEng) (g : Nat) : Option Pane :=
  w.panes.find? fun p => p.st != .free && decide (p.base ≤ g) && decide (g < p.base + p.ngr)

/-- Whether a context holds a pane granule on a core (R38, R188). -/
def Dev.holdsGranule (d : Dev) (ctx core g : Nat) : Bool :=
  match d.walkOf ctx core with
  | some w => (w.paneAt g).isSome
  | none => false

/-- Local memories in a core's slot: 1 scratchpad, 2 accumulator, 3 operand buffer; the place of an offset (R278). -/
def localOff (space off : Nat) : Nat := off + (space - 1) * 0x100000

/-- The size of a local memory (R37). -/
def localSize (space : Nat) : Nat := if space == 2 then 0x40000 else 0x80000

/-- Whether a context holds the byte at an offset of a core's slot: scratchpad, accumulator or operand buffer (R38, R282). -/
def Dev.holdsByte (d : Dev) (ctx core o : Nat) : Bool :=
  if o < 0x80000 then d.holdsUnit ctx core (o / 0x1000)
  else if 0x100000 ≤ o ∧ o < 0x140000 then d.holdsSlot ctx core ((o - 0x100000) / 0x4000)
  else if 0x200000 ≤ o ∧ o < 0x280000 then d.holdsGranule ctx core ((o - 0x200000) / 0x1000)
  else false

/-- Whether a context holds a range of a core's slot. A range crosses at most a few units: its bytes are looked at one 4 KiB
unit at a time. -/
def Dev.holdsRange (d : Dev) (ctx core o n : Nat) : Bool :=
  (List.range (n / 0x1000 + 2)).all fun i =>
    let a := if i == 0 then o else (o / 0x1000 + i) * 0x1000
    decide (o + n ≤ a) || d.holdsByte ctx core a

/-- Whether a group has handed off the byte at an offset of a core's slot and not been handed it back (R178). -/
def Group.gave (g : Group) (core o : Nat) : Bool :=
  core == g.core &&
  if o < 0x80000 then g.gaveUnits.any fun e => decide (e.first ≤ o / 0x1000) && decide (o / 0x1000 < e.first + e.len)
  else 0x100000 ≤ o && o < 0x140000 && g.gaveSlots.contains ((o - 0x100000) / 0x4000)

/-- Whether a group may touch the byte at an offset of a core's slot: its context holds it (R38), and the group has not handed it off
(R178). -/
def Dev.mayTouch (d : Dev) (g : Group) (core o : Nat) : Bool := d.holdsByte g.ctx core o && !g.gave core o

/-- Whether a group may touch a range of a core's slot. -/
def Dev.mayTouchRange (d : Dev) (g : Group) (core o n : Nat) : Bool :=
  d.holdsRange g.ctx core o n && (List.range (n / 0x1000 + 2)).all fun i =>
    let a := if i == 0 then o else (o / 0x1000 + i) * 0x1000
    decide (o + n ≤ a) || !g.gave core a

/-! ## Register grants (R283) -/

/-- Whether a grant covers bank register `i` of a home lane. -/
def RegGrant.covers (r : RegGrant) (lane i : Nat) : Bool :=
  r.lmask.getLsbD lane && decide (r.base ≤ i) && decide (i < r.base + 8 * r.nreg)

/-- Whether an open grant of a context covers a bank register of a core (R282); one whose lapse still waits is open (R284). -/
def Dev.granted (d : Dev) (ctx core lane i : Nat) : Bool :=
  (d.groups.any fun g => g.ctx == ctx && g.core == core && g.grants.any fun r =>
    match r with
    | some r => r.covers lane i
    | none => false) ||
  d.heldGrants.any fun h => h.ctx == ctx && h.core == core && h.grant.covers lane i

/-- The unretired fibre whose window holds a bank register (R14). -/
def Dev.regOwner (d : Dev) (core lane i : Nat) : Option Fibre :=
  d.fibres.find? fun f => f.core == core && f.lane == lane && decide (f.winbase ≤ i) && decide (i < f.winbase + f.win.length)

/-! ## Registers as bytes of the physical map (R279, R304) -/

/-- Physical address of byte `b` of bank register `i` of a home lane (R279). -/
def regByte (core lane i b : Nat) : Nat := slotBase core + 0x400000 + (i * 32 + lane) * 8 + b

/-- Whether an address lies in a register file (R278). -/
def isRegAddr (a : Nat) : Bool :=
  match onchipCore a with
  | some c => decide (slotBase c + 0x400000 ≤ a) && decide (a < slotBase c + 0x480000)
  | none => false

/-- Core, home lane and bank register of an address in a register file. -/
def regAt (a : Nat) : Nat × Nat × Nat :=
  let c := (a - slotsBase) / 0x800000
  let x := (a - slotBase c - 0x400000) / 8
  (c, x % 32, x / 32)

/-- The register at a double-word of a register file; one of no window reads 0. -/
def Dev.regWord (d : Dev) (a : Nat) : W64 :=
  match d.regOwner (regAt a).1 (regAt a).2.1 (regAt a).2.2 with
  | some f => f.vreg ((regAt a).2.2 - f.winbase)
  | none => 0

/-- Writes the register at a double-word of a register file; one of no window is not written. -/
def Dev.setRegWord (d : Dev) (a : Nat) (v : W64) : Dev :=
  match d.regOwner (regAt a).1 (regAt a).2.1 (regAt a).2.2 with
  | some f => d.updFibre (regAt a).1 f.slot (regAt a).2.1 fun f => { f with win := f.win.set ((regAt a).2.2 - f.winbase) v }
  | none => d

/-- Lines of register files that hold unpublished or narrowly published bytes. -/
def MemSys.regLines (ms : MemSys) : List Nat :=
  dedup (((ms.own.flatMap fun v => v.mem.map Prod.fst) ++ ms.pub.map PubByte.addr).filter isRegAddr |>.map (· / 64))

/-- An operation on what the cores see, with the registers of the listed lines as bytes of memory while it is done: another core's
registers are far bytes like any other (R304, R318). -/
def Dev.onView (d : Dev) (lines : List Nat) (op : MemSys → α × MemSys) : α × Dev :=
  let ws := (dedup lines).flatMap fun l => (List.range 8).map fun k => l * 64 + 8 * k
  let seen : MemSys := { d.ms with mem := ws.foldl (fun m a => m.write a (leBytes 8 (d.regWord a).toNat)) d.ms.mem }
  let r := op seen
  let put (e : Dev) (a : Nat) : Dev :=
    let v : W64 := BitVec.ofNat 64 (leVal (r.2.mem.read a 8))
    if v == d.regWord a then e else e.setRegWord a v
  let back := ws.foldl (fun m a => m.write a (d.ms.mem.read a 8)) r.2.mem
  (r.1, { ws.foldl put d with ms := { r.2 with mem := back } })

/-- The same for an operation without an answer; it may publish any register byte that is held back. -/
def Dev.onMs (d : Dev) (lines : List Nat) (op : MemSys → MemSys) : Dev :=
  (d.onView (lines ++ d.ms.regLines) fun ms => ((), op ms)).2

/-- The line of an address, where it lies in a register file. -/
def regLine (a : Nat) : List Nat := if isRegAddr a then [a / 64] else []

/-! ## On-chip window addresses (R278, R280, R282) -/

/-- What a `.w` address names. -/
inductive Spot where
  /-- A byte of a local memory, at an offset of a core's slot. -/
  | mem (core off : Nat)
  /-- Byte `byte` of bank register `idx` of a home lane. -/
  | reg (core lane idx byte : Nat)
  /-- An offset of the issuing core's control page. -/
  | ctl (off : Nat)
  /-- An offset of the debug mailbox alias of a function. -/
  | dbg (vf off : Nat)
  deriving DecidableEq, Repr

/-- The spot an offset of a slot names; the control page only through the alias. -/
def spotOff (core o : Nat) (alias_ : Bool) : Option Spot :=
  if o < 0x80000 ∨ (0x100000 ≤ o ∧ o < 0x140000) ∨ (0x200000 ≤ o ∧ o < 0x280000) then some (.mem core o)
  else if 0x400000 ≤ o ∧ o < 0x480000 then
    let x := o - 0x400000
    some (.reg core (x / 8 % 32) (x / 256) (x % 8))
  else if 0x7F0000 ≤ o ∧ o < 0x800000 ∧ alias_ then some (.ctl (o - 0x7F0000))
  else none

/-- The spot a `.w` address names for a party of `core`; nothing where R277 and R278 put no window. -/
def spotOf (core a : Nat) : Option Spot :=
  if slotsBase ≤ a ∧ a < slotsBase + 0x100000000 then
    spotOff ((a - slotsBase) / 0x800000) ((a - slotsBase) % 0x800000) false
  else if 0xFE0100000000 ≤ a ∧ a < 0xFE0100800000 then spotOff core (a - 0xFE0100000000) true
  else if 0xFE0101000000 ≤ a ∧ a < 0xFE0101040000 then
    some (.dbg ((a - 0xFE0101000000) / 0x1000) ((a - 0xFE0101000000) % 0x1000))
  else none

/-- Whether a `.w` address is a direct address in the core's own slot (R286). -/
def isOwnDirect (core a : Nat) : Bool := decide (slotBase core ≤ a) && decide (a < slotBase core + 0x800000)

/-- Function of a context. -/
def Dev.vfOf (d : Dev) (ctx : Nat) : Nat := ((d.hub.ctx? ctx).map Ctx.vf).getD 0

/-- Whether a spot lies inside a context's grants for a fibre access (R282). The control page has rules of its own (R281). -/
def Dev.spotHeld (d : Dev) (ctx : Nat) : Spot → Bool
  | .mem core o => d.holdsByte ctx core o
  | .reg core lane i _ => d.granted ctx core lane i
  | .ctl _ => true
  | .dbg vf off => vf == d.vfOf ctx && decide (0x100 ≤ off) && decide (off < 0x180)

/-- The physical address of a spot in memory. -/
def Spot.phys : Spot → Nat
  | .mem core o => slotBase core + o
  | .reg core lane i b => regByte core lane i b
  | .ctl o => 0xFE01007F0000 + o
  | .dbg vf o => 0xFE0101000000 + vf * 0x1000 + o

/-! ## Guards (R200, R295) -/

/-- Whether a live upcall opens an accumulator slot: PC, DRAIN or TOPK, delivered (R200). -/
def WalkEng.slotOpen (w : WalkEng) (s : Nat) : Bool :=
  w.ups.any fun u =>
    (match u.st with | .delivered _ => true | _ => false) && (u.kind == 2 || u.kind == 4 || u.kind == 5) &&
    bitsOf (nth u.args 0 0).toNat 16 4 == s

/-- The walk's guard on a byte of a core's slot (R200). -/
def Dev.walkGuard (d : Dev) (core o : Nat) : Bool :=
  match (d.core core).walk with
  | none => false
  | some w =>
    if 0x100000 ≤ o ∧ o < 0x140000 then
      let s := (o - 0x100000) / 0x4000
      w.slots.contains s && !w.slotOpen s
    else if 0x200000 ≤ o ∧ o < 0x280000 then
      match w.paneAt ((o - 0x200000) / 0x1000) with
      | some p => p.st == .filled || p.st == .inUse
      | none => false
    else false

/-- Whether a live shutter entry or a walk guard stops an access to `n` bytes at an offset of a core's slot (R151, R295). -/
def Dev.shuttered (d : Dev) (core o n : Nat) (isStore : Bool) : Bool :=
  d.walkGuard core o ||
  (d.core core).shut.any fun e => (e.kind == 2 || (e.kind == 1 && isStore)) && overlaps o n e.first (e.last - e.first)

/-! ## Elements of a copy (R176, R287) -/

/-- Elements of a copy. -/
def Copy.total (c : Copy) : Nat := c.counts.foldl (· * ·) 1

/-- Element number `i` on the strided side, in elements from its base: indices are counted with i0 innermost. -/
def strideOff : List Nat → List Int → Nat → Int
  | n :: ns, s :: ss, i => (i % n : Nat) * s + strideOff ns ss (i / n)
  | _, _, _ => 0

/-- Source address of an element. -/
def Copy.srcAt (c : Copy) (i : Nat) : Int :=
  if c.scat then c.src + i * 2 ^ c.esz else c.src + strideOff c.counts c.strides i * 2 ^ c.esz

/-- Destination address of an element. -/
def Copy.dstAt (c : Copy) (i : Nat) : Int :=
  if c.scat then c.dst + strideOff c.counts c.strides i * 2 ^ c.esz else c.dst + i * 2 ^ c.esz

/-- Least and greatest element offset of the strided side, in elements (R293). -/
def strideSpan : List Nat → List Int → Int × Int
  | n :: ns, s :: ss =>
    let r := strideSpan ns ss
    let e := ((n : Int) - 1) * s
    (r.1 + min 0 e, r.2 + max 0 e)
  | _, _ => (0, 0)

/-- The bounding interval of a side of a copy: first byte and bytes (R293). -/
def Copy.span (c : Copy) (dst : Bool) : Int × Nat :=
  let base : Int := if dst then c.dst else c.src
  let e := 2 ^ c.esz
  if dst == c.scat then
    let r := strideSpan c.counts c.strides
    (base + r.1 * e, ((r.2 - r.1 + 1) * e).toNat)
  else (base, c.total * 2 ^ c.esz)

/-- Live copies of the device. -/
def Dev.copies (d : Dev) : List Copy := (d.cores.map fun c => (c.chans.map Chan.reqs).flatten).flatten

/-- Address of an element of a side. -/
def Copy.at_ (c : Copy) (dst : Bool) (i : Nat) : Int := if dst then c.dstAt i else c.srcAt i

/-- Space of a side. -/
def Copy.sp (c : Copy) (dst : Bool) : Nat := if dst then c.dsp else c.ssp

/-- The local memory of a core's slot that an offset lies in: 0 scratchpad, 1 accumulator memory, 2 operand buffer (R278). -/
def memOf (o : Nat) : Nat := o / 0x100000

/-- The intervals that a side takes in local memories, each with its core, slot offset and bytes: the bounding interval of the
elements in each (R293). -/
def Copy.parts (c : Copy) (core : Nat) (dst : Bool) : List (Nat × Nat × Nat) :=
  if c.sp dst == 0 then []
  else
    let s := c.span dst
    let byElement : List (Nat × Nat × Nat) :=
      let os := (List.range c.total).filterMap fun i => match spotOf core (c.at_ dst i).toNat with | some (.mem k o) => some (k, o) | _ => none
      (dedup (os.map fun p => (p.1, memOf p.2))).map fun m =>
        let mine := (os.filter fun p => (p.1, memOf p.2) == m).map Prod.snd
        let lo := mine.foldl min (mine.headD 0)
        (m.1, lo, mine.foldl max 0 + 2 ^ c.esz - lo)
    match spotOf core s.1.toNat, spotOf core (s.1.toNat + s.2 - 1) with
    | some (.mem k o), some (.mem l p) => if k == l && memOf o == memOf p then [(k, o, s.2)] else byElement
    | some (.reg k _ _ _), some (.reg l _ _ _) => if k == l then [] else byElement
    | _, _ => byElement

/-- Whether a copy has an element of its destination in bank registers [i, i + n) of a home lane of a core (R284). -/
def Copy.writesRegs (c : Copy) (core lane i n : Nat) : Bool :=
  (c.dsp == 4) && (List.range c.total).any fun k =>
    match spotOf core (c.dstAt k).toNat with
    | some (.reg rc rl ri _) => rc == core && rl == lane && decide (i ≤ ri) && decide (ri < i + n)
    | _ => false

/-- Live copies with a destination in a grant on a core (R284). -/
def Dev.copiesInto (d : Dev) (core : Nat) (r : RegGrant) : List Copy :=
  d.copies.filter fun c => (List.range 32).any fun l => r.lmask.getLsbD l && c.writesRegs core l r.base (8 * r.nreg)

/-- Whether a live copy has a destination in a grant of a group (R284). -/
def Dev.copyInto (d : Dev) (g : Group) (r : RegGrant) : Bool := !(d.copiesInto g.core r).isEmpty

/-- Windows and grants whose copies are all complete are kept no longer (R284). -/
def Dev.dropHeld (d : Dev) : Dev :=
  { d with
    heldWins := d.heldWins.filter fun w => d.copies.any fun c => w.copies.contains c.order
    heldGrants := d.heldGrants.filter fun h => !(d.copiesInto h.core h.grant).isEmpty }

/-! ## Room in the register banks (R14, R138, R284) -/

/-- Runs of a home lane's bank that are not free: windows of unretired fibres, and retired ones that copies keep. -/
def Dev.bankUsed (d : Dev) (core lane : Nat) : List (Nat × Nat) :=
  (d.fibres.filterMap fun f => if f.core == core && f.lane == lane then some (f.winbase, f.win.length) else none) ++
  d.heldWins.filterMap fun w =>
    if w.core == core && w.lane == lane && d.copies.any (fun c => w.copies.contains c.order) then some (w.base, w.len) else none

/-- The lowest WINBASE at which `n` consecutive registers are free. -/
def freeWindow (used : List (Nat × Nat)) (n : Nat) : Option Nat :=
  ((List.range 256).find? fun i =>
    decide (8 * i + n ≤ 2048) && used.all fun u => !overlaps (8 * i) n u.1 u.2).map (8 * ·)

/-- Runs of every bank that a class may not use (R363): the highest registers are class 0's (log 18); classes 4 and 5 stand for class 0
confined to its reserve. -/
def Dev.bankKept (d : Dev) (cls : Nat) : List (Nat × Nat) :=
  if cls == 4 || cls == 5 then [(0, 2048 - d.hub.rb)]
  else if cls == 0 || d.hub.rb == 0 then [] else [(2048 - d.hub.rb, d.hub.rb)]

/-! ## What changes hands (R8) -/

/-- Whether an address is a byte of `n` bank registers of a home lane of a core. -/
def isWindow (core lane base n a : Nat) : Bool :=
  isRegAddr a && (regAt a).1 == core && (regAt a).2.1 == lane && decide (base ≤ (regAt a).2.2) && decide ((regAt a).2.2 < base + n)

/-- Windows (home lane, first register, registers) and ranges of a core's slot (offset, bytes) are given out: stores of earlier holders to
them that are still held back do not reach the new one (R8). -/
def Dev.giveOut (d : Dev) (core : Nat) (ws : List (Nat × Nat × Nat)) (rs : List (Nat × Nat)) : Dev :=
  d.updMs fun ms => ms.forget fun a =>
    (ws.any fun w => isWindow core w.1 w.2.1 w.2.2 a) ||
    rs.any fun r => decide (slotBase core + r.1 ≤ a) && decide (a < slotBase core + r.1 + r.2)

/-- Where FORK puts the new fibre of a fibre: the lowest warp slot of its group with an empty position at its home lane, and
a window (R138). -/
def Dev.forkPlace (d : Dev) (f : Fibre) : Option (Nat × Nat) :=
  match d.warp? f.core f.slot with
  | none => none
  | some w =>
    match d.group? w.gid with
    | none => none
    | some g =>
      match (sortBy id g.slots).find? fun s => (d.warp? f.core s).isSome && (d.fibre? f.core s f.lane).isNone with
      | none => none
      | some s => (freeWindow (d.bankUsed f.core f.lane ++ d.bankKept g.cls) f.win.length).map fun b => (s, b)

end Sys2Proof.Machine
end

