-- ==== Sys2Proof/Machine/SaveArea.lean ====
section
/-! DEFINITION. The save area of a group (10: R267; 01: R40): its layout, read and written through stage 2 alone (19: R341), and what
changes it while the group is saved (07: R170, 10: R251, R269, 22: R404). The order within warp and fibre records is in log 23. -/

namespace Sys2Proof.Machine

/-! ## Bytes behind an IPA (R341) -/

/-- Translates every page of a range of IPAs for an access: each page's IPA and address. -/
def Dev.ipaPages (d : Dev) (vf ipa n acc : Nat) : Except FaultUnit (List (Nat × Nat)) :=
  (List.range ((ipa + n - 1) / 4096 + 1 - ipa / 4096)).mapM fun i => do
    let p := (ipa / 4096 + i) * 4096
    let a ← d.translateIpa vf p acc
    pure (p, a)

/-- The address of an IPA through translated pages. -/
def pageAddr (ps : List (Nat × Nat)) (ipa : Nat) : Nat :=
  match ps.find? fun p => p.1 == ipa / 4096 * 4096 with
  | some p => p.2 + ipa % 4096
  | none => 0

/-- Writes bytes through translated pages. -/
def MemSys.pokeIpa (ps : List (Nat × Nat)) : Nat → List Byte → MemSys → MemSys
  | _, [], ms => ms
  | a, b :: l, ms => pokeIpa ps (a + 1) l (ms.setAll .hub (pageAddr ps a) b)

/-- Reads `n` bytes at an IPA at SYSTEM scope. -/
def Dev.readIpa (d : Dev) (vf ipa n : Nat) : Except FaultUnit (List Byte) := do
  let ps ← d.ipaPages vf ipa n 1
  pure ((List.range n).map fun i => d.ms.mem.get (pageAddr ps (ipa + i)))

/-- Writes bytes at an IPA. -/
def Dev.writeIpa (d : Dev) (vf ipa : Nat) (b : List Byte) : Except FaultUnit Dev := do
  let ps ← d.ipaPages vf ipa b.length 2
  pure (d.updMs fun ms => MemSys.pokeIpa ps ipa b ms)

/-! ## What a fibre goes on from -/

/-- HOMELANE (R33). -/
def Fibre.homelane (f : Fibre) : W64 := BitVec.ofNat 64 (f.lane + if f.helper then 256 else 0)

/-- A bit per pending slot that satisfies `p`. -/
def Warp.bitsOfSlots (w : Warp) (p : PSlot → Bool) : Nat :=
  (w.pend.zipIdx.map fun x => if (match x.1 with | some s => p s | none => false) then 2 ^ x.2 else 0).foldl (· + ·) 0

/-- PEND (R167). -/
def Warp.pendWord (w : Warp) : W64 :=
  BitVec.ofNat 64 (w.bitsOfSlots (fun _ => true) * 2 ^ 16 + w.bitsOfSlots fun s => s.latched.isSome)

/-- Whether a fibre waits at barrier `n`. -/
def Fibre.atBar (n : Nat) (f : Fibre) : Bool := f.wait == .bar n
/-- Whether a fibre waits at team barrier `n`. -/
def Fibre.atTbar (n : Nat) (f : Fibre) : Bool := f.wait == .tbar n

/-- Where a fibre of a resumed group continues (R251). -/
def Fibre.resume (f : Fibre) (now : Nat) : Fibre :=
  if f.trapped then
    let f := { f with trapped := false, units := [], wait := .none, age := now, ready := now + 1 }
    if f.trapcause.getLsbD 16 then { f with pc := f.repc.setWidth 48, mdone := f.mdone &&& ~~~((1 : W64) <<< 48) }
    else if f.trapcause.extractLsb' 0 8 == 18#8 then { f with pc := f.trappc.setWidth 48 + 4 }
    else { f with pc := f.trappc.setWidth 48 }
  else f

/-! ## Tokens and pending slots (R165 to R168) -/

/-- KIND of a token. -/
def tokKind (t : W32) : Nat := bitsOf t.toNat 28 4
/-- NAME of a token. -/
def tokName (t : W32) : Nat := bitsOf t.toNat 0 28

/-- Core field of a mailbox token. -/
def tokCore (t : W32) : Nat := bitsOf t.toNat 18 10

/-- A token as a party of a core means it: core 0x3FF of a mailbox is the own core. -/
def normTok (core : Nat) (t : W32) : Nat :=
  if tokKind t == 3 && tokCore t == 0x3FF then t.toNat - 0x3FF * 2 ^ 18 + core * 2 ^ 18 else t.toNat

/-- Whether two tokens name one event on a core. -/
def sameTok (core : Nat) (a b : W32) : Bool := normTok core a == normTok core b

/-- The slot of a warp that holds a token. -/
def Warp.slotOf (w : Warp) (t : W32) : Option Nat :=
  w.pend.findIdx? fun s => match s with | some s => sameTok w.core s.token t | none => false

/-- The contents of a slot. -/
def Warp.pslot (w : Warp) (i : Nat) : Option PSlot := nth w.pend i none

/-- Whether a token is armed in a slot that holds no arrival. -/
def Warp.armedFree (w : Warp) (t : W32) : Option Nat :=
  (w.slotOf t).filter fun i => match w.pslot i with | some s => s.latched.isNone | none => false

/-- Latches an arrival. -/
def Warp.latch (w : Warp) (i : Nat) (p : W64) (sc : Nat) : Warp :=
  { w with pend := w.pend.set i ((w.pslot i).map fun s => { s with latched := some p, scope := sc }) }

/-! ## The group save area (R267) -/

/-- Wait state of a fibre record: none, BAR n, TBAR n, REJOIN, FORK, RECUR. -/
def Wait.code : Wait → Nat
  | .bar n => 1 + n * 256
  | .tbar n => 2 + n * 256
  | .rejoin _ => 3
  | .fork => 4
  | .recur => 5
  | _ => 0

/-- Eight little-endian bytes. -/
def b8 (v : W64) : List Byte := leBytes 8 v.toNat

/-- A fibre record: its 256-byte header and its window. -/
def Fibre.record (f : Fibre) : List Byte :=
  b8 (sext48 f.pc) ++ b8 f.predWord ++ b8 f.homelane ++ leBytes 8 f.win.length ++ leBytes 8 f.wait.code ++ b8 f.fpctl ++
  leBytes 8 f.lp0.count.toNat ++ leBytes 8 f.lp1.count.toNat ++ leBytes 8 f.lp2.count.toNat ++
  b8 (sext48 f.lp0.start) ++ b8 (sext48 f.lp1.start) ++ b8 (sext48 f.lp2.start) ++
  b8 (sext48 f.lp0.last) ++ b8 (sext48 f.lp1.last) ++ b8 (sext48 f.lp2.last) ++
  b8 f.trapcause ++ b8 f.trappc ++ b8 f.trapaddr ++ b8 f.ilenc ++ b8 f.ilf0 ++ b8 f.ilf1 ++ b8 f.ilf2 ++ b8 f.ilf3 ++
  b8 f.rec_ ++ b8 f.repc ++ b8 f.mdone ++ leBytes 48 0 ++ f.win.flatMap b8

/-- Bytes of a fibre record. -/
def Fibre.recordLen (f : Fibre) : Nat := 256 + 8 * f.win.length

/-- An instruction address of a record: bits [47:2] (R6). -/
def areaAddr (v : W64) : Addr48 := v.setWidth 48 &&& ~~~(3 : Addr48)

/-- The wait state of a record. -/
def waitOf (v : Nat) : Wait :=
  match v % 256 with
  | 1 => .bar (v / 256 % 8)
  | 2 => .tbar (v / 256 % 8)
  | 3 => .rejoin 0
  | 4 => .fork
  | 5 => .recur
  | _ => .none

/-- A fibre with what its record holds read back, res0 bits ignored (R6); its home lane and window size stay. -/
def Fibre.reload (f : Fibre) (b : List Byte) : Fibre :=
  let w (i : Nat) : W64 := BitVec.ofNat 64 (fieldOf b (8 * i) 8)
  let a (i : Nat) : Addr48 := areaAddr (w i)
  let c (i : Nat) : BitVec 32 := (w i).setWidth 32
  { f with
    pc := a 0, pred := w 1, wait := waitOf (w 4).toNat, fpctl := w 5 &&& 7
    lp0 := ⟨c 6, a 9, a 12⟩, lp1 := ⟨c 7, a 10, a 13⟩, lp2 := ⟨c 8, a 11, a 14⟩
    trapcause := w 15 &&& 0x3FF00030CFF, trappc := sext48 (a 16), trapaddr := w 17, ilenc := w 18
    ilf0 := w 19 &&& 0xFFFFFF00FFFFFF0F, ilf1 := w 20, ilf2 := w 21, ilf3 := w 22
    rec_ := w 23, repc := sext48 (a 24), mdone := w 25 &&& 0xFF01FFFFFFFFFFFC
    win := (List.range f.win.length).map fun i => BitVec.ofNat 64 (fieldOf b (256 + 8 * i) 8) }

/-- A warp record: 512 bytes. -/
def Warp.record (w : Warp) (parked evicted : Bool) : List Byte :=
  let flags := (if w.occ.isSome then 1 else 0) + (if w.masked then 2 else 0) + (if parked then 4 else 0) + (if evicted then 8 else 0)
  let slot (i : Nat) : Option PSlot := nth w.pend i none
  leBytes 8 w.warpid ++ leBytes 8 flags ++ leBytes 8 w.budget ++ b8 w.pendWord ++ leBytes 8 w.evmask.toNat ++
  ((List.range 16).flatMap fun i => leBytes 4 (((slot i).map fun s => s.token.toNat).getD 0)) ++
  ((List.range 16).flatMap fun i => b8 (((slot i).bind PSlot.latched).getD 0)) ++ w.kd.flatMap b8 ++ leBytes 208 0

/-- A pending slot with its record read back: its token, and the payload where LATCHED is set. The scope of a delivery is not in the
record: it stays for the arrival that is latched, and is CORE for one the driver has put there (log 23). -/
def slotOfRecord (old : Option PSlot) (armed latched : Bool) (token : W32) (payload : W64) : Option PSlot :=
  if !armed then none
  else some ⟨token, if latched then some payload else none,
    match old with | some s => if latched && s.latched.isSome then s.scope else 0 | none => 0⟩

/-- A warp with what its record holds read back (R40, R170): a cleared occupied flag ends its upcall's hold on it. -/
def Warp.reload (w : Warp) (b : List Byte) : Warp :=
  let flags := fieldOf b 8 8
  let pend := fieldOf b 24 8
  { w with
    occ := if bitsOf flags 0 1 == 1 then w.occ else none
    masked := bitsOf flags 1 1 == 1
    budget := fieldOf b 16 8, evmask := BitVec.ofNat 16 (fieldOf b 32 8)
    pend := (List.range 16).map fun i =>
      slotOfRecord (nth w.pend i none) (bitsOf pend (16 + i) 1 == 1) (bitsOf pend i 1 == 1) (BitVec.ofNat 32 (fieldOf b (40 + 4 * i) 4))
        (BitVec.ofNat 64 (fieldOf b (104 + 8 * i) 8))
    kd := (List.range 9).map fun i => BitVec.ofNat 64 (fieldOf b (232 + 8 * i) 8) }

/-- A barrier record of 16 bytes. -/
def barRecord (m : BitVec 32) : List Byte :=
  leBytes 1 ((List.range 32).filter fun i => m.getLsbD i).length ++ leBytes 1 0 ++ leBytes 4 m.toNat ++ leBytes 10 0

/-- FLAGS of a saved group. -/
def Saved.flags (s : Saved) : Nat :=
  (if s.replay then 1 else 0) + (if s.group.gwx then 2 else 0) + (if s.recLive then 4 else 0) + (if s.walkArea != 0 then 8 else 0) +
  (if s.halted then 16 else 0) + (if s.partial_ then 32 else 0)

/-- The bytes of a save area. -/
def Saved.bytes (s : Saved) : List Byte :=
  let g := s.group
  let parked (w : Warp) : Bool := s.fibres.any fun f => f.warpid == w.warpid && f.wait == .parked
  leBytes 2 1 ++ leBytes 2 s.flags ++ leBytes 1 s.warps.length ++ leBytes 1 0 ++ leBytes 2 g.teamid ++
  leBytes 4 g.launchid.toNat ++ leBytes 1 g.groupid ++ leBytes 1 g.cls ++ leBytes 2 0 ++ b8 g.gctl ++ b8 g.uhv ++
  leBytes 2 g.core ++ leBytes 6 0 ++ leBytes 8 s.walkArea ++ leBytes 16 0 ++ g.ks.flatMap b8 ++ leBytes 72 0 ++
  g.bars.flatMap barRecord ++ g.tbars.flatMap barRecord ++ leBytes 192 0 ++
  (s.warps.flatMap fun w => w.record (parked w) s.partial_) ++ s.fibres.flatMap Fibre.record

/-- Bytes of a save area. -/
def saveLen (ws : List Warp) (fs : List Fibre) : Nat := 0x400 + 512 * ws.length + (fs.map Fibre.recordLen).foldl (· + ·) 0

/-- Fibres with their records read back from an offset on. -/
def reloadFibres (b : List Byte) : Nat → List Fibre → List Fibre
  | _, [] => []
  | o, f :: l => f.reload (b.drop o) :: reloadFibres b (o + f.recordLen) l

/-- The fibres of parked warps are parked: the record of a fibre has no such wait state. -/
def parkFlagged (ws : List (Nat × Bool)) (f : Fibre) : Fibre := if ws.contains (f.warpid, true) then { f with wait := .parked } else f

/-- What happens to a saved group, done to it. -/
def SavedOp.on (s : Saved) : SavedOp → Saved
  | .latch wid t p sc =>
    let one (w : Warp) : Warp := match w.armedFree t with | some i => w.latch i p sc | none => w
    { s with warps := updWhere (fun w => (wid.map (· == w.warpid)).getD true) one s.warps }
  | .pass team n now free =>
    let g := s.group
    { s with
      fibres := updWhere (fun f => f.wait == if team then .tbar n else .bar n) (fun f => f.after now free) s.fibres
      group := if s.partial_ then g else if team then { g with tbars := g.tbars.set n 0 } else { g with bars := g.bars.set n 0 } }
  | .resume now => { s with fibres := s.fibres.map fun f => f.resume now }
  | .halt on => { s with halted := on }

/-- A saved group with its area read back (R267): the driver may have rewritten it (R249). What says which group, warp and fibre a
record is, and the flags that tell of the device's own work, stay (log 23); then what could not be written to the area. -/
def Saved.reload (s : Saved) (b : List Byte) : Saved :=
  let at_ (i : Nat) : List Byte := b.drop (0x400 + 512 * i)
  let ws := s.warps.zipIdx.map fun p => p.1.reload (at_ p.2)
  let parked := s.warps.zipIdx.map fun p => (p.1.warpid, bitsOf (fieldOf (at_ p.2) 8 8) 2 1 == 1)
  let ks := (List.range 55).map fun i => BitVec.ofNat 64 (fieldOf b (0x40 + 8 * i) 8)
  let bar (base i : Nat) : BitVec 32 := BitVec.ofNat 32 (fieldOf b (base + 16 * i + 2) 4)
  let g := if s.partial_ then s.group
    else { s.group with
      gctl := BitVec.ofNat 64 (fieldOf b 0x10 8) &&& 3, uhv := sext48 (areaAddr (BitVec.ofNat 64 (fieldOf b 0x18 8))), ks := ks
      gwx := bitsOf (fieldOf b 2 2) 1 1 == 1
      bars := (List.range 8).map (bar 0x240), tbars := (List.range 8).map (bar 0x2C0) }
  let fs := (reloadFibres b (0x400 + 512 * s.warps.length) s.fibres).map (parkFlagged parked)
  s.due.foldl SavedOp.on { s with group := g, warps := ws, fibres := fs }

/-- A saved group as its area has it now, where stage 2 translates that. -/
def Dev.seen (d : Dev) (s : Saved) : Saved :=
  match d.readIpa (d.vfOf s.group.ctx) s.area (saveLen s.warps s.fibres) with
  | .ok b => s.reload b
  | .error _ => s

/-- Something happens to the saved groups, or evicted warps, that satisfy `p`: it is done to them and written to their areas; where
stage 2 does not translate an area, it is done to it when it is read back. -/
def Dev.onSaved (d : Dev) (p : Saved → Bool) (op : SavedOp) : Dev :=
  let one (d : Dev) (s : Saved) : Dev × Saved :=
    let vf := d.vfOf s.group.ctx
    let later : Dev × Saved := (d, { op.on s with due := s.due ++ [op] })
    match d.readIpa vf s.area (saveLen s.warps s.fibres) with
    | .error _ => later
    | .ok b =>
      let t := { op.on (s.reload b) with due := [] }
      match d.writeIpa vf s.area t.bytes with
      | .ok d => (d, t)
      | .error _ => later
  let step (x : Dev × List Saved) (s : Saved) : Dev × List Saved :=
    if p s then let r := one x.1 s; (r.1, x.2 ++ [r.2]) else (x.1, x.2 ++ [s])
  let r := d.saved.foldl step (d, [])
  { r.1 with saved := r.2 }

end Sys2Proof.Machine
end

