-- ==== Sys2Proof/Machine/Hub.lean ====
section
/-! DEFINITION. What the hub does for everybody: event vectors and signal lines (R353, R392, R405), page requests and who waits
for them (R329 to R336), fault records (R249, R341), the end of fibres, groups, launches, recursions and walks (R12, R139, R204,
R216, R218, R234, R284, R358), and resuming (R251). -/

namespace Sys2Proof.Machine

/-! ## Lines, the signal log, the last-events record -/

/-- Raises a signal line (R392). -/
def Hub.raiseLine (h : Hub) (n : Nat) : Hub := { h with signals := h.signals ||| BitVec.ofNat 64 (2 ^ n) }

/-- A 32-bit word of hub SRAM. -/
def Hub.sram32 (h : Hub) (o : Nat) : Nat := leVal (h.sram.read o 4)

/-- Writes bytes of hub SRAM; reservations of Corgon cores over them are gone. -/
def Hub.sramPut (h : Hub) (o : Nat) (b : List Byte) : Hub :=
  { h with sram := h.sram.write o b, resv := h.resv.filter fun r => !overlaps o b.length r.addr r.size }

/-- Raises a line that carries detail: one entry of the hub signal log, or LOST (R392). -/
def Hub.logLine (h : Hub) (line src val : Nat) : Hub :=
  let wr := h.sram32 0x84000
  let h :=
    if (wr + 2 ^ 32 - h.sram32 0x84004) % 2 ^ 32 ≥ 1024 then h.sramPut 0x84008 (leBytes 4 1)
    else (h.sramPut (0x80000 + 16 * (wr % 1024)) (leBytes 8 (line + src * 2 ^ 16) ++ leBytes 8 val)).sramPut 0x84000
      (leBytes 4 (wr + 1))
  h.raiseLine line

/-- Appends to the last-events record of 4,096 entries; code 7 freezes it (R405). -/
def Hub.note (h : Hub) (code src ctx : Nat) (detail : W64) : Hub :=
  if h.frozen then h
  else
    let l := h.lastev ++ [⟨h.hubt, code, src, ctx, detail⟩]
    { h with lastev := l.drop (l.length - 4096), frozen := code == 7 }

/-! ## Event vectors (R353, R354, R358) -/

/-- Sets bits of a context's event vector, and of its error vector when `err`. -/
def Hub.setEvents (h : Hub) (ctx : Nat) (bits : EvVec) (err : Bool) : Hub :=
  h.updCtx ctx fun c => { c with events := c.events ||| bits, errors := if err then c.errors ||| bits else c.errors }

/-- Clears bits of both vectors. -/
def Hub.clrEvents (h : Hub) (ctx : Nat) (bits : EvVec) : Hub :=
  h.updCtx ctx fun c => { c with events := c.events &&& ~~~bits, errors := c.errors &&& ~~~bits }

/-! ## Page requests (R332, R333, R336) -/

/-- Adds a unit to the distinct units of an instruction. -/
def addUnit (acc : List FaultUnit) (u : FaultUnit) : List FaultUnit :=
  let same (x : FaultUnit) : Bool := x.stage == u.stage && x.page == u.page
  if u.stage == 0 then acc
  else if acc.any same then
    acc.map fun x => if same x then { x with va := min x.va u.va, acc := x.acc ||| u.acc } else x
  else acc ++ [u]

/-- The distinct units to request, by lowest faulting virtual address (R332). -/
def gatherUnits (us : List FaultUnit) : List FaultUnit := sortBy FaultUnit.va (us.foldl addUnit [])

/-- Whether some unit cannot be resolved by a request (R329). -/
def unresolvable (us : List FaultUnit) : Bool := us.any fun u => u.stage == 0

/-- Whether a request with these fields covers a unit of a context (R332). -/
def covers (stage ctx page acc : Nat) (uctx : Nat) (u : FaultUnit) : Bool :=
  stage == u.stage && ctx == uctx && page == u.page && (acc ||| u.acc) == acc

/-- The oldest outstanding request of a function that covers a unit: one sent, or one that a free slot is about to send. A request that
waits beyond the 32 is not outstanding (R332, R333). -/
def Fn.covered (f : Fn) (ctx : Nat) (u : FaultUnit) : Option Nat :=
  ((f.reqs.find? fun r => covers r.stage r.ctx r.page r.acc ctx u).map PageReq.id).or
  (((f.raised.take (32 - f.reqs.length)).find? fun r => covers r.u.stage r.ctx r.u.page r.u.acc ctx u).map Raised.id)

/-- Raises requests for the resolvable units; answers the numbers of those that are waited for: none when PRI is off (R335). -/
def Dev.raiseUnits (d : Dev) (ctx : Nat) (us : List FaultUnit) : Dev × List Nat :=
  let fn := d.hub.fn (d.vfOf ctx)
  let one (x : Fn × Nat × List Nat) (u : FaultUnit) : Fn × Nat × List Nat :=
    match x.1.covered ctx u with
    | some i => (x.1, x.2.1, x.2.2 ++ [i])
    | none => ({ x.1 with raised := x.1.raised ++ [⟨x.2.1, ctx, u⟩] }, x.2.1 + 1, x.2.2 ++ [x.2.1])
  if fn.priOff then (d, [])
  else
    let r := (gatherUnits us).foldl one (fn, d.hub.nextReq, [])
    (d.updHub fun h => { h.setFn r.1 with nextReq := r.2.1 }, r.2.2)

/-- Raises requests on behalf of a waiter; false when nothing is waited for. -/
def Dev.addCase (d : Dev) (who : Waiter) (ctx : Nat) (us : List FaultUnit) (addr : Nat) : Dev × Bool :=
  let r := d.raiseUnits ctx us
  if r.2.isEmpty then (r.1, false)
  else
    let c : Case := { who := who, vf := d.vfOf ctx, ctx := ctx, waiting := r.2, failed := false, units := us, lost := [], addr := addr }
    (r.1.updHub fun h => { h with cases := h.cases ++ [c] }, true)

/-- The address of the first fault that stays (R292): no request can resolve it, or its request has failed. -/
def firstLost (us : List FaultUnit) (lost : List (Nat × Nat)) : Nat :=
  (((us.filter fun u => u.stage == 0 || lost.contains (u.stage, u.page)).head?).or us.head?).elim 0 FaultUnit.va

/-- Whether a waiter waits for page requests. -/
def Dev.waits (d : Dev) (who : Waiter) : Bool := d.hub.cases.any fun c => c.who == who

/-! ## Fault records (R249, R341) -/

/-- Queues a fault record. -/
def Dev.addRec (d : Dev) (r : FRec) : Dev := d.updHub fun h => { h with frecs := h.frecs ++ [r] }

/-- A record without a fibre: zero TPC, REC, REPC, MDONE, FIBREID and LANES. -/
def bareRec (ctx : Nat) (cause tadr : Nat) (launchid : BitVec 32) : FRec :=
  { ctx := ctx, cause := BitVec.ofNat 64 cause, tpc := 0, tadr := BitVec.ofNat 64 tadr, rec_ := 0, repc := 0, mdone := 0,
    launchid := launchid, fibreid := 0, core := 0, lanes := 0, groupid := 0, fail := 0, gid := none }

/-- CAUSE of a record for PAGEFAULT with an ACC value (R242). -/
def pfCause (acc : Nat) : Nat := 5 + acc * 2 ^ 10

/-- The bitmap of home lanes of some fibres. -/
def lanesOf (fs : List Fibre) : LaneMap := fs.foldl (fun m f => m ||| (1 <<< f.lane)) 0

/-- The record of a trapping warp (R249): the trapping fibre with the lowest home lane describes it. -/
def fibreRec (g : Group) (fs : List Fibre) : Option FRec :=
  (minBy Fibre.lane fs).map fun f =>
    { ctx := g.ctx, cause := f.trapcause, tpc := f.trappc, tadr := f.trapaddr, rec_ := f.rec_, repc := f.repc,
      mdone := f.mdone, launchid := g.launchid, fibreid := f.slot * 32 + f.lane, core := g.core, lanes := lanesOf fs,
      groupid := g.groupid, fail := 0, gid := some g.gid }

/-- The group of a fibre. -/
def Dev.gidOf (d : Dev) (f : Fibre) : Nat := ((d.warp? f.core f.slot).map Warp.gid).getD 0

/-- Whether a fibre belongs to a resident group. -/
def Dev.isOf (d : Dev) (gid : Nat) (f : Fibre) : Bool := d.gidOf f == gid && gid != 0

/-- A saved group's record. -/
def Dev.saved? (d : Dev) (gid : Nat) : Option Saved := d.saved.find? fun s => s.group.gid == gid && !s.partial_

/-- The evicted warps of a group. -/
def Dev.evicted? (d : Dev) (gid : Nat) : Option Saved := d.saved.find? fun s => s.group.gid == gid && s.partial_

/-- The trapped fibres of a warp of a group, resident, saved or evicted. -/
def Dev.trappedIn (d : Dev) (gid wid : Nat) : List Fibre :=
  ((d.fibres.filter (d.isOf gid)) ++ (d.saved.filter fun s => s.group.gid == gid).flatMap Saved.fibres).filter fun f =>
    f.warpid == wid && f.trapped

/-- The record of a warp whose page requests failed, or whose fault no request resolves. -/
def Dev.recordWarp (d : Dev) (gid wid : Nat) : Dev :=
  match (d.group? gid).or ((d.saved? gid).map Saved.group) with
  | none => d
  | some g =>
    match fibreRec g (d.trappedIn gid wid) with
    | some r => d.addRec r
    | none => d

/-! ## Resuming (R251, R336) -/

/-- Whether a group still waits for page requests or for the answer to a record. -/
def Dev.stuck (d : Dev) (g : Group) : Bool :=
  (d.hub.cases.any fun c => match c.who with | .group n => n == g.gid | _ => false) ||
  (d.hub.frecs.any fun r => r.gid == some g.gid) ||
  (match d.hub.ctx? g.ctx with
   | some c => c.frecs.any fun r => r.2 == g.gid
   | none => false)

/-- The parked warps of a group issue their WAITANY again: what has latched in them meanwhile is found (R170, R250). -/
def Dev.unparkAll (d : Dev) (gid : Nat) : Dev :=
  { (d.updFibres (fun f => d.isOf gid f && f.wait == .parked) fun f => { f with wait := .none, age := d.cycle, ready := d.cycle + 1 }) with
    warps := updWhere (fun w => w.gid == gid) (fun w => { w with park := none }) d.warps }

/-- Resumes a descheduled group that waits for nothing any more, its evicted warps with it (R251, R273, R336). -/
def Dev.tryResume (d : Dev) (gid : Nat) : Dev :=
  match d.group? gid with
  | none => d
  | some g =>
    if g.stat == .descheduled && !d.stuck g then
      let hit := (d.fibres.filter fun f => d.isOf gid f && f.trapped).map fun f => (f.core, f.slot, f.lane)
      let d1 := d.updFibres (d.isOf gid) fun f => f.resume d.cycle
      let d2 := d1.onSaved (fun s => s.group.gid == gid && s.partial_ && s.fibres.any Fibre.trapped) (.resume d.cycle)
      let d3 := d2.divide (fun f => hit.contains (f.core, f.slot, f.lane)) false
      (d3.unparkAll gid).updGroup gid fun g => { g with stat := .running }
    else d

/-! ## The header of a recursion's arena (R228) -/

/-- Reads `n` bytes of a core's scratchpad. -/
def Dev.spad (d : Dev) (core off n : Nat) : Nat := leVal ((List.range n).map fun i => d.ms.avail core (slotBase core + off + i))

/-- An engine's write to a core's own memory: performed for everybody. -/
def Dev.onchipPut (d : Dev) (core off : Nat) (b : List Byte) : Dev := d.updMs fun ms => ms.poke (.core core) (slotBase core + off) b

/-- The current frame of a lane (R228): the one its routine runs on, or is about to; 0 for an idle lane. -/
def RecLane.cur (l : RecLane) : Nat :=
  if l.run.isSome then l.frame else ((l.next.head?).map Prod.snd).getD 0

/-- Writes the arena header (R228). -/
def Dev.recHeader (d : Dev) (core : Nat) (r : RecEng) (stage cause : Nat) : Dev :=
  let lane (g : RecLane → Nat) : List Byte := (List.range 32).flatMap fun l => leBytes 4 (((r.ls[l]?).map g).getD 0)
  d.onchipPut core r.abase
    (leBytes 1 stage ++ leBytes 1 r.level ++ leBytes 1 r.swlvl ++ leBytes 1 cause ++ leBytes 4 r.nbr ++ leBytes 4 r.btop ++
     leBytes 4 r.stk ++ leBytes 4 r.swfirst ++ leBytes 4 r.swn ++ leBytes 4 r.obj ++ leBytes 36 0 ++
     lane RecLane.cur ++ lane RecLane.top)

/-- Every fibre of the recursion's warp that `p` keeps continues after its RECUR, as one cohort (R234, R275). -/
def Dev.recLeave (d : Dev) (core : Nat) (r : RecEng) (p : Fibre → Bool) : Dev :=
  let d := { d with free := d.free + 1 }
  d.updFibres (fun f => f.core == core && f.slot == r.slot && !f.trapped && p f)
    fun f => f.release (r.recurPc + 4) d.cycle (cohortAt d.free (r.recurPc + 4) 2)

/-- A recursion aborts (R234, R239): STAGE 5 and a cause; the warp's other fibres leave. -/
def Dev.recAbort (d : Dev) (core : Nat) (r : RecEng) (cause : Nat) (p : Fibre → Bool) : Dev :=
  ((d.recHeader core r 5 cause).recLeave core r p).updCore core fun c => { c with rec_ := none }

/-! ## Completion (R358) -/

/-- The launch of a number. -/
def Dev.launch? (d : Dev) (lid : Nat) : Option Launch := getBy Launch.lid lid d.hub.launches

/-- Changes a launch. -/
def Dev.updLaunch (d : Dev) (lid : Nat) (f : Launch → Launch) : Dev :=
  d.updHub fun h => { h with launches := updWhere (fun l => l.lid == lid) f h.launches }

/-- Forgets a launch that has nothing left to do. -/
def Dev.dropLaunch (d : Dev) (lid : Nat) : Dev := d.updHub fun h => { h with launches := dropBy Launch.lid lid h.launches }

/-- The record of a completion word that cannot be written (R358). -/
def Dev.complFail (d : Dev) (l : Launch) : Dev := (d.addRec (bareRec l.ctx (pfCause 1) l.compl l.launchid)).dropLaunch l.lid

/-- The completion word (R358). -/
def Launch.word (l : Launch) : Nat := l.launchid.toNat + l.status * 2 ^ 32 + l.fail * 2 ^ 40

/-- Writes the completion word of a finished launch, or raises page requests for it (R358). -/
def Dev.writeCompl (d : Dev) (l : Launch) : Dev :=
  match d.translateHub l.ctx (l.compl % 2 ^ 48) 2 with
  | .ok a => (d.updMs fun ms => ms.poke .hub a (leBytes 8 l.word)).dropLaunch l.lid
  | .error u =>
    let r := d.addCase (.compl l.lid) l.ctx [u] l.compl
    if r.2 then r.1 else r.1.complFail l

/-- A launch completes (R358): the SET bits, the error bits on a nonzero status, then the completion word. -/
def Dev.complete (d : Dev) (lid : Nat) : Dev :=
  match d.launch? lid with
  | none => d
  | some l =>
    if l.finished then d
    else
      let d := d.updHub fun h =>
        { h.setEvents l.ctx l.set (l.status != 0) with
          queues := updWhere (fun q => q.qid == l.qid) (fun q => { q with live := q.live.filter (· != lid) }) h.queues }
      if l.kind == .bin || l.compl == 0 then d.dropLaunch lid
      else (d.updLaunch lid fun l => { l with finished := true, wordDue := true }).writeCompl { l with finished := true }

/-- Completes a launch when every group it has is complete and every team was placed. -/
def Dev.maybeComplete (d : Dev) (lid : Nat) : Dev :=
  match d.launch? lid with
  | none => d
  | some l => if l.livegroups == 0 && l.placed.length == l.teams then d.complete lid else d

/-- A group of a launch is complete, with a status and failure code of its own. -/
def Dev.groupDone (d : Dev) (lid status fail : Nat) : Dev :=
  (d.updLaunch lid fun l =>
    { l with livegroups := l.livegroups - 1
             status := if l.status == 0 then status else l.status
             fail := if l.status == 0 then fail else l.fail }).maybeComplete lid

/-! ## Releases and acquires of a core's view (R306, R307, R310) -/

/-- A release by a party of a core. Compatibility-mode stores pending on the core become available with it (R320). -/
def Dev.release (d : Dev) (core : Nat) (sc : Scope) : Dev := d.onMs [] fun ms => ms.release core sc

/-- An acquire by a party of a core. -/
def Dev.acquire (d : Dev) (core : Nat) (sc : Scope) : Dev := d.updMs fun ms => ms.acquire core sc

/-! ## The end of a group -/

/-- Frees the save areas of an owner. -/
def Hub.freeArea (h : Hub) (ctx owner : Nat) : Hub := h.updCtx ctx fun c => { c with areas := c.areas.filter fun a => a.2.2 != owner }

/-- Owner number of a walk's save area, by its core. -/
def walkOwner (core : Nat) : Nat := 2 ^ 32 + core

/-- Stream holds of a group that ended wait to be released (R375). -/
def Hub.addReleases (h : Hub) (ctx : Nat) : List Hold → Hub
  | [] => h
  | x :: l => addReleases { h with releases := h.releases ++ [⟨h.nextRel, ctx, x⟩], nextRel := h.nextRel + 1 } ctx l

/-- A register grant as GOPEN and GRANTe hold it (R283). -/
def grantOf (v : W64) : RegGrant :=
  { lmask := v.extractLsb' 32 32, nreg := bitsOf v.toNat 24 6, base := bitsOf v.toNat 8 11, closing := false, next := none }

/-- Whether a grant covers a register of a fibre's window. -/
def RegGrant.touches (r : RegGrant) (f : Fibre) : Bool :=
  r.lmask.getLsbD f.lane && overlaps f.winbase f.win.length r.base (8 * r.nreg)

/-- The windows of retiring fibres that copies into grants keep from their banks (R284). -/
def Dev.keepWindows (d : Dev) (fs : List Fibre) : Dev :=
  let held (f : Fibre) : Option HeldWin :=
    let gs := (d.groups.filter fun g => g.core == f.core).flatMap fun g => g.grants.filterMap fun r => r.filter fun r => r.touches f
    let cs := (gs.flatMap (d.copiesInto f.core)).map Copy.order
    if cs.isEmpty then none else some ⟨f.core, f.lane, f.winbase, f.win.length, cs⟩
  { d with heldWins := d.heldWins ++ fs.filterMap held }

/-- The grants of a group that ends stay open while a copy into them is live (R284). -/
def Dev.keepGrants (d : Dev) (g : Group) : Dev :=
  { d with heldGrants := d.heldGrants ++ (g.grants.filterMap fun r => r.filter (d.copyInto g)).map fun r => ⟨g.ctx, g.core, r⟩ }

/-- Takes away a group, resident or saved, with its warps and whatever fibres it has left (R358). -/
def Dev.endGroup (d : Dev) (gid status fail : Nat) : Dev :=
  match (d.group? gid).or ((d.saved? gid).map Saved.group) with
  | none => d
  | some g =>
    let gone (f : Fibre) : Bool := d.isOf gid f
    let d := ((d.release g.core Scope.system).keepWindows (d.fibres.filter gone)).keepGrants g
    let streams (e : Shut) : Bool := e.kind == 3 && e.owner == gid
    let d : Dev := { d with cores := d.cores.map fun (c : Core) => { c with shut := c.shut.filter fun e => !streams e } }
    let d := { d with
      fibres := d.fibres.filter fun f => !gone f
      warps := d.warps.filter fun w => w.gid != gid
      groups := dropBy Group.gid gid d.groups
      saved := d.saved.filter fun s => s.group.gid != gid
      cores := updWhere (fun c => match c.rec_ with | some r => r.gid == gid | none => false)
        (fun c => { c with rec_ := none }) d.cores
      hub := { ((d.hub.freeArea g.ctx gid).addReleases g.ctx g.holds) with
        cases := d.hub.cases.filter fun c => match c.who with | .group n => n != gid | _ => true } }
    d.groupDone g.lid status fail

/-- Ends every group of a launch on a core: the role groups of its walk (R216, R218). -/
def Dev.endRoles (d : Dev) (core lid status fail : Nat) : Dev :=
  let gids := (d.groups.filter fun g => g.lid == lid && g.core == core).map Group.gid ++
    (d.saved.filter fun s => s.group.lid == lid && s.group.core == core && !s.partial_).map fun s => s.group.gid
  gids.foldl (fun d gid => d.endGroup gid status fail) d

/-! ## Walk aborts (R217, R218) -/

/-- CAUSE that a failure code reports (R217). -/
def failCause (code : Nat) : Nat := if code == 3 then 10 else if code == 4 then 11 else 15

/-- The walk of a core aborts with a code (R218). The core where it begins writes the record. -/
def Dev.abortWalk (d : Dev) (core code ucode : Nat) (origin : Bool) : Dev :=
  match (d.core core).walk with
  | none => d
  | some w =>
    let launchid := ((d.launch? w.lid).map Launch.launchid).getD 0
    let d := d.updCore core fun c =>
      { c with walk := none, wstat := BitVec.ofNat 64 (ucode * 2 ^ 32 + code * 2 ^ 24), wstall := w.stall }
    let d := d.updLaunch w.lid fun l => if l.status == 3 then l else { l with status := 3, fail := code }
    let d := if origin then
        d.addRec { bareRec w.ctx (failCause code) w.recA launchid with core := core, groupid := 0xFF, fail := code }
      else d
    let d := d.updHub fun h => { h.freeArea w.ctx (walkOwner core) with
      cases := h.cases.filter fun c => c.who != .walkEng core w.lid }
    d.endRoles core w.lid 3 code

/-- A saved walk that an abort has reached is terminated without running (R218). -/
def Dev.endSaved (d : Dev) (x : SavedWalk) (code : Nat) : Dev :=
  let d := { d with walks := d.walks.filter fun y => !(y.core == x.core && y.eng.lid == x.eng.lid) }
  (d.updHub fun h => h.freeArea x.eng.ctx (walkOwner x.core)).endRoles x.core x.eng.lid 3 code

/-- An abort reaches a saved walk (R218): its area records it (R222), where stage 2 translates that; it is terminated at its next
restore, at once where no role group is left to restore. -/
def Dev.abortSaved (d : Dev) (x : SavedWalk) (code : Nat) (origin : Bool) : Dev :=
  let launchid := ((d.launch? x.eng.lid).map Launch.launchid).getD 0
  let d := { d with walks := updWhere (fun y => y.core == x.core && y.eng.lid == x.eng.lid) (fun y => { y with abrt := some code }) d.walks }
  let d := match d.writeIpa (d.vfOf x.eng.ctx) (x.area + 0x34) (leBytes 4 1) with | .ok e => e | .error _ => d
  let d := d.updLaunch x.eng.lid fun l => if l.status == 3 then l else { l with status := 3, fail := code }
  let d := if origin then
      d.addRec { bareRec x.eng.ctx (failCause code) x.eng.recA launchid with core := x.core, groupid := 0xFF, fail := code }
    else d
  let d := d.updHub fun h => { h with cases := h.cases.filter fun c => c.who != .walkEng x.core x.eng.lid }
  if [x.eng.prod, x.eng.cons].any fun g => (d.group? g).isSome || (d.saved? g).isSome then d else d.endSaved x code

/-- The walk of a launch that is saved on a core, no abort having reached it. -/
def Dev.savedWalk? (d : Dev) (core lid : Nat) : Option SavedWalk :=
  d.walks.find? fun x => x.core == core && x.eng.lid == lid && x.abrt.isNone

/-- An engine access of a launch's walk on a core cannot be translated (R217, code 7): the walk aborts, live or saved. -/
def Dev.walkDenied (d : Dev) (core lid : Nat) : Dev :=
  if ((d.core core).walk.map fun w => w.lid == lid).getD false then d.abortWalk core 7 0 true
  else match d.savedWalk? core lid with
    | some x => d.abortSaved x 7 true
    | none => d

/-! ## The end of fibres (R12, R139, R204, R234, R284) -/

/-- A grant lapses: at once, or when no copy into it is live any more (R284). -/
def Dev.lapse (d : Dev) (g : Group) (r : RegGrant) (next : Option W64) : Option RegGrant :=
  if d.copyInto g r then some { r with closing := true, next := next } else next.map grantOf

/-- Grants that cover the window of a retiring fibre lapse (R284). -/
def Dev.lapseFor (d : Dev) (fs : List Fibre) : Dev :=
  let hit (g : Group) (r : RegGrant) : Bool := fs.any fun f => f.core == g.core && r.touches f
  let one (g : Group) (r : Option RegGrant) : Option RegGrant :=
    match r with
    | none => none
    | some r => if hit g r then d.lapse g r (r.next.filter fun v => !hit g (grantOf v)) else some r
  { d with groups := d.groups.map fun g => { g with grants := g.grants.map (one g) } }

/-- Whether a core's walk loses a handler or a role group by this retirement (R204); `ended` are the groups that end. -/
def Dev.walkLost (d : Dev) (gone : List Fibre) (ended : List Nat) (core : Nat) : Bool :=
  match (d.core core).walk with
  | none => false
  | some w =>
    ended.contains w.prod || ended.contains w.cons ||
    d.warps.any fun x => x.core == core && x.occ.isSome && (x.gid == w.prod || x.gid == w.cons) &&
      (gone.any fun f => f.core == core && f.slot == x.slot) && !(d.fibres.any fun f => f.core == core && f.slot == x.slot)

/-- Saved walks that lose a role group abort (R204, R220). -/
def Dev.loseSaved (d : Dev) (ended : List Nat) (code : Nat) : Dev :=
  (d.walks.filter fun x => x.abrt.isNone && (ended.contains x.eng.prod || ended.contains x.eng.cons)).foldl
    (fun d x => d.abortSaved x code true) d

/-- Fibres retire (R12): windows and positions are free, grants lapse, recursions and walks that lose them abort, groups
without a fibre complete. `term`: by TERMINATE. -/
def Dev.retire (d : Dev) (p : Fibre → Bool) (term : Bool) : Dev :=
  let gone := d.fibres.filter p
  let gids := dedup (gone.map d.gidOf)
  let recs := d.cores.filterMap fun c =>
    match c.rec_ with
    | some r => if !r.saved && gone.any fun f => f.core == c.no && f.slot == r.slot && decide (f.lane < r.lanes) then some (c.no, r)
                else none
    | none => none
  let d := (d.keepWindows gone).lapseFor gone
  let d := { d with fibres := d.fibres.filter fun f => !p f }
  let ended := gids.filter fun g => g != 0 && !(d.fibres.any (d.isOf g)) &&
    !(match d.evicted? g with | some s => !s.fibres.isEmpty | none => false)
  let d := recs.foldl (fun d r => d.recAbort r.1 r.2 3 fun _ => true) d
  let lost := (d.cores.map Core.no).filter (d.walkLost gone ended)
  let code := if term then 6 else 5
  let d := lost.foldl (fun d c => d.abortWalk c code 0 true) d
  (ended.foldl (fun d g => d.endGroup g (if term then 2 else 0) 0) d).loseSaved ended code

/-- TERMINATE of a group, resident or saved (R249). -/
def Dev.terminate (d : Dev) (gid : Nat) : Dev :=
  match d.group? gid with
  | some _ =>
    let d := { d with saved := d.saved.filter fun s => !(s.group.gid == gid && s.partial_) }
    let d := d.retire (d.isOf gid) true
    -- its last fibres may have been among the evicted ones
    if (d.group? gid).isSome && !d.fibres.any (d.isOf gid) then d.endGroup gid 2 0 else d
  | none =>
    match d.saved? gid with
    | none => d
    | some s =>
      let live : Bool := match (d.core s.group.core).walk with | some w => w.prod == gid || w.cons == gid | none => false
      if live then d.abortWalk s.group.core 6 0 true
      else if d.walks.any fun x => x.eng.prod == gid || x.eng.cons == gid then d.loseSaved [gid] 6
      else d.endGroup gid 2 0

/-! ## Replies (R335, R336, R273) -/

/-- A copy whose fault no request resolved (R292). -/
def Dev.chanFail (d : Dev) (core ctx chan addr : Nat) : Dev :=
  let c := d.core core
  match c.chans.find? fun x => x.ctx == ctx && x.chan == chan with
  | none => d
  | some ch =>
    let orders := ch.reqs.map Copy.order
    let gid := ((ch.reqs.head?).map Copy.gid).getD 0
    let clear (x : Chan) : Chan := if x.ctx == ctx && x.chan == chan then { x with reqs := [], stalled := false, qp := x.wp } else x
    let d := d.updCore core fun c => { c with chans := c.chans.map clear }
    let keep (e : Shut) : Bool := !((e.kind == 1 || e.kind == 2) && orders.contains e.owner)
    let d := Dev.dropHeld { d with cores := d.cores.map fun (x : Core) => { x with shut := x.shut.filter keep } }
    match (d.group? gid).or ((d.saved? gid).map Saved.group) with
    | none => d
    | some g =>
      let d := d.addRec { bareRec ctx (pfCause 3) (vaOf addr) g.launchid with core := core, groupid := g.groupid, gid := some gid }
      let d := d.updGroup gid fun (g : Group) => if g.stat == GStat.descheduled then g else { g with stat := .faulting }
      { d with saved := updWhere (fun s => s.group.gid == gid && !s.partial_) (fun s => { s with replay := true }) d.saved }

/-- What follows when every request of a case has replied. -/
def Dev.settle (d : Dev) (c : Case) : Dev :=
  let bad := c.failed || unresolvable c.units
  match c.who with
  | .group gid => (if bad then d.recordWarp gid c.addr else d).tryResume gid
  | .chan core ctx chan =>
    if bad then d.chanFail core ctx chan (firstLost c.units c.lost)
    else d.updCore core fun x => { x with
      chans := updWhere (fun y => y.ctx == ctx && y.chan == chan) (fun y => { y with stalled := false }) x.chans }
  | .compl lid =>
    match d.launch? lid with
    | none => d
    | some l => if bad then d.complFail l else d
  | .wqueue ctx _ => if bad then d.addRec (bareRec ctx (pfCause 3) c.addr 0) else d
  | .stream id =>
    if bad then (d.addRec (bareRec c.ctx (pfCause 3) c.addr 0)).updHub fun h =>
      { h with releases := h.releases.filter fun r => r.id != id }
    else d
  | .walkRec lid =>
    if bad then (d.updLaunch lid fun l => { l with status := 3, fail := 1 }).complete lid else d
  | .walkEng core lid => if bad then d.walkDenied core lid else d
  | .ring _ => d

/-- Whether every request of a case has replied, and for a group every request of the group (R336). -/
def Dev.replied (d : Dev) (c : Case) : Bool :=
  c.waiting.isEmpty && match c.who with
  | .group n => d.hub.cases.all fun x => x.who != .group n || x.waiting.isEmpty
  | _ => true

/-- Settles every case whose requests have all replied; `n` bounds how many. -/
def Dev.settleAll : Nat → Dev → Dev
  | 0, d => d
  | n + 1, d =>
    match d.hub.cases.find? d.replied with
    | none => d
    | some c => settleAll n ((d.updHub fun h => { h with cases := h.cases.erase c }).settle c)

/-- A request has its reply (R335): cases that wait for it wait for one less. -/
def Dev.answer (d : Dev) (vf : Nat) (r : PageReq) (success : Bool) : Dev :=
  let fn := d.hub.fn vf
  d.updHub fun h => { (h.setFn { fn with reqs := fn.reqs.erase r }) with
    cases := h.cases.map fun c =>
      if c.waiting.contains r.id then
        { c with waiting := c.waiting.filter (· != r.id), failed := c.failed || !success
                 lost := if success then c.lost else (r.stage, r.page) :: c.lost }
      else c }

/-- Answers every request of a list. -/
def Dev.answerAll (vf : Nat) : List PageReq → Dev → Dev
  | [], d => d
  | r :: l, d => answerAll vf l (d.answer vf r false)

/-- Waiting requests of a function fail without being sent (R335, Response Failure). -/
def Dev.failRaised (d : Dev) (vf : Nat) : Dev :=
  let gone (c : Case) : List (Nat × Nat) :=
    ((d.hub.fn vf).raised.filter fun r => c.waiting.contains r.id).map fun r => (r.u.stage, r.u.page)
  d.updHub fun h => { (h.setFn { h.fn vf with raised := [], priOff := true }) with
    cases := h.cases.map fun c =>
      if c.vf == vf && !c.waiting.isEmpty then { c with waiting := [], failed := true, lost := gone c ++ c.lost } else c }

/-- A reply with a tag and a code (R335). -/
def Dev.reply (d : Dev) (vf tag code : Nat) : Dev :=
  let fn := d.hub.fn vf
  match fn.reqs.find? fun r => r.gen % 16 * 32 + r.slot == tag with
  | none => d.updHub fun h => h.note 2 (0x8000 + vf) 0xFF (BitVec.ofNat 64 tag)
  | some r =>
    let d :=
      if code == 15 then (Dev.answerAll vf fn.reqs d).failRaised vf
      else d.answer vf r (code == 0)
    Dev.settleAll (d.hub.cases.length + 1) d

end Sys2Proof.Machine
end

