-- ==== Sys2Proof/Machine/Access.lean ====
section
/-! DEFINITION. Lane loads and stores (07: R148 to R157, 14: R278 to R286): addresses and slots, the checks in the order of
R151, translation and partial completion (R152), the bytes read and written, the control page. -/

namespace Sys2Proof.Machine

/-! ## Spaces and places -/

/-- What an access does: its space code (0 `.g`, 1 `.s`, 2 `.a`, 3 `.o`, 4 `.w`), the bytes of a sub-element, whether it
stores, and the scope of a strong access. -/
structure Acc where
  sp : Nat
  n : Nat
  store : Bool
  strong : Option Scope
  deriving DecidableEq, Repr

/-- Where a slot of an access reads or writes. -/
inductive Place where
  /-- A physical address. -/
  | phys (a : Nat)
  /-- Byte `byte` of a bank register. -/
  | reg (core lane idx byte : Nat)
  /-- A register of the core's control page. -/
  | ctl (off : Nat)
  /-- A byte of the debug mailbox, at its alias. -/
  | dbg (a : Nat)
  deriving DecidableEq, Repr

/-- The place of a spot. -/
def placeOf : Spot → Place
  | .mem core o => .phys (slotBase core + o)
  | .reg core l i b => .reg core l i b
  | .ctl o => .ctl o
  | .dbg vf o => .dbg (Spot.phys (.dbg vf o))

/-- The spot of a local or window address; none for `.g` and where no window lies. -/
def Acc.spot (q : Acc) (core : Nat) (a : W64) : Option Spot :=
  if q.sp == 0 then none
  else if q.sp == 4 then spotOf core a.toNat
  else if a.toNat + q.n ≤ localSize q.sp then some (.mem core (localOff q.sp a.toNat))
  else none

/-! ## The control page (R281, R283, R284) -/

/-- Whether a group's fibre windows cover 8 bank registers of a home lane from `i` on (R283). -/
def Dev.ownsRegs (d : Dev) (g : Group) (lane i : Nat) : Bool :=
  d.fibres.any fun f => f.core == g.core && f.lane == lane && d.isOf g.gid f &&
    decide (f.winbase ≤ i) && decide (i + 8 ≤ f.winbase + f.win.length)

/-- Whether a value stored to GOPEN opens a grant (R283). -/
def Dev.gopenOk (d : Dev) (g : Group) (v : W64) : Bool :=
  let r := grantOf v
  bitsOf v.toNat 30 2 == 0 && bitsOf v.toNat 19 5 == 0 && bitsOf v.toNat 3 5 == 0 && r.lmask != 0 &&
  decide (1 ≤ r.nreg) && decide (r.nreg ≤ 16) && r.base % 8 == 0 && decide (r.base + 8 * r.nreg ≤ 2048) &&
  (List.range 32).all fun l => !r.lmask.getLsbD l || (List.range r.nreg).all fun k => d.ownsRegs g l (r.base + 8 * k)

/-- A store to GOPEN takes effect (R283). -/
def Dev.gopen (d : Dev) (gid : Nat) (v : W64) : Dev :=
  let e := bitsOf v.toNat 0 3
  d.updGroup gid fun g => { g with
    grants := g.grants.set e (match nth g.grants e none with | none => some (grantOf v) | some r => d.lapse g r (some v)) }

/-- A store to GCLOSE takes effect; an entry that is not open is ignored (R283, R284). -/
def Dev.gclose (d : Dev) (gid : Nat) (v : W64) : Dev :=
  let e := bitsOf v.toNat 0 3
  d.updGroup gid fun g => { g with
    grants := g.grants.set e (match nth g.grants e none with | none => none | some r => d.lapse g r none) }

/-- GRANTe (R283). -/
def grantWord (e : Nat) : Option RegGrant → W64
  | none => 0
  | some r => BitVec.ofNat 64 (r.lmask.toNat * 2 ^ 32 + r.nreg * 2 ^ 24 + r.base * 2 ^ 8 + 2 ^ 7 + e)

/-- SHUTi, as a context sees it (R297): two double-words. -/
def shutWord (ctx : Nat) (hi : Bool) : Option Shut → W64
  | none => 0
  | some e =>
    if e.ctx != ctx then 0
    else if hi then BitVec.ofNat 64 (e.ctx * 2 ^ 16 + e.orig * 2 ^ 7 + e.chan * 2 ^ 4 + e.kind)
    else BitVec.ofNat 64 (e.last % 2 ^ 32 * 2 ^ 32 + e.first % 2 ^ 32)

/-- A context's channel on a core; both pointers start at 0 (R288). -/
def Core.chan (c : Core) (ctx n : Nat) : Chan :=
  (c.chans.find? fun x => x.ctx == ctx && x.chan == n).getD { ctx := ctx, chan := n, wp := 0, qp := 0, reqs := [], stalled := false }

/-- Whether an aligned 64-bit access to the control page is performed (R281). -/
def Dev.ctlOk (d : Dev) (g : Group) (off : Nat) (store : Bool) (v : W64) : Bool :=
  if store then (off == 0x200 && d.gopenOk g v) || off == 0x208
  else off == 0 || (decide (0x100 ≤ off) && decide (off < 0x180)) || (decide (0x240 ≤ off) && decide (off < 0x280)) ||
    (decide (0x1000 ≤ off) && decide (off < 0x1200))

/-- A load from the control page (R281). -/
def Dev.ctlRead (d : Dev) (g : Group) (off : Nat) : W64 :=
  let c := d.core g.core
  if off == 0 then BitVec.ofNat 64 (slotBase g.core)
  else if off < 0x140 then (c.chan g.ctx ((off - 0x100) / 8)).wp
  else if off < 0x180 then (c.chan g.ctx ((off - 0x140) / 8)).qp
  else if off < 0x280 then grantWord ((off - 0x240) / 8) (nth g.grants ((off - 0x240) / 8) none)
  else shutWord g.ctx (off / 8 % 2 == 1) c.shut[(off - 0x1000) / 16]?

/-- A store to the control page. -/
def Dev.ctlWrite (d : Dev) (gid off : Nat) (v : W64) : Dev := if off == 0x200 then d.gopen gid v else d.gclose gid v

/-- Whether an access to a spot sets GWX (R286). -/
def pins (core : Nat) (q : Acc) (a : W64) : Place → Bool
  | .ctl off => !q.store && (off == 0 || (decide (0x100 ≤ off) && decide (off < 0x180)))
  | _ => q.sp == 4 && isOwnDirect core a.toNat

/-! ## Bytes -/

/-- Replaces bits of a register by bytes (R279). -/
def putBytes (x : W64) (byte n : Nat) (v : W64) : W64 :=
  let m : W64 := BitVec.ofNat 64 (2 ^ (8 * n) - 1) <<< (8 * byte)
  (x &&& ~~~m) ||| ((v <<< (8 * byte)) &&& m)

/-- Reads `n` bytes at a physical address for a fibre access of a group (R156, R304 to R307, R312, R320). -/
def Dev.readMem (d : Dev) (g : Group) (q : Acc) (n a : Nat) : Nat × Dev :=
  let r := match q.strong with
    | some sc => d.onView (regLine a ++ d.ms.regLines) (MemSys.strongLoads g.core sc n a)
    | none => d.onView (regLine a) (if g.gctl.getLsbD 1 then MemSys.loadsNow g.core n a else MemSys.loadBytes g.core n a)
  (leVal r.1, r.2)

/-- Reads `n` bytes of a place for a fibre access of a group. The core's own registers are own bytes; another core's are far bytes
(R304). -/
def Dev.readPlace (d : Dev) (g : Group) (q : Acc) (n : Nat) : Place → Nat × Dev
  | .phys a => d.readMem g q n a
  | .reg core l i b =>
    if core == g.core then
      (match d.regOwner core l i with
       | some f => bitsOf (f.vreg (i - f.winbase)).toNat (8 * b) (8 * n)
       | none => 0, d)
    else d.readMem g q n (regByte core l i b)
  | .ctl off => ((d.ctlRead g off).toNat, d)
  | .dbg a => (leVal (d.ms.peeks g.core a n), d)

/-- Writes bytes at a physical address for a fibre access; `slot`, `lane`: the fibre. -/
def Dev.writeMem (d : Dev) (g : Group) (q : Acc) (slot lane n : Nat) (v : W64) (a : Nat) : Dev :=
  let b := leBytes n v.toNat
  match q.strong with
  | some sc => d.onMs (regLine a) (MemSys.strongStores g.core sc b a)
  | none =>
    if g.gctl.getLsbD 1 then d.onMs (regLine a) (MemSys.compatStore g.core slot lane b a)
    else d.updMs fun ms => MemSys.storeBytes g.core b a ms

/-- A store to the double-word of a debug mailbox that holds STATUS ends the command in progress (R403, R404). -/
def Hub.dbgStored (h : Hub) (a : Nat) : Hub :=
  let vf := (a - 0xFE0101000000) / 0x1000
  if a % 0x1000 == 0x140 then h.setFn { h.fn vf with dbgBusy := false } else h

/-- Writes bytes of a place for a fibre access. -/
def Dev.writePlace (d : Dev) (g : Group) (q : Acc) (slot lane n : Nat) (v : W64) : Place → Dev
  | .phys a => d.writeMem g q slot lane n v a
  | .dbg a => (d.writeMem g q slot lane n v a).updHub fun h => h.dbgStored a
  | .reg core l i b =>
    if core != g.core then d.writeMem g q slot lane n v (regByte core l i b)
    else
      let d := if q.strong.isNone && g.gctl.getLsbD 1 then d.onMs [] fun ms => ms.compatBefore core else d
      match d.regOwner core l i with
      | some f => d.updFibre core f.slot l fun f => { f with win := f.win.set (i - f.winbase) (putBytes (f.vreg (i - f.winbase)) b n v) }
      | none => d
  | .ctl off => d.ctlWrite g.gid off v

/-! ## Checks (R151) -/

/-- The lowest address of some slots. -/
def lowest (ss : List (Nat × W64)) : Option W64 := (minBy (fun s => s.2.toNat) ss).map Prod.snd

/-- Whether a slot passes the GRANT check (R38, R281, R282). -/
def Dev.slotHeld (d : Dev) (g : Group) (q : Acc) (v : W64) (a : W64) : Bool :=
  if q.sp == 0 then true
  else match q.spot g.core a with
    | none => false
    | some (.ctl off) => q.n == 8 && d.ctlOk g off q.store v
    | some (.dbg vf off) => q.n == 8 && d.spotHeld g.ctx (.dbg vf off)
    | some (.mem core o) => d.spotHeld g.ctx (.mem core o) && !g.gave core o
    | some s => d.spotHeld g.ctx s

/-- Whether the shutter stops a slot (R295, R200). -/
def Dev.slotShut (d : Dev) (g : Group) (q : Acc) (a : W64) : Bool :=
  match q.spot g.core a with
  | some (.mem core o) => d.shuttered core o q.n q.store
  | _ => false

/-- Checks 1 to 3 of R151 on the taking-part slots; `v` is the value of a store. -/
def Dev.accTrap (d : Dev) (g : Group) (q : Acc) (v : W64) (ss : List (Nat × W64)) : Option Trap :=
  match lowest (ss.filter fun s => s.2.toNat % q.n != 0 || (q.sp == 0 && !canonical s.2)) with
  | some a => some (tAlign a)
  | none =>
    match lowest (ss.filter fun s => !d.slotHeld g q v s.2) with
    | some a => some (tGrant a)
    | none => (lowest (ss.filter fun s => d.slotShut g q s.2)).map (tShutter (if q.store then 1 else 0))

/-! ## Slots (R149, R152) -/

/-- Whether MDONE is about the instruction at the fibre's PC. -/
def Fibre.mdoneHits (f : Fibre) : Bool := f.mdone.getLsbD 48 && f.mdone.extractLsb' 2 46 == f.pc.extractLsb' 2 46

/-- The taking-part slots with their addresses: bit j of the mask, and not done already (R149, R152). -/
def Fibre.slots (f : Fibre) (m : Byte) (n : Nat) (a : W64) : List (Nat × W64) :=
  ((List.range (8 / n)).filter fun j => m.getLsbD j && !(f.mdoneHits && f.mdone.getLsbD (56 + j))).map fun j =>
    (j, a + BitVec.ofNat 64 (j * n))

/-- Places of the slots that translate, and the units of those that do not. -/
structure Resolved where
  ok : List (Nat × Place)
  bad : List (W64 × FaultUnit)

/-- Translates slots in order (R151, check 4). -/
def Dev.resolve (d : Dev) (g : Group) (q : Acc) : List (Nat × W64) → Resolved × Dev
  | [] => (⟨[], []⟩, d)
  | s :: l =>
    if q.sp == 0 then
      let t := d.translate g.core g.ctx (s.2.setWidth 48).toNat (if q.store then 2 else 1)
      let r := t.2.resolve g q l
      match t.1 with
      | .ok a => ({ r.1 with ok := (s.1, .phys a) :: r.1.ok }, r.2)
      | .error u => ({ r.1 with bad := (s.2, u) :: r.1.bad }, r.2)
    else
      let r := d.resolve g q l
      match q.spot g.core s.2 with
      | some p => ({ r.1 with ok := (s.1, placeOf p) :: r.1.ok }, r.2)
      | none => r

/-- PAGEFAULT of a fibre (R152): the lowest faulting address, the units, and the slots performed. -/
def pfTrap (acc : Nat) (bad : List (W64 × FaultUnit)) (done : Option Byte) : Option Trap :=
  (lowest (bad.map fun b => (0, b.1))).map fun a =>
    { cause := 5, acc := acc, addr := a, units := bad.map Prod.snd, done := done }

/-- What an access leaves in a fibre: a trap, and the bits it writes to the destination. -/
structure Res where
  slot : Nat
  lane : Nat
  trap : Option Trap
  value : W64
  bits : W64

/-- Performs loads of slots in order: the value and the bits delivered. -/
def Dev.loadSlots (g : Group) (q : Acc) : List (Nat × Place) → Dev → W64 × W64 × Dev
  | [], d => (0, 0, d)
  | s :: l, d =>
    let r := d.readPlace g q q.n s.2
    let t := loadSlots g q l r.2
    (putBytes t.1 (s.1 * q.n) q.n (BitVec.ofNat 64 r.1), putBytes t.2.1 (s.1 * q.n) q.n (BitVec.allOnes 64), t.2.2)

/-- Performs stores of slots in order (R153). -/
def Dev.storeSlots (g : Group) (q : Acc) (f : Fibre) (v : W64) : List (Nat × Place) → Dev → Dev
  | [], d => d
  | s :: l, d => storeSlots g q f v l (d.writePlace g q f.slot f.lane q.n (v >>> (8 * q.n * s.1)) s.2)

/-- Sets GWX of a group if one of the accesses pins it (R286). -/
def Dev.pin (d : Dev) (g : Group) (q : Acc) (ss : List (Nat × W64)) : Dev :=
  if ss.any fun s => match q.spot g.core s.2 with | some p => pins g.core q s.2 (placeOf p) | none => false then
    d.updGroup g.gid fun g => { g with gwx := true }
  else d

/-- The access of one fibre (R149 to R153, R25): `v` is the value of a store. -/
def Dev.accessOne (d : Dev) (g : Group) (q : Acc) (f : Fibre) (v : W64) (ss : List (Nat × W64)) : Res × Dev :=
  let none_ : Res := ⟨f.slot, f.lane, none, 0, 0⟩
  let fail (t : Trap) : Res := if f.helper then { none_ with bits := BitVec.allOnes 64 } else { none_ with trap := some t }
  if ss.isEmpty || (f.helper && q.store) then (none_, d)
  else match d.accTrap g q v ss with
    | some t => (fail t, d)
    | none =>
      let r := d.resolve g q ss
      let d := r.2.pin g q ss
      let done : Byte := r.1.ok.foldl (fun m s => m ||| (1 <<< s.1)) 0
      let t := pfTrap (if q.store then 1 else 0) r.1.bad (some done)
      if f.helper && t.isSome then (fail { cause := 5 }, d)
      else if q.store then ({ none_ with trap := t }, Dev.storeSlots g q f v r.1.ok d)
      else
        let x := Dev.loadSlots g q r.1.ok d
        ({ none_ with trap := t, value := x.1, bits := x.2.1 }, x.2.2)

/-- The accesses of the fibres of a batch in increasing home lane. -/
def Dev.accessAll (g : Group) (q : Acc) (v : Fibre → W64) (ss : Fibre → List (Nat × W64)) : List Fibre → Dev → List Res × Dev
  | [], d => ([], d)
  | f :: l, d =>
    let r := d.accessOne g q f (v f) (ss f)
    let t := accessAll g q v ss l r.2
    (r.1 :: t.1, t.2)

/-! ## What follows an access -/

/-- Whether a trap of a memory instruction is imprecise in a fibre (R244). -/
def Fibre.imprecise (f : Fibre) (t : Trap) : Bool := t.cause == 5 && f.repc != 0

/-- Notes a page fault of an idempotent region that is not yet known (R244): the earliest one counts, and what was outstanding when it
issued arrives. -/
def Fibre.noteLate (f : Fibre) (t : Trap) : Fibre :=
  if f.late.isSome then f else { f.landAll with late := some (f.pc, { t with impr := true }) }

/-- The result of a fibre. -/
def resOf (rs : List Res) (f : Fibre) : Option Res := rs.find? fun r => r.slot == f.slot && r.lane == f.lane

/-- Writes the destinations, clears MDONE where the instruction is complete, delivers the precise traps, and lets the other
fibres go on (R152, R244, R246). -/
def Dev.afterAccess (d : Dev) (stl : BitVec 2) (vd : Nat) (rs : List Res) : Dev :=
  let d := d.updActive fun f =>
    match resOf rs f with
    | none => f
    | some r =>
      let f := if r.bits == 0 then f else (landV f (.v vd)).owe vd r.value r.bits
      match r.trap with
      | some t => if f.imprecise t then f.noteLate t else f
      | none => if f.mdoneHits then { f with mdone := 0 } else f
  d.split (fun f => (resOf rs f).bind fun r => r.trap.filter fun t => !f.imprecise t) fun d => d.advLane stl

/-- A lane access of the batch (R149): base register `va` plus an offset, under a mask. -/
def Dev.access (d : Dev) (q : Acc) (stl : BitVec 2) (vd va : Nat) (off : Int) (mk : Nat) : Dev :=
  let g := d.grp
  let r := Dev.accessAll g q (fun f => d.readV f vd)
    (fun f => f.slots (d.readM f mk) q.n (d.readV f va + BitVec.ofInt 64 (off * q.n))) d.active d
  r.2.afterAccess stl vd r.1

/-- LD and ST (R148, R149). -/
def memOp (i : Instr) (o : MemOp) (sp : Nat) (store : Bool) (s : State) : Host.Outcome State Fault Refusal :=
  s.run i fun d => d.access ⟨sp, widthOf o.sz / 8, store, none⟩ o.stl (laneNo o.hv o.vd) (laneNo o.hv o.va) o.off.toInt o.msk.toNat

/-- LD.g (R149). -/
def execLdG (o : MemOp) (s : State) : Host.Outcome State Fault Refusal := memOp (.ldG o) o 0 false s
/-- LD.s (R149). -/
def execLdS (o : MemOp) (s : State) : Host.Outcome State Fault Refusal := memOp (.ldS o) o 1 false s
/-- LD.a (R149). -/
def execLdA (o : MemOp) (s : State) : Host.Outcome State Fault Refusal := memOp (.ldA o) o 2 false s
/-- LD.o (R149, R154). -/
def execLdO (o : MemOp) (s : State) : Host.Outcome State Fault Refusal := memOp (.ldO o) o 3 false s
/-- LD.w (R149). -/
def execLdW (o : MemOp) (s : State) : Host.Outcome State Fault Refusal := memOp (.ldW o) o 4 false s
/-- ST.g (R149). -/
def execStG (o : MemOp) (s : State) : Host.Outcome State Fault Refusal := memOp (.stG o) o 0 true s
/-- ST.s (R149). -/
def execStS (o : MemOp) (s : State) : Host.Outcome State Fault Refusal := memOp (.stS o) o 1 true s
/-- ST.a (R149). -/
def execStA (o : MemOp) (s : State) : Host.Outcome State Fault Refusal := memOp (.stA o) o 2 true s
/-- ST.w (R149). -/
def execStW (o : MemOp) (s : State) : Host.Outcome State Fault Refusal := memOp (.stW o) o 4 true s

/-- ST.o, a pane store: warp-wide (R20, R154). -/
def execStO (o : MemOp) (s : State) : Host.Outcome State Fault Refusal :=
  s.run (.stO o) fun d =>
    if d.cur.members.length < 32 then d.trapAll tPartial
    else d.access ⟨3, widthOf o.sz / 8, true, none⟩ o.stl (laneNo o.hv o.vd) (laneNo o.hv o.va) o.off.toInt o.msk.toNat

/-- The strong forms (R155). -/
def strongOp (i : Instr) (o : StrongOp) (store : Bool) (s : State) : Host.Outcome State Fault Refusal :=
  s.run i fun d => d.access ⟨if o.sp == 1 then 4 else 0, widthOf o.sz / 8, store, some o.scope.toNat⟩ o.stl
    (laneNo o.hv o.vd) (laneNo o.hv o.va) 0 o.msk.toNat

/-- LD.strong (R155). -/
def execLdStrong (o : StrongOp) (s : State) : Host.Outcome State Fault Refusal := strongOp (.ldStrong o) o false s
/-- ST.strong (R155). -/
def execStStrong (o : StrongOp) (s : State) : Host.Outcome State Fault Refusal := strongOp (.stStrong o) o true s

/-! ## PREF (R157) -/

/-- Brings translations of readable addresses into the TLB; a fault drops the prefetch. -/
def Dev.prefetch (core ctx : Nat) : List W64 → Dev → Dev
  | [], d => d
  | a :: l, d => prefetch core ctx l (if canonical a then (d.translate core ctx (a.setWidth 48).toNat 1).2 else d)

/-- PREF: no register and no visible state changes (R157). -/
def execPref (o : PreOp) (s : State) : Host.Outcome State Fault Refusal :=
  let n := widthOf o.sz / 8
  s.run (.pref o) fun d =>
    let as_ := d.active.flatMap fun f => ((List.range (8 / n)).filter fun j => (d.readM f o.msk.toNat).getLsbD j).map fun j =>
      d.readV f (laneNo o.hv o.va) + BitVec.ofInt 64 (o.off.toInt * n) + BitVec.ofNat 64 (j * n)
    (if o.lvl == 1 then Dev.prefetch d.cur.core d.grp.ctx (as_.filter fun a => a.toNat % n == 0) d else d).advLane o.stl

end Sys2Proof.Machine
end

