-- ==== Sys2Proof/Machine/Atomic.lean ====
section
/-! DEFINITION. Atomics, FENCE and PHASE (07: R158 to R161, 14: R298, R299, 15: R306 to R315, R320). -/

namespace Sys2Proof.Machine

/-! ## The read-modify-write (R159) -/

/-- The new memory value of an atomic of `w` bits. `y` is the new value of a cas. -/
def atomNew (w aop : Nat) (old x y : BitVec w) : BitVec w :=
  let fmt := if w == 32 then FFmt.f32 else FFmt.f64
  match aop with
  | 0 => old + x
  | 1 => if old.slt x then old else x
  | 2 => if old.ult x then old else x
  | 3 => if old.slt x then x else old
  | 4 => if old.ult x then x else old
  | 5 => old &&& x
  | 6 => old ||| x
  | 7 => old ^^^ x
  | 8 => x
  | 9 => if old == x then y else old
  | 10 => BitVec.ofNat w (fmt.addC 0 false old.toNat x.toNat)
  | _ => BitVec.ofNat w (fmt.write 0 false (.maxNum (fmt.read false old.toNat) (fmt.read false x.toNat)))

/-- The same on 64-bit registers: the operands of a 32-bit one are the low words, but for cas (R159). -/
def atomVal (wide : Bool) (aop : Nat) (old x y : W64) : W64 :=
  if wide then atomNew 64 aop old x y
  else (atomNew 32 aop (old.setWidth 32) (x.setWidth 32) (x.extractLsb' 32 32)).setWidth 64

/-- Performs an atomic of a core at a physical address (R315), a register of a granted window among them (R279, R285): the old value. -/
def Dev.atomAt (d : Dev) (core a : Nat) (wide : Bool) (aop : Nat) (x y : W64) : W64 × Dev :=
  let n := if wide then 8 else 4
  d.onView (regLine a ++ d.ms.regLines) fun ms =>
    let ms := ms.flushBytes core a n
    let old : W64 := BitVec.ofNat 64 (ms.atomRead a n)
    (old, ms.atomWrite core a n (atomVal wide aop old x y).toNat)

/-! ## Homes (R298) -/

/-- The cluster whose engine performs an atomic on a physical address for a core (R298); one into a peer aperture goes to the peer. -/
def homeCluster (core a : Nat) : Nat :=
  match onchipCore a with
  | some c => clusterOf c
  | none =>
    if isHostOrPeer a then clusterOf core
    else [6, 11, 16, 21, 26, 31, 36].foldl (fun h b => h ^^^ bitsOf a b 5) 0

/-- Whether an order code has release meaning: `.rel` or `.ar`. -/
def relOrd (ord : BitVec 2) : Bool := ord.getLsbD 1
/-- Whether an order code has acquire meaning: `.acq` or `.ar`. -/
def acqOrd (ord : BitVec 2) : Bool := ord.getLsbD 0

/-- What an ATOM names. -/
structure Atom where
  stl : BitVec 2
  vd : Nat
  va : Nat
  aop : Nat
  ord : BitVec 2
  scope : Scope
  wide : Bool
  sp : Nat
  deriving DecidableEq, Repr

/-- The access that the checks of an ATOM see: a store of its size. -/
def Atom.acc (q : Atom) : Acc := ⟨q.sp, if q.wide then 8 else 4, true, some q.scope⟩

/-- The checks of an ATOM and its place (R151, R158, R281): a trap, or where it is performed. -/
def Dev.atomPlace (d : Dev) (g : Group) (q : Atom) (a : W64) : Except Trap Place × Dev :=
  let acc := q.acc
  let fixed : Bool := match acc.spot g.core a with | some (.ctl _) => true | some (.dbg _ _) => true | _ => false
  let trap := match d.accTrap g acc 0 [(0, a)] with
    | some t => if t.cause == 4 then some (tShutter 3 a) else some t
    | none => none
  match trap with
  | some t => (.error (if fixed && t.cause != 6 then tGrant a else t), d)
  | none =>
    if fixed then (.error (tGrant a), d)
    else if q.sp == 0 then
      let t := d.translate g.core g.ctx (a.setWidth 48).toNat 3
      match t.1 with
      | .ok p => (.ok (.phys p), t.2)
      | .error u => (.error { cause := 5, acc := 3, addr := a, units := [u] }, t.2)
    else match acc.spot g.core a with
      | some p => (.ok (placeOf p), d.pin g acc [(0, a)])
      | none => (.error (tGrant a), d)

/-- What became of an ATOM in a fibre: a trap, a value at once, or a request at an engine. -/
inductive AtomRes where
  | trap (t : Trap)
  | value (v : W64)
  | sent

/-- Sends a request to the engine that performs it: at its home cluster, or over the fabric to a peer (R298, R389). -/
def Dev.sendAtom (d : Dev) (r : AtomReq) : Dev :=
  if (peerOf r.addr).isSome then { d with fabric := d.fabric ++ [r] }
  else
    let c := d.cluster (homeCluster r.core r.addr)
    d.setCluster { c with queue := c.queue ++ [r] }

/-- The request of a fibre at an address. -/
def Dev.atomReq (d : Dev) (g : Group) (q : Atom) (f : Fibre) (va x y : W64) (p : Nat) : AtomReq :=
  { core := g.core, slot := f.slot, lane := f.lane, vd := q.vd, addr := p, wide := q.wide, aop := q.aop, x := x, y := y
    acq := if acqOrd q.ord then some q.scope else none, at_ := d.cycle, pc := f.pc, va := va, rec_ := f.rec_, repc := f.repc
    lps := (f.lp0, f.lp1, f.lp2) }

/-- The checks of the fibres of a batch, in increasing home lane; a helper fibre is not checked (R25, R159). -/
def Dev.atomPlaces (g : Group) (q : Atom) : List (Fibre × W64) → Dev → List (Option (Except Trap Place)) × Dev
  | [], d => ([], d)
  | f :: l, d =>
    if f.1.helper then let t := atomPlaces g q l d; (none :: t.1, t.2)
    else
      let r := d.atomPlace g q f.2
      let t := atomPlaces g q l r.2
      (some r.1 :: t.1, t.2)

/-- The ATOM of one fibre at its place (R159, R160): at the core for `.s`, else a request to an engine. -/
def Dev.atomOne (d : Dev) (g : Group) (q : Atom) (f : Fibre) (a x y : W64) : Option (Except Trap Place) → AtomRes × Dev
  | none => (.value 0, d)
  | some (.error t) => (.trap t, d)
  | some (.ok (.phys p)) =>
    if q.sp == 1 then let r := d.atomAt g.core p q.wide q.aop x y; (.value r.1, r.2)
    else (.sent, d.sendAtom (d.atomReq g q f a x y p))
  | some (.ok (.reg core l i b)) => (.sent, d.sendAtom (d.atomReq g q f a x y (regByte core l i b)))
  | some (.ok _) => (.trap (tGrant a), d)

/-- The ATOMs of a batch at their places, in increasing home lane (R160): each fibre with its address and operands. -/
def Dev.atomAll (g : Group) (q : Atom) : List ((Fibre × W64 × W64 × W64) × Option (Except Trap Place)) → Dev →
    List (Nat × Nat × AtomRes) × Dev
  | [], d => ([], d)
  | f :: l, d =>
    let r := d.atomOne g q f.1.1 f.1.2.1 f.1.2.2.1 f.1.2.2.2 f.2
    let t := atomAll g q l r.2
    ((f.1.1.slot, f.1.1.lane, r.1) :: t.1, t.2)

/-- The result of a fibre. -/
def atomRes (rs : List (Nat × Nat × AtomRes)) (f : Fibre) : Option AtomRes :=
  (rs.find? fun r => r.1 == f.slot && r.2.1 == f.lane).map fun r => r.2.2

/-- An ATOM of the batch (R158 to R160), region-closing (R253). -/
def Dev.atom (d : Dev) (q : Atom) : Dev :=
  if d.active.any fun f => f.late.isSome then d.hold
  else
    let g := d.grp
    let sc := if q.sp == 1 then Scope.core else q.scope
    let fs := d.active.map fun f => (f, d.readV f q.va, d.readV f q.vd, d.readV f (q.vd + 1))
    let ps := Dev.atomPlaces g q (fs.map fun f => (f.1, f.2.1)) d
    -- a fibre that traps performs no release
    let acts := ps.1.any fun p => match p with | some (.ok _) => true | _ => false
    let d1 := if relOrd q.ord && acts then ps.2.release g.core sc else ps.2
    let r := Dev.atomAll g q (fs.zip ps.1) d1
    let d2 := if acqOrd q.ord && q.sp == 1 then r.2.acquire g.core sc else r.2
    let d3 := d2.updActive fun f =>
      match atomRes r.1 f with
      | some (.value v) => ((landV f (.v q.vd)).owe q.vd v (BitVec.allOnes 64)).close f.pc
      | some .sent => (landV f (.v q.vd)).close f.pc
      | _ => f
    let sent (f : Fibre) : Bool := match atomRes r.1 f with | some .sent => true | _ => false
    (d3.split (fun f => match atomRes r.1 f with | some (.trap t) => some t | _ => none) fun d => d.advLane q.stl).updActive
      fun f => if sent f then { f with wait := .atomic } else f

/-- A scoped ATOM. -/
def atomOp (i : Instr) (o : AtomOp) (wide : Bool) (sp : Nat) (s : State) : Host.Outcome State Fault Refusal :=
  s.run i fun d => d.atom ⟨o.stl, laneNo o.hv o.vd, laneNo o.hv o.va, o.aop.toNat, o.ord, o.scope.toNat, wide, sp⟩

/-- ATOM.s (R160). -/
def atomSOp (i : Instr) (o : AtomSOp) (wide : Bool) (s : State) : Host.Outcome State Fault Refusal :=
  s.run i fun d => d.atom ⟨o.stl, laneNo o.hv o.vd, laneNo o.hv o.va, o.aop.toNat, o.ord, Scope.core, wide, 1⟩

/-- ATOM.g of 32 bits (R159). -/
def execAtomG32 (o : AtomOp) (s : State) : Host.Outcome State Fault Refusal := atomOp (.atomG32 o) o false 0 s
/-- ATOM.g of 64 bits (R159). -/
def execAtomG64 (o : AtomOp) (s : State) : Host.Outcome State Fault Refusal := atomOp (.atomG64 o) o true 0 s
/-- ATOM.w of 32 bits (R159). -/
def execAtomW32 (o : AtomOp) (s : State) : Host.Outcome State Fault Refusal := atomOp (.atomW32 o) o false 4 s
/-- ATOM.w of 64 bits (R159). -/
def execAtomW64 (o : AtomOp) (s : State) : Host.Outcome State Fault Refusal := atomOp (.atomW64 o) o true 4 s
/-- ATOM.s of 32 bits (R159). -/
def execAtomS32 (o : AtomSOp) (s : State) : Host.Outcome State Fault Refusal := atomSOp (.atomS32 o) o false s
/-- ATOM.s of 64 bits (R159). -/
def execAtomS64 (o : AtomSOp) (s : State) : Host.Outcome State Fault Refusal := atomSOp (.atomS64 o) o true s

/-! ## The engine (R299) -/

/-- The order in which an engine applies the requests to a line (R299): arrival cycle, core, home lane. -/
def AtomReq.rank (r : AtomReq) : Nat := (r.at_ * 512 + r.core) * 32 + r.lane

/-- Whether a request is the first of its line among some. -/
def AtomReq.isHead (l : List AtomReq) (r : AtomReq) : Bool :=
  minBy AtomReq.rank (l.filter fun x => x.addr / 64 == r.addr / 64) == some r

/-- The requests that can be applied: each the first of its line; those that reach the engine in this cycle are not yet in order. -/
def atomHeads (l : List AtomReq) (now : Nat) : List AtomReq := l.filter fun r => r.isHead l && decide (r.at_ < now)

/-- An engine applies a request (R299, R315). -/
def Dev.applyAtom (d : Dev) (r : AtomReq) : Dev :=
  let x := d.atomAt r.core r.addr r.wide r.aop r.x r.y
  let d := match r.acq with | some sc => x.2.acquire r.core sc | none => x.2
  d.updFibre r.core r.slot r.lane fun f =>
    { (landV f (.v r.vd)).owe r.vd x.1 (BitVec.allOnes 64) with wait := if f.wait == .atomic then .none else f.wait }

/-- ATOMIC_ENGINE_APPLY: the engine of a cluster, or of peer a − 64, applies one request (R299, R389); `a`: the cluster. -/
def execAtomicEngineApply (s : State) : Host.Outcome State Fault Refusal :=
  .next (s.onDev fun d =>
    let mine := if d.arg.a < 64 then (d.cluster d.arg.a).queue
      else d.fabric.filter fun r => (peerOf r.addr).map Prod.fst == some (d.arg.a - 64)
    let heads := atomHeads mine d.cycle
    let ch := d.choose
    match heads[ch.1 % heads.length]? with
    | none => d
    | some r =>
      let d := ch.2
      (if d.arg.a < 64 then d.setCluster { d.cluster d.arg.a with queue := (d.cluster d.arg.a).queue.erase r }
       else { d with fabric := d.fabric.erase r }).applyAtom r)

/-- Atomics that a peer has not received when its link goes down (R390): their fibres trap PAGEFAULT as for a Range fault. -/
def Dev.failAtoms (d : Dev) (rs : List AtomReq) : Dev :=
  let mine (f : Fibre) : Option AtomReq := rs.find? fun r => r.core == f.core && r.slot == f.slot && r.lane == f.lane
  let back (f : Fibre) : Fibre :=
    match mine f with
    | some r => { f with pc := r.pc, rec_ := r.rec_, repc := r.repc, lp0 := r.lps.1, lp1 := r.lps.2.1, lp2 := r.lps.2.2 }
    | none => f
  let unit (r : AtomReq) : FaultUnit := { stage := 0, page := 0, va := (r.va.setWidth 48).toNat, acc := 3, kind := 3, level := 3 }
  ({ d with fabric := d.fabric.filter fun r => !rs.contains r }.updFibres (fun f => (mine f).isSome) back).deliver
    (fun f => (mine f).map fun (r : AtomReq) => { cause := 5, acc := 3, addr := r.va, units := [unit r] }) Fibre.pc

/-- Every atomic under way to a peer is received or not, one choice each: 0 not (log 1). -/
def Dev.cutFabric (p : Nat) : List AtomReq → Dev → List AtomReq × Dev
  | [], d => ([], d)
  | r :: l, d =>
    if (peerOf r.addr).map Prod.fst != some p then cutFabric p l d
    else
      let ch := d.choose
      let t := cutFabric p l ch.2
      (if ch.1 == 0 then r :: t.1 else t.1, t.2)

/-! ## FENCE and PHASE (R161, R310, R314, R320) -/

/-- Release and acquire of a core at a scope, as an order code says. -/
def Dev.boundary (d : Dev) (core : Nat) (ord : BitVec 2) (sc : Scope) : Dev :=
  let d := if relOrd ord then d.release core sc else d
  if acqOrd ord then d.acquire core sc else d

/-- FENCE: strong accesses and atomics perform in program order in this model (R314); in compatibility mode it is a release or an
acquire at its scope (R320, R322). -/
def execFence (o : FenOp) (s : State) : Host.Outcome State Fault Refusal :=
  s.run (.fence o) fun d => (if d.isCompat then d.boundary d.cur.core o.ord o.scope.toNat else d).advLane o.stl

/-- PHASE: release and acquire at a scope (R161, R306, R307). -/
def execPhase (o : FenOp) (s : State) : Host.Outcome State Fault Refusal :=
  s.run (.phase o) fun d => (d.boundary d.cur.core o.ord o.scope.toNat).advLane o.stl

end Sys2Proof.Machine
end

