-- ==== Sys2Proof/Machine/Control.lean ====
section
/-! DEFINITION. Control flow, opcodes 0x54 to 0x5E (06: R131 to R146); REJOIN and END are in Events. -/

namespace Sys2Proof.Machine

/-! ## Transfers (R132 to R135) -/

/-- BR (R132). -/
def execBr (o : BrOp) (s : State) : Host.Outcome State Fault Refusal :=
  s.run (.br o) fun d => d.transfer o.stl true fun f =>
    if condZ o.cc.toNat (d.readV f (laneNo o.hv o.va)) then some (target f.pc o.off) else none

/-- JMP (R133). -/
def execJmp (o : JmpOp) (s : State) : Host.Outcome State Fault Refusal :=
  s.run (.jmp o) fun d => d.transfer o.stl true fun f => some (target f.pc o.off)

/-- The return address a call writes (R133). -/
def linkOf (pc : Addr48) : W64 := sext48 (pc + 4)

/-- CALL (R133). -/
def execCall (o : CallOp) (s : State) : Host.Outcome State Fault Refusal :=
  s.run (.call o) fun d =>
    (d.oweV o.vd.toNat fun f => some (linkOf f.pc)).transfer o.stl true fun f => some (target f.pc o.off)

/-- Whether an indirect target is bad (R135). -/
def badTarget (a : W64) : Bool := a.extractLsb' 0 2 != 0#2 || !canonical a

/-- An indirect transfer through `va`, with a link in `vd` if there is one (R134, R135). -/
def Dev.indirect (d : Dev) (stl : BitVec 2) (va : Nat) (vd : Option Nat) : Dev :=
  let dest (f : Fibre) : W64 := d.readV f va
  d.split (fun f => if badTarget (dest f) then some (tAlign (dest f)) else none) fun d1 =>
    let dests := d1.active.map fun f => ((f.slot, f.lane), (dest f).setWidth 48)
    let d2 := match vd with
      | some n => d1.oweV n fun f => some (linkOf f.pc)
      | none => d1
    d2.transfer stl true fun f => (dests.find? fun p => p.1 == (f.slot, f.lane)).map Prod.snd

/-- JI (R134). -/
def execJi (o : IndOp) (s : State) : Host.Outcome State Fault Refusal :=
  s.run (.ji o) fun d => d.indirect o.stl (laneNo o.hv o.va) none

/-- RET: as JI (R134). -/
def execRet (o : IndOp) (s : State) : Host.Outcome State Fault Refusal :=
  s.run (.ret o) fun d => d.indirect o.stl (laneNo o.hv o.va) none

/-- CALLI: the target is read before the link is written (R134). -/
def execCalli (o : IndLOp) (s : State) : Host.Outcome State Fault Refusal :=
  s.run (.calli o) fun d => d.indirect o.stl (laneNo o.hv o.va) (some (laneNo o.hv o.vd))

/-! ## FORK (R137, R138) -/

/-- The fibre that FORK creates for `f` in a slot and at a window base (R137). -/
def Dev.forkChild (d : Dev) (o : ForkOp) (f : Fibre) (slot base : Nat) : Fibre :=
  let lo := o.va.toNat
  { core := f.core, slot := slot, lane := f.lane, warpid := ((d.warp? f.core slot).map Warp.warpid).getD 0, helper := f.helper
    pc := target f.pc o.off, winbase := base
    win := (List.range f.win.length).map fun n => if lo ≤ n ∧ n ≤ lo + o.cnt.toNat then d.readV f n else 0
    pred := f.pred, lp0 := f.lp0, lp1 := f.lp1, lp2 := f.lp2, fpctl := f.fpctl, trapcause := 0, trappc := 0, trapaddr := 0
    ilenc := 0, ilf0 := 0, ilf1 := 0, ilf2 := 0, ilf3 := 0, rec_ := f.rec_, repc := f.repc, mdone := 0, wait := .none
    age := d.cycle, ready := d.cycle + 1, infl := [], outst := [], late := none, trapped := false, units := []
    cohort := 0 }

/-- FORK for one fibre: it waits, a cohort by itself, when there is no position or no window (R138, R274). -/
def Dev.forkOne (o : ForkOp) (d : Dev) (f : Fibre) : Dev :=
  match d.forkPlace f with
  | none => d.updFibre f.core f.slot f.lane fun x => { x with wait := .fork, cohort := 0 }
  | some p => { d with fibres := d.fibres ++ [d.forkChild o f p.1 p.2] }.giveOut f.core [(f.lane, p.2, f.win.length)] []

/-- FORK (R137, R138): members without room wait, the others go on. -/
def execFork (o : ForkOp) (s : State) : Host.Outcome State Fault Refusal :=
  s.run (.fork o) fun d =>
    let d1 := d.active.foldl (Dev.forkOne o) d
    if d1.active.all fun f => f.wait == .fork then d1.unissue
    else (d1.narrow fun f => f.wait != .fork).advLane o.stl

/-! ## LOOP (R143) -/

/-- The lowest inactive level of a fibre (R31). -/
def Fibre.freeLevel (f : Fibre) : Option Nat :=
  if f.lp0.count == 0 then some 0 else if f.lp1.count == 0 then some 1 else if f.lp2.count == 0 then some 2 else none

/-- Takes a level (R143). -/
def Fibre.takeLevel (f : Fibre) (l : LoopLevel) : Fibre :=
  match f.freeLevel with
  | some 0 => { f with lp0 := l }
  | some 1 => { f with lp1 := l }
  | some _ => { f with lp2 := l }
  | none => f

/-- LOOP with a count for each fibre (R143). -/
def Dev.loop (d : Dev) (stl : BitVec 2) (off : BitVec 12) (cnt : Fibre → BitVec 32) : Dev :=
  let last (f : Fibre) : Addr48 := f.pc + off.setWidth 48 * 4
  d.split (fun f => if cnt f != 0 && f.freeLevel.isNone then some (illTrap d.cur.word ⟨7, 0, 22⟩) else none) fun d1 =>
    let skip := d1.active.filterMap fun f => if cnt f == 0 then some ((f.slot, f.lane), last f + 4) else none
    let d2 := d1.updActive fun f => if cnt f == 0 then f else f.takeLevel ⟨cnt f, f.pc + 4, last f⟩
    d2.transfer stl true fun f => (skip.find? fun p => p.1 == (f.slot, f.lane)).map Prod.snd

/-- LOOP with an immediate count (R143). -/
def execLoopImm (o : LoopIOp) (s : State) : Host.Outcome State Fault Refusal :=
  s.run (.loopImm o) fun d => d.loop o.stl o.off fun _ => o.cnt.setWidth 32

/-- LOOP with a uniform count (R143). -/
def execLoopUniform (o : LoopUOp) (s : State) : Host.Outcome State Fault Refusal :=
  s.run (.loopUniform o) fun d =>
    d.loop o.stl o.off fun f => (d.readKAs (f.slot * 32 + f.lane) o.kc.toNat).setWidth 32

/-! ## NOP, YIELD, SETPERF.L (R140, R146) -/

/-- NOP (R140). -/
def execNop (o : NulOp) (s : State) : Host.Outcome State Fault Refusal :=
  s.run (.nop o) fun d => d.advLane o.stl

/-- YIELD: not ready for the four issue slots after its own (R140). -/
def execYield (o : NulOp) (s : State) : Host.Outcome State Fault Refusal :=
  s.run (.yield o) fun d =>
    (d.advLane o.stl).updActive fun f => { f with wait := .yielding (d.cycle + 5 * d.pass d.cur.core) }

/-- A performance request of the batch's context (R262). -/
def Dev.askPerf (d : Dev) (v : Nat) : Dev :=
  if d.allHelpers then d else d.updHub fun h => h.updCtx d.grp.ctx fun c => { c with perfReq := min v 7 }

/-- SETPERF.L: the largest value among the fibres that are no helpers (R146). -/
def execSetperfL (o : IndOp) (s : State) : Host.Outcome State Fault Refusal :=
  s.run (.setperfL o) fun d =>
    (d.askPerf ((d.active.filter fun f => !f.helper).foldl (fun m f => max m (d.readV f (laneNo o.hv o.va)).toNat) 0)).advLane o.stl

end Sys2Proof.Machine
end

