-- ==== Sys2Proof/Machine/Events.lean ====
section
/-! DEFINITION. Event tokens, pending slots, delivery, barriers (07: R165 to R174; 06: R141, R142; 15: R310). -/

namespace Sys2Proof.Machine

/-! ## Tokens (R165) -/

/-- The NAME bits a KIND allows; none for a reserved KIND. -/
def nameBits (k : Nat) : Option Nat :=
  match k with
  | 1 => some 19
  | 2 | 3 | 4 | 6 => some 28
  | 5 => some 8
  | 7 => some 5
  | _ => none

/-- Whether a token is bad (R165). -/
def badToken (t : W32) : Bool :=
  match nameBits (tokKind t) with
  | none => true
  | some n => decide (2 ^ n ≤ tokName t) || (tokKind t == 3 && decide (511 < tokCore t) && tokCore t != 0x3FF)

/-- The token of a uniform operand. -/
def tokOf (v : W64) : W32 := v.extractLsb' 32 32

/-- Whether a write pointer has reached the threshold of a KIND 2 token, in serial order modulo 2^25. -/
def reachedBy (wp : W64) (t : W32) : Bool :=
  decide ((bitsOf wp.toNat 8 25 + 2 ^ 25 - bitsOf t.toNat 0 25) % 2 ^ 25 < 2 ^ 24)

/-- The write pointer a KIND 2 token names, if its threshold is reached. -/
def Dev.copyReached (d : Dev) (core ctx : Nat) (t : W32) : Option W64 :=
  if tokKind t != 2 then none
  else
    let wp := ((d.core core).chan ctx (bitsOf t.toNat 25 3)).wp
    if reachedBy wp t then some wp else none

/-! ## Pending slots (R167, R168) -/

/-- The lowest slot that holds no token. -/
def Warp.freeSlot (w : Warp) : Option Nat := w.pend.findIdx? Option.isNone

/-- ARM in one warp: a token already armed stays as it is; `now` latches at once. -/
def Warp.arm (w : Warp) (t : W32) (now : Option W64) : Warp :=
  match w.slotOf t, w.freeSlot with
  | none, some i => { w with pend := w.pend.set i (some ⟨t, now, 0⟩) }
  | _, _ => w

/-- DISARM in one warp. -/
def Warp.disarm (w : Warp) (t : W32) : Warp :=
  match w.slotOf t with
  | some i => { w with pend := w.pend.set i none }
  | none => w

/-! ## Delivery (R165, R169) -/

/-- A delivery register of a warp is written at once, after every earlier write of it (R28). -/
def Dev.clearDelivery (d : Dev) (w : Warp) : Dev :=
  d.updGroup w.gid fun g => { g with
    infl := g.infl.filter fun e => match e.reg with
      | .k n => decide (n < 64 * (w.slot + 1) + 55) || decide (64 * (w.slot + 1) + 64 ≤ n)
      | _ => true
    outst := g.outst.filter fun o => match o.reg with | .k n => !(decide (55 ≤ n) && o.slot == w.slot) | _ => true }

/-- Eight payload registers: what is not filled receives 0. -/
def payload (p : List W64) : List W64 := (List.range 8).map fun i => nth p i 0

/-- Delivers to a warp (R169): k55 to k63, and every fibre of it continues at the binding's handler, as one cohort (R274). -/
def Dev.giveEvent (d : Dev) (w : Warp) (binding : W64) (p : List W64) (sc : Nat) : Dev :=
  let d := d.acquire w.core sc
  let d := (d.clearDelivery w).updWarp w.core w.slot fun x =>
    { x with kd := (tokOf binding).setWidth 64 :: payload p, park := none }
  let entry := ((d.group? w.gid).map Group.entry).getD 0
  let pc := entry + (binding.extractLsb' 0 32).setWidth 48
  { (d.updFibres (fun f => f.core == w.core && f.slot == w.slot) fun f => f.release pc d.cycle (cohortAt d.free pc 2)) with
    free := d.free + 1 }

/-- The binding at which a parked warp waits for a token, unless it is armed in a masked slot or the warp is stopped
(R169, R250). -/
def Dev.wakeIndex (d : Dev) (w : Warp) (t : W32) : Option Nat :=
  match w.park with
  | none => none
  | some bs =>
    let run := match d.group? w.gid with | some g => g.stat == .running | none => false
    let masked := match w.slotOf t with | some i => w.evmask.getLsbD i | none => false
    if !run || d.isStopped w || masked then none
    else bs.findIdx? fun b => sameTok w.core (tokOf b) t

/-- Whether a warp belongs to the context, core and group an arrival names (R166). -/
def Dev.hears (d : Dev) (a : Arrival) (w : Warp) : Bool :=
  w.core == a.core && (match d.group? w.gid with | some g => g.ctx == a.ctx | none => false) &&
  (match a.gid with | some n => w.gid == n | none => true)

/-- Resident warps that an arrival is for, by slot. -/
def Dev.hearers (d : Dev) (a : Arrival) : List Warp := sortBy Warp.slot (d.warps.filter (d.hears a))

/-- Kinds delivered to all listeners (R165). -/
def forAll (t : W32) : Bool := tokKind t == 1 || tokKind t == 2 || tokKind t == 7

/-- An arrival that wakes a warp, at a binding. -/
structure Wake where
  arr : Arrival
  core : Nat
  slot : Nat
  bind_ : Nat
  deriving DecidableEq, Repr

/-- The warps, in the order given, that the arrivals of one cycle wake, each at its lowest binding that one of them has; an arrival
for one listener goes to the first warp it so wakes (R166, R169). -/
def Dev.wakePlan (d : Dev) : List Warp → List Arrival → List Wake
  | [], _ => []
  | w :: ws, as =>
    let hit (a : Arrival) : Option Wake := if d.hears a w then (d.wakeIndex w a.token).map fun i => ⟨a, w.core, w.slot, i⟩ else none
    match minBy Wake.bind_ (as.filterMap hit) with
    | none => wakePlan d ws as
    | some h => h :: wakePlan d ws (if forAll h.arr.token then as else as.erase h.arr)

/-- What the arrivals of the cycle wake on a core; `more`: something else that is offered. -/
def Dev.wakes (d : Dev) (core : Nat) (more : List Arrival) : List Wake :=
  d.wakePlan (sortBy Warp.slot (d.warps.filter fun w => w.core == core && w.park.isSome)) (d.arrivals ++ more)

/-- The binding at which an arrival wakes a warp. -/
def Dev.wakesNow (d : Dev) (a : Arrival) (w : Warp) : Option Nat :=
  ((d.wakes w.core (if d.arrivals.contains a then [] else [a])).find? fun x => x.arr == a && x.slot == w.slot).map Wake.bind_

/-- An arrival wakes a warp at a binding. -/
def Dev.wakeAt (d : Dev) (w : Warp) (i : Nat) (p : List W64) (sc : Nat) : Dev :=
  d.giveEvent w (nth (w.park.getD []) i 0) p sc

/-- An arrival latches in a resident warp's slot. -/
def Dev.latchAt (d : Dev) (w : Warp) (i : Nat) (p : W64) (sc : Nat) : Dev := d.updWarp w.core w.slot fun x => x.latch i p sc

/-- Saved and evicted warps of a core in whose armed slots an arrival latches (R170). -/
def Saved.hears (a : Arrival) (s : Saved) : Bool :=
  s.group.ctx == a.ctx && s.group.core == a.core && (match a.gid with | some n => s.group.gid == n | none => true)

/-- The WARPIDs of a saved group whose warps have a token armed and unlatched. -/
def Dev.armedSaved (d : Dev) (t : W32) (s : Saved) : List Nat :=
  ((d.seen s).warps.filter fun w => (w.armedFree t).isSome).map Warp.warpid

/-- Latches in every saved warp that has the token armed and unlatched. -/
def Dev.latchSaved (d : Dev) (a : Arrival) : Dev :=
  d.onSaved (fun s => s.hears a && !(d.armedSaved a.token s).isEmpty) (.latch none a.token a.payload a.scope)

/-- One warp hears an event for all listeners. -/
def Dev.hearAll (a : Arrival) (d : Dev) (w : Warp) : Dev :=
  match d.wakesNow a w, w.armedFree a.token with
  | some i, _ => d.wakeAt w i [a.payload] a.scope
  | none, some i => d.latchAt w i a.payload a.scope
  | none, none => d

/-- The saved warp that takes a one-listener event: its group and WARPID. -/
def Dev.savedTaker (d : Dev) (a : Arrival) : Option (Nat × Nat) :=
  ((d.saved.filter (Saved.hears a)).flatMap fun s => (d.armedSaved a.token s).map fun w => (s.group.gid, w)).head?

/-- A one-listener event (R166): the lowest-slot parked warp it would wake, then the lowest-slot warp with the token armed and
unlatched, then a saved one. Answers the group that took it. -/
def Dev.hearOne (d : Dev) (a : Arrival) : Dev × Option Nat :=
  let ws := d.hearers a
  match ws.find? fun w => (d.wakesNow a w).isSome with
  | some w => (d.wakeAt w ((d.wakesNow a w).getD 0) [a.payload] a.scope, some w.gid)
  | none =>
    match ws.find? fun w => (w.armedFree a.token).isSome with
    | some w => (d.latchAt w ((w.armedFree a.token).getD 0) a.payload a.scope, some w.gid)
    | none =>
      match d.savedTaker a with
      | none => (d, none)
      | some p =>
        let it (s : Saved) : Bool := s.hears a && s.group.gid == p.1 && s.warps.any fun w => w.warpid == p.2
        (d.onSaved it (.latch (some p.2) a.token a.payload a.scope), some p.1)

/-- An arrival is delivered (R166); a mailbox without a listener is dropped. -/
def Dev.arrive (d : Dev) (a : Arrival) : Dev :=
  if forAll a.token then ((d.hearers a).foldl (Dev.hearAll a) d).latchSaved a else (d.hearOne a).1

/-- Delivers arrival `i`, or the first before it for the same token: those come in order (R171). -/
def Dev.arriveNth (d : Dev) (i : Nat) : Dev :=
  match d.arrivals[i]? with
  | none => d
  | some x =>
    let a := (d.arrivals.find? fun b => b.ctx == x.ctx && b.core == x.core && b.token == x.token && b.gid == x.gid).getD x
    { d.arrive a with arrivals := d.arrivals.erase a }

/-! ## Sources -/

/-- An event has reached a core. -/
def Dev.fire (d : Dev) (a : Arrival) : Dev := { d with arrivals := d.arrivals ++ [a] }

/-- The scope of a POST from a core to another (R310). -/
def postScope (src dst : Nat) : Scope :=
  if src == dst then Scope.core else if clusterOf src == clusterOf dst then Scope.cluster else Scope.device

/-- A post to a mailbox (R171): it releases at once and reaches another core within the fabric delay. -/
def Dev.post (d : Dev) (ctx src : Nat) (t : W32) (v : W64) : Dev :=
  let dst := if tokCore t == 0x3FF then src else tokCore t
  let sc := postScope src dst
  let d := d.release src sc
  let a : Arrival := { ctx := ctx, core := dst, token := BitVec.ofNat 32 (normTok src t), payload := v, gid := none, scope := sc }
  if dst == src then d.fire a else { d with posts := d.posts ++ [⟨ctx, src, a⟩] }

/-- Tokens of KIND 2 that warps of a context on a core have armed or are parked on. -/
def Dev.copyTokens (d : Dev) (core ctx : Nat) : List W32 :=
  let toks (w : Warp) : List W32 :=
    (w.pend.filterMap fun s => s.map PSlot.token) ++ ((w.park.getD []).map tokOf)
  let live := (d.warps.filter fun w => w.core == core && (match d.group? w.gid with | some g => g.ctx == ctx | none => false)).flatMap toks
  let kept := (d.saved.filter fun s => s.group.core == core && s.group.ctx == ctx).flatMap fun s => (d.seen s).warps.flatMap toks
  dedup ((live ++ kept).filter fun t => tokKind t == 2)

/-- KIND 2 tokens of a channel whose threshold an advance from `old` to `new` reaches fire. -/
def Dev.fireCopy (d : Dev) (core ctx chan : Nat) (old new : W64) : Dev :=
  ((d.copyTokens core ctx).filter fun t => bitsOf t.toNat 25 3 == chan && !reachedBy old t && reachedBy new t).foldl
    (fun d t => d.fire { ctx := ctx, core := core, token := t, payload := new, gid := none, scope := Scope.core }) d

/-- KIND 7 fires for each warp slot of the batch all of whose fibres wait at REJOIN (R165). -/
def Dev.fireRejoin (d : Dev) (slots : List Nat) : Dev :=
  slots.foldl (fun d s =>
    let fs := d.fibres.filter fun f => f.core == d.cur.core && f.slot == s
    let at_ (f : Fibre) : Bool := match f.wait with | .rejoin _ => true | _ => false
    match d.warp? d.cur.core s with
    | some w =>
      if !fs.isEmpty && fs.all at_ then
        d.fire { ctx := d.grp.ctx, core := w.core, token := BitVec.ofNat 32 (7 * 2 ^ 28 + w.warpid), payload := 0,
                 gid := some w.gid, scope := 0 }
      else d
    | none => d) d

/-- REJOIN: each fibre waits with its rejoin mask, its own bit added (R141). -/
def execRejoin (o : RejOp) (s : State) : Host.Outcome State Fault Refusal :=
  s.run (.rejoin o) fun d =>
    ((d.updActive fun f => { f with wait := .rejoin ((d.readB f o.kb o.hv o.vb).setWidth 32 ||| (1 <<< f.lane)) }).countActive o.stl
      true).fireRejoin d.slotsOf

/-- END: the active fibres retire (R139), once their earlier accesses have passed translation (R244). -/
def execEndFibre (o : NulOp) (s : State) : Host.Outcome State Fault Refusal :=
  s.run (.endFibre o) fun d =>
    if d.active.any fun f => f.late.isSome then d.hold else (d.retire d.cur.has false).fireRejoin d.slotsOf

/-! ## Releases of REJOIN, and its deadlock (R141, R142) -/

/-- The mask a fibre waits with at REJOIN. -/
def Fibre.rejoinMask (f : Fibre) : Option LaneMap := match f.wait with | .rejoin m => some m | _ => none

/-- Unretired fibres in a slot of a core. -/
def Dev.inSlot (d : Dev) (core slot : Nat) : List Fibre := d.fibres.filter fun f => f.core == core && f.slot == slot

/-- Whether the fibres waiting with a mask in a slot are released (R141). -/
def Dev.rejoinDone (d : Dev) (core slot : Nat) (m : LaneMap) : Bool :=
  let fs := d.inSlot core slot
  (fs.any fun f => f.rejoinMask == some m) &&
  fs.all fun f => !m.getLsbD f.lane || f.rejoinMask == some m

/-- Whether a fibre's group runs. -/
def Dev.isRunning (d : Dev) (f : Fibre) : Bool :=
  match d.group? (d.gidOf f) with | some g => g.stat == .running | none => false

/-- Releases the fibres that wait with a mask in a slot. -/
def Dev.rejoinRelease (d : Dev) (core slot : Nat) (m : LaneMap) : Dev :=
  if !d.rejoinDone core slot m then d
  else
    { (d.updFibres (fun f => f.core == core && f.slot == slot && f.rejoinMask == some m)
        fun f => f.after d.cycle d.free) with free := d.free + 1 }

/-- Removes from a candidate set the fibres that name somebody outside it; `n` bounds the rounds. -/
def shrinkDeadlock : Nat → List Fibre → List Fibre → List Fibre
  | 0, _, u => u
  | n + 1, all, u =>
    let inU (f : Fibre) : Bool := u.any fun g => g.lane == f.lane
    let keep (f : Fibre) : Bool := match f.rejoinMask with
      | some m => all.all fun g => !m.getLsbD g.lane || inU g
      | none => false
    shrinkDeadlock n all (u.filter keep)

/-- The largest rejoin deadlock of a slot (R142), after the releases. -/
def Dev.deadlock (d : Dev) (core slot : Nat) : List Fibre :=
  let fs := d.inSlot core slot
  if fs.any fun f => match f.rejoinMask with | some m => d.rejoinDone core slot m | none => false then []
  else shrinkDeadlock 32 fs (fs.filter fun f => f.rejoinMask.isSome)

/-- REJOINDL in every fibre of a deadlock (R142). -/
def Dev.trapDeadlock (d : Dev) (core slot : Nat) : Dev :=
  let u := d.deadlock core slot
  let lanes := lanesOf u
  let here (f : Fibre) : Bool := f.core == core && f.slot == slot && u.any fun g => g.lane == f.lane
  if u.isEmpty then d
  else d.deliver (fun f => if here f then
      some { cause := 7, addr := (lanes.setWidth 64 <<< 32) ||| ((f.rejoinMask.getD 0).setWidth 64) } else none) Fibre.pc

/-- REJOIN_RELEASE (R141); a core, b slot, v mask. -/
def execRejoinRelease (s : State) : Host.Outcome State Fault Refusal :=
  .next (s.onDev fun d => d.rejoinRelease d.arg.a d.arg.b (d.arg.v.setWidth 32))

/-- REJOINDL (R142); a core, b slot. -/
def execRejoindl (s : State) : Host.Outcome State Fault Refusal :=
  .next (s.onDev fun d => d.trapDeadlock d.arg.a d.arg.b)

/-! ## ARM, DISARM, WAITANY (R168, R169) -/

/-- The warps of the batch. -/
def Dev.batchWarps (d : Dev) : List Warp := d.slotsOf.filterMap fun s => d.warp? d.cur.core s

/-- A read of a KIND 2 token pins the group (R286). -/
def Dev.pinCopy (d : Dev) (t : W32) : Dev :=
  if tokKind t == 2 then d.updGroup d.cur.gid fun g => { g with gwx := true } else d

/-- ARM (R168). -/
def execArm (o : K1Op) (s : State) : Host.Outcome State Fault Refusal :=
  s.run (.arm o) fun d =>
    let t := tokOf (d.readK o.ka.toNat)
    if badToken t || tokKind t == 4 || d.batchWarps.any fun w => (w.slotOf t).isNone && w.freeSlot.isNone then
      d.trapAll (tBad (t.setWidth 64))
    else
      let now := d.copyReached d.cur.core d.grp.ctx t
      (d.slotsOf.foldl (fun d s => d.updWarp d.cur.core s fun w => w.arm t now) (d.pinCopy t)).advUni o.stl

/-- DISARM (R168). -/
def execDisarm (o : K1Op) (s : State) : Host.Outcome State Fault Refusal :=
  s.run (.disarm o) fun d =>
    let t := tokOf (d.readK o.ka.toNat)
    (d.slotsOf.foldl (fun d s => d.updWarp d.cur.core s fun w => w.disarm t) d).advUni o.stl

/-- The first trap of WAITANY's token checks, in binding order (R169). -/
def waitTrap (occupied : Bool) : List W64 → Option Trap
  | [] => none
  | b :: l =>
    if badToken (tokOf b) then some (tBad ((tokOf b).setWidth 64))
    else if occupied && tokKind (tokOf b) == 4 then some { cause := 12 }
    else waitTrap occupied l

/-- What a WAITANY finds at one binding: the slot to unlatch, the payload and its scope. -/
def Dev.waitHit (d : Dev) (w : Warp) (ctx : Nat) (b : W64) : Option (Option Nat × W64 × Nat) :=
  let t := tokOf b
  let latched : Option (Nat × W64 × Nat) := match w.slotOf t with
    | none => none
    | some i => if w.evmask.getLsbD i then none else (w.pslot i).bind fun s => s.latched.map fun p => (i, p, s.scope)
  match latched with
  | some x => some (some x.1, x.2.1, x.2.2)
  | none => (d.copyReached w.core ctx t).map fun p => (none, p, Scope.core)

/-- The lowest binding that has something, with what it has. -/
def Dev.waitScan (d : Dev) (w : Warp) (ctx : Nat) : List W64 → Option (W64 × Option Nat × W64 × Nat)
  | [] => none
  | b :: l => match d.waitHit w ctx b with
    | some x => some (b, x)
    | none => d.waitScan w ctx l

/-- The debug token (R404). -/
def dbgToken : W32 := 0x3FFFFFFF

/-- WAITANY for a warp with its bindings: consume, or park (R169). A warp that binds the debug token is the monitor (R404). -/
def Dev.waitAny (d : Dev) (w : Warp) (bs : List W64) : Dev :=
  let d := bs.foldl (fun d b => d.pinCopy (tokOf b)) d
  let d := d.updWarp w.core w.slot fun x => { x with mon := bs.any fun b => tokOf b == dbgToken }
  match d.waitScan w d.grp.ctx bs with
  | some (b, slot, p, sc) =>
    let unlatch (x : Warp) : Warp := match slot with
      | some i => { x with pend := x.pend.set i ((x.pslot i).map fun q => { q with latched := none, scope := 0 }) }
      | none => x
    (d.updWarp w.core w.slot unlatch).giveEvent w b [p] sc
  | none =>
    (d.updWarp w.core w.slot fun x => { x with park := some bs }).updActive fun f => { f with wait := .parked }

/-- WAITANY (R169); a fault of an earlier access is known before a warp parks (log 7). -/
def execWaitany (o : KWaitOp) (s : State) : Host.Outcome State Fault Refusal :=
  s.run (.waitany o) fun d =>
    match d.warp? d.cur.core d.cur.anchor with
    | none => d
    | some w =>
      let bs := (List.range (o.n.toNat + 1)).map fun i => d.readK (o.ka.toNat + i)
      if d.active.any fun f => f.late.isSome then d.hold
      else if !d.wholeWarp then d.trapAll tPartial
      else match waitTrap w.occ.isSome bs with
        | some t => d.trapAll t
        | none => (d.countActive o.stl false).waitAny w bs

/-! ## Region-closing instructions (R253) -/

/-- A region-closing instruction of the uniform pipe: it waits until earlier accesses have passed translation; then it traps, or
acts and closes the region. A batch of helper fibres alone does not act (R182). -/
def Dev.closing (d : Dev) (stl : BitVec 2) (t : Dev → Option Trap) (body : Dev → Dev) : Dev :=
  if d.active.any fun f => f.late.isSome then d.hold
  else match t d with
    | some t => d.trapAll t
    | none => (if d.allHelpers then d else body d).advClose stl

/-- POST (R171). -/
def execPost (o : K2Op) (s : State) : Host.Outcome State Fault Refusal :=
  s.run (.post o) fun d =>
    let t := tokOf (d.readK o.kd.toNat)
    d.closing o.stl (fun _ => if badToken t || tokKind t != 3 then some (tBad (t.setWidth 64)) else none) fun d =>
      d.post d.grp.ctx d.cur.core t (d.readK o.ka.toNat)

/-- Bit kA[7:0] of an event vector (R172). -/
def evBit (v : W64) : EvVec := (1 : EvVec) <<< (v.toNat % 256)

/-- EVSET (R172). -/
def execEvset (o : K1Op) (s : State) : Host.Outcome State Fault Refusal :=
  s.run (.evset o) fun d => d.closing o.stl (fun _ => none) fun d =>
    (d.release d.cur.core Scope.device).updHub fun h => h.setEvents d.grp.ctx (evBit (d.readK o.ka.toNat)) false

/-- EVCLR (R172). -/
def execEvclr (o : K1Op) (s : State) : Host.Outcome State Fault Refusal :=
  s.run (.evclr o) fun d => d.closing o.stl (fun _ => none) fun d =>
    (d.release d.cur.core Scope.device).updHub fun h => h.clrEvents d.grp.ctx (evBit (d.readK o.ka.toNat))

/-! ## Barriers (R173, R174, R269) -/

/-- Fibres of a group that are unretired: resident, saved or evicted. -/
def Dev.fibresOf (d : Dev) (gid : Nat) : List Fibre :=
  (d.fibres.filter (d.isOf gid)) ++ (d.saved.filter fun s => s.group.gid == gid).flatMap Saved.fibres

/-- The warps of a group that have arrived where `at_` waits: every unretired fibre of them waits there (R173). -/
def Dev.arrived (d : Dev) (gid : Nat) (at_ : Fibre → Bool) : BitVec 32 :=
  let fs := d.fibresOf gid
  let here (i : Nat) : Bool := (fs.any fun f => f.warpid == i) && fs.all fun f => f.warpid != i || at_ f
  (List.range 32).foldl (fun m i => if here i then m ||| (1 <<< i) else m) 0

/-- Whether a fibre waits at a barrier, or a team barrier. -/
def Fibre.atAny (team : Bool) (n : Nat) (f : Fibre) : Bool := if team then f.atTbar n else f.atBar n

/-- Sets the record of a group's arrivals at a barrier, or of its own at a team barrier. -/
def Group.setBar (g : Group) (team : Bool) (n : Nat) (m : BitVec 32) : Group :=
  if team then { g with tbars := g.tbars.set n m } else { g with bars := g.bars.set n m }

/-- Barrier `n` of a group is complete: its waiting fibres, resident or held in a save area, continue, each after its own barrier
instruction, and the record is 0. -/
def Dev.pastBar (d : Dev) (gid : Nat) (team : Bool) (n : Nat) : Dev :=
  let d1 := d.updFibres (fun f => d.isOf gid f && f.atAny team n) fun f => f.after d.cycle d.free
  let d2 := d1.onSaved (fun s => s.group.gid == gid && s.fibres.any (Fibre.atAny team n)) (.pass team n d.cycle d.free)
  { d2.updGroup gid fun g => g.setBar team n 0 with free := d.free + 1 }

/-- Records the arrivals of a group at barrier `n`, and completes it when no fibre is missing (R173). -/
def Dev.barSync (d : Dev) (gid n : Nat) : Dev :=
  let fs := d.fibresOf gid
  if !fs.isEmpty && fs.all (Fibre.atBar n) then
    d.pastBar gid false n
  else d.updGroup gid fun g => g.setBar false n (d.arrived gid (Fibre.atBar n))

/-- Whether barrier `n` of a group has something to do. -/
def Dev.barDue (d : Dev) (g : Group) (n : Nat) : Bool :=
  let fs := d.fibresOf g.gid
  let m := d.arrived g.gid (Fibre.atBar n)
  g.stat == .running && fs.any (Fibre.atBar n) && (m != nth g.bars n 0 || fs.all (Fibre.atBar n))

/-- BAR (R173): its release and acquire are of GROUP scope. -/
def execBar (o : KNOp) (s : State) : Host.Outcome State Fault Refusal :=
  s.run (.bar o) fun d => ((d.updActive fun f => { f with wait := .bar o.n.toNat }).countActive o.stl false).barSync d.cur.gid o.n.toNat

/-- The groups of a team that hold an unretired fibre, resident or saved. -/
def Dev.team (d : Dev) (g : Group) : List Group :=
  let mates (x : Group) : Bool := x.lid == g.lid && x.teamid == g.teamid && x.cls == g.cls
  (d.groups.filter mates) ++ ((d.saved.filter fun s => !s.partial_ && mates s.group).map Saved.group)

/-- Whether a group has arrived at team barrier `n`: one that is descheduled as replayable has not (R174). -/
def Dev.teamArrived (d : Dev) (n : Nat) (g : Group) : Bool :=
  let fs := d.fibresOf g.gid
  let away := match d.saved? g.gid with | some s => s.replay | none => g.stat == .descheduled || g.stat == .faulting
  !away && fs.all (Fibre.atTbar n)

/-- Whether team barrier `n` of a group's team is complete. -/
def Dev.tbarDone (d : Dev) (g : Group) (n : Nat) : Bool :=
  let ts := d.team g
  (ts.any fun x => (d.fibresOf x.gid).any (Fibre.atTbar n)) && ts.all (d.teamArrived n)

/-- Records the arrivals of a group at team barrier `n`, and completes it when every group of the team has arrived (R174). -/
def Dev.tbarSync (d : Dev) (gid n : Nat) : Dev :=
  match d.group? gid with
  | none => d
  | some g =>
    if d.tbarDone g n then
      (d.team g).foldl (fun d x => (d.pastBar x.gid true n).acquire x.core Scope.cluster) d
    else d.updGroup gid fun g => g.setBar true n (d.arrived gid (Fibre.atTbar n))

/-- Whether team barrier `n` of a group has something to do. -/
def Dev.tbarDue (d : Dev) (g : Group) (n : Nat) : Bool :=
  g.stat == .running && (d.fibresOf g.gid).any (Fibre.atTbar n) &&
  (d.arrived g.gid (Fibre.atTbar n) != nth g.tbars n 0 || d.tbarDone g n)

/-- TBAR (R174): it releases and acquires at CLUSTER scope. -/
def execTbar (o : KNOp) (s : State) : Host.Outcome State Fault Refusal :=
  s.run (.tbar o) fun d =>
    (((d.updActive fun f => { f with wait := .tbar o.n.toNat }).countActive o.stl false).release d.cur.core Scope.cluster).tbarSync d.cur.gid o.n.toNat

/-! ## Posts that arrive (R171) -/

/-- MAILBOX_ARRIVAL: post `a` reaches its core; posts of one core to one mailbox stay in order (R171). -/
def execMailboxArrival (s : State) : Host.Outcome State Fault Refusal :=
  .next (s.onDev fun d =>
    match d.posts[d.arg.a]? with
    | none => d
    | some p =>
      let first := (d.posts.find? fun q => q.ctx == p.ctx && q.src == p.src && q.arr.token == p.arr.token).getD p
      { d with posts := d.posts.erase first }.fire first.arr)

end Sys2Proof.Machine
end

