-- ==== Sys2Proof/Machine/Copy.lean ====
section
/-! DEFINITION. The copy engine (07: R175 to R177, 14: R284, R287 to R297) and the steps of register grants (R283, R284). -/

namespace Sys2Proof.Machine

/-! ## The request (R176) -/

/-- Physical form of a local or window address of a side; a `.g` address stays as it is. -/
def sideBase (core sp a : Nat) : Nat :=
  if sp == 0 then a
  else if sp == 4 then (if 0xFE0100000000 ≤ a ∧ a < 0xFE0100800000 then a - 0xFE0100000000 + slotBase core else a)
  else slotBase core + localOff sp a

/-- Signed value of a 24-bit field. -/
def signed24 (v : Nat) : Int := (BitVec.ofNat 24 v).toInt

/-- The fields of a request as it lies in the scratchpad: 64 bytes. -/
structure CopyReq where
  src : W64
  dst : W64
  ctl : Nat
  bobj : Nat
  cnt : List Nat
  str : List Nat
  deriving DecidableEq, Repr

/-- Reads a request. -/
def copyReq (b : List Byte) : CopyReq :=
  { src := BitVec.ofNat 64 (fieldOf b 0 8), dst := BitVec.ofNat 64 (fieldOf b 8 8), ctl := fieldOf b 0x10 4, bobj := fieldOf b 0x14 4
    cnt := (List.range 8).map fun i => fieldOf b (0x18 + 2 * i) 2
    str := (List.range 8).map fun i => fieldOf b (0x28 + 3 * i) 3 }

namespace CopyReq

/-- Source space. -/
def ssp (r : CopyReq) : Nat := bitsOf r.ctl 0 4
/-- Destination space. -/
def dsp (r : CopyReq) : Nat := bitsOf r.ctl 4 4
/-- Dimensions. -/
def dims (r : CopyReq) : Nat := bitsOf r.ctl 8 3 + 1
/-- log2 of the element bytes. -/
def esz (r : CopyReq) : Nat := bitsOf r.ctl 12 2
/-- Channel. -/
def chan (r : CopyReq) : Nat := bitsOf r.ctl 16 3
/-- The destination is strided. -/
def scat (r : CopyReq) : Bool := bitsOf r.ctl 20 1 == 1

/-- The reserved bits of CTL. -/
def ctlRes (r : CopyReq) : Bool :=
  bitsOf r.ctl 11 1 != 0 || bitsOf r.ctl 14 2 != 0 || bitsOf r.ctl 19 1 != 0 || bitsOf r.ctl 21 11 != 0

/-- The copy that a request of a group describes. -/
def copy (r : CopyReq) (order gid core slot : Nat) : Copy :=
  { order := order, gid := gid, slot := slot, ssp := r.ssp, dsp := r.dsp, src := sideBase core r.ssp r.src.toNat
    dst := sideBase core r.dsp r.dst.toNat, scat := r.scat, esz := r.esz, counts := r.cnt.take r.dims
    strides := (r.str.take r.dims).map signed24, bobj := if r.bobj == 0xFFFFFFFF then none else some r.bobj, done := 0 }

/-- The offset of the field that fails the checks of R176 which need no state, in the order of its cases. -/
def badField (r : CopyReq) : Option Nat :=
  let ds := List.range 8
  let mis (a : W64) (sp : Nat) : Bool := a.toNat % 2 ^ r.esz != 0 || (sp == 0 && !canonical a)
  if r.ctlRes then some 0x10
  else ((ds.find? fun i => decide (r.dims ≤ i) && nth r.cnt i 0 != 0).map fun i => 0x18 + 2 * i).or
    (((ds.find? fun i => decide (r.dims ≤ i) && nth r.str i 0 != 0).map fun i => 0x28 + 3 * i).or
    (if r.ssp > 4 || r.dsp > 4 then some 0x10
     else ((ds.find? fun i => decide (i < r.dims) && nth r.cnt i 0 == 0).map fun i => 0x18 + 2 * i).or
      (if mis r.src r.ssp then some 0 else if mis r.dst r.dsp then some 8 else none)))

end CopyReq

/-! ## Ranges -/

/-- Whether the element at a spot may be copied for a group: an extent or a register grant of its context (R282). -/
def Dev.copySpot (d : Dev) (g : Group) : Option Spot → Bool
  | some (.mem core o) => d.mayTouch g core o
  | some (.reg core l i _) => d.granted g.ctx core l i
  | _ => false

/-- Whether a side of a request lies in the context's extents or grants (R176, R282): every element of it, and for a local space inside
that space. -/
def Dev.sideHeld (d : Dev) (g : Group) (c : Copy) (dst : Bool) : Bool :=
  let sp := c.sp dst
  if sp == 0 then true
  else
    let s := c.span dst
    let lo := s.1.toNat
    let inLocal := sp == 4 || (decide (slotBase g.core + localOff sp 0 ≤ lo) &&
      decide (lo + s.2 ≤ slotBase g.core + localOff sp 0 + localSize sp))
    let each := (List.range c.total).all fun i => d.copySpot g (spotOf g.core (c.at_ dst i).toNat)
    decide (0 ≤ s.1) && inLocal &&
    match c.parts g.core dst with
    | [p] => (p.2.2 == s.2 && d.mayTouchRange g p.1 p.2.1 p.2.2) || each
    | _ => each

/-- Code bits of an element of a format (R198). -/
def fmtBits (f : Nat) : Nat := match f with | 2 => 8 | 3 => 6 | 4 => 4 | _ => 16

/-- Whether a format is a block format. -/
def isBlock (f : Nat) : Bool := f == 2 || f == 3 || f == 4

/-- Code bytes of a pane (R207). -/
def Pane.codeBytes (p : Pane) : Nat := ceilDiv (p.rows * p.cols * fmtBits p.fmt) 8

/-- Block length of a pane. -/
def Pane.bl (p : Pane) : Nat := if p.blk then 32 else 16

/-- Bytes of its scale area. -/
def Pane.scaleBytes (p : Pane) : Nat := if isBlock p.fmt then 2 * p.rows * p.cols / p.bl else 0

/-- Whether a granule of a pane holds none of its three parts (R291). -/
def Pane.gap (p : Pane) (g : Nat) : Bool :=
  let o := (g - p.base) * 0x1000
  !overlaps o 0x1000 0 p.codeBytes && !overlaps o 0x1000 p.scoff p.scaleBytes && !overlaps o 0x1000 (p.ngr * 0x1000 - 256) 256

/-- Whether a byte lies in a granule that a reserved pane does not use. -/
def Dev.paneGap (d : Dev) (core o : Nat) : Bool :=
  if 0x200000 ≤ o ∧ o < 0x280000 then
    let g := (o - 0x200000) / 0x1000
    match (d.core core).walk.bind fun w => w.paneAt g with
    | some p => p.st == .reserved && p.gap g
    | none => false
  else false

/-- Whether the walk keeps a copy out of a range of a core's slot (R291). -/
def Dev.copyShut (d : Dev) (core o n : Nat) : Bool :=
  (List.range (n / 0x1000 + 2)).any fun i =>
    let a := if i == 0 then o else (o / 0x1000 + i) * 0x1000
    decide (a < o + n) && (d.walkGuard core a || d.paneGap core a)

/-- Whether a side of a copy is kept out. -/
def Dev.sideShut (d : Dev) (core : Nat) (c : Copy) (dst : Bool) : Bool :=
  (c.parts core dst).any fun p => d.copyShut p.1 p.2.1 p.2.2

/-! ## Acceptance (R175, R287, R288, R293) -/

/-- The trap of a CPYK at a request offset of a group (R175, R176, R290, R291). -/
def Dev.copyTrap (d : Dev) (g : Group) (off : Nat) : Option Trap :=
  let at_ (o : Nat) : W64 := BitVec.ofNat 64 (off + o)
  if off % 64 != 0 then some (tAlign (at_ 0))
  else if !d.mayTouch g g.core off then some (tGrant (at_ 0))
  else
    let r := copyReq (leBytes 64 (d.spad g.core off 64))
    match r.badField with
    | some o => some (tGrant (at_ o))
    | none =>
      let c := r.copy 0 g.gid g.core 0
      if !d.sideHeld g c false then some (tGrant (at_ 0))
      else if !d.sideHeld g c true then some (tGrant (at_ 8))
      else if (match c.bobj with
        | some o => o % 8 != 0 || !(decide (o < 0x80000) && d.mayTouch g g.core o)
        | none => false) then some (tGrant (at_ 0x14))
      else if d.sideShut g.core c false then some (tShutter 3 (at_ 0))
      else if d.sideShut g.core c true then some (tShutter 3 (at_ 8))
      else none

/-- The shutter entries a copy takes, each with the core whose table holds it (R293). -/
def Copy.entries (c : Copy) (ctx core chan : Nat) : List (Nat × Shut) :=
  [false, true].flatMap fun dst => (c.parts core dst).map fun p =>
    (p.1, { first := p.2.1, last := p.2.1 + p.2.2, ctx := ctx, orig := core, chan := chan,
            kind := if dst then 2 else 1, owner := c.order })

/-- Accepted requests of a core. -/
def Core.copies (c : Core) : List Copy := c.chans.flatMap Chan.reqs

/-- Whether there is room for a request (R287, R293): 16 on its channel, 64 on the core, 32 entries in each table. -/
def Dev.copyRoom (d : Dev) (ctx core chan : Nat) (c : Copy) : Bool :=
  let co := d.core core
  let es := c.entries ctx core chan
  decide (((co.chan ctx chan).reqs).length < 16) && decide (co.copies.length < 64) &&
  es.all fun e => decide ((d.core e.1).shut.length + (es.filter fun x => x.1 == e.1).length ≤ 32)

/-- Changes a channel of a core. -/
def Core.setChan (c : Core) (x : Chan) : Core :=
  { c with chans := x :: c.chans.filter fun y => !(y.ctx == x.ctx && y.chan == x.chan) }

/-- Accepts a request (R288). -/
def Dev.acceptCopy (d : Dev) (g : Group) (r : CopyReq) : Dev :=
  let c := r.copy d.nextCopy g.gid g.core d.cur.anchor
  let es := c.entries g.ctx g.core r.chan
  let own (a : W64) (sp : Nat) : Bool := sp == 4 && isOwnDirect g.core a.toNat
  let d := es.foldl (fun d e => d.updCore e.1 fun x => { x with shut := x.shut ++ [e.2] }) d
  let d := d.updCore g.core fun x =>
    let ch := x.chan g.ctx r.chan
    x.setChan { ch with reqs := ch.reqs ++ [c], qp := ch.qp + BitVec.ofNat 64 (c.total * 2 ^ c.esz) }
  let d := if own r.src r.ssp || own r.dst r.dsp then d.updGroup g.gid fun g => { g with gwx := true } else d
  { d with nextCopy := d.nextCopy + 1 }

/-- CPYK (R175): held while the channel, the core or a shutter table is full. -/
def execCpyk (o : K1Op) (s : State) : Host.Outcome State Fault Refusal :=
  s.run (.cpyk o) fun d =>
    let g := d.grp
    let off := bitsOf (d.readK o.ka.toNat).toNat 0 19
    let r := copyReq (leBytes 64 (d.spad g.core off 64))
    let trap : Option Trap := if d.cur.members.length < 32 then some tPartial else d.copyTrap g off
    if trap.isNone && !d.allHelpers && !d.copyRoom g.ctx g.core r.chan (r.copy 0 g.gid g.core 0) then d.hold
    else d.closing o.stl (fun _ => trap) fun d => d.acceptCopy g r

/-! ## Elements (R288 to R296) -/

/-- Where an element of a side is, or the unit of its fault. -/
def Dev.elemPlace (d : Dev) (ctx core : Nat) (c : Copy) (dst : Bool) : Except FaultUnit Place × Dev :=
  let a := c.at_ dst c.done
  if c.sp dst == 0 then
    let t := d.translate core ctx ((BitVec.ofInt 48 a).toNat) (if dst then 2 else 1)
    match t.1 with
    | .ok p => (.ok (.phys p), t.2)
    | .error u => (.error u, t.2)
  else match spotOf core a.toNat with
    | some s => (.ok (placeOf s), d)
    | none => (.ok (.phys a.toNat), d)

/-- Whether an element must wait for an earlier request's live range (R296). -/
def Dev.elemWaits (d : Dev) (core : Nat) (c : Copy) : Bool :=
  let hit (dst : Bool) : Bool :=
    if c.sp dst == 0 then false
    else match spotOf core (c.at_ dst c.done).toNat with
      | some (.mem k o) => (d.core k).shut.any fun e =>
          e.kind != 3 && decide (e.owner < c.order) && (dst || e.kind == 2) && overlaps o (2 ^ c.esz) e.first (e.last - e.first)
      | _ => false
  hit false || hit true

/-- The fibre of a context whose window holds a bank register: no copy reaches the registers of another context (R282). -/
def Dev.regOf (d : Dev) (ctx core l i : Nat) : Option Fibre :=
  (d.regOwner core l i).filter fun f => ((d.group? (d.gidOf f)).map Group.ctx) == some ctx

/-- Reads an element of a context through the core's view without a snapshot (R316); of a register whose window is gone the spec states
no value (log 31). -/
def Dev.elemRead (d : Dev) (ctx core n : Nat) : Place → Nat × Dev
  | .phys a | .dbg a => let r := d.onView [] (MemSys.loadsNow core n a); (leVal r.1, r.2)
  | .reg k l i b =>
    match d.regOf ctx k l i with
    | none => (bitsOf (Config.lostSource d.free).toNat 0 (8 * n), { d with free := d.free + 1 })
    | some f =>
      if k == core then (bitsOf (f.vreg (i - f.winbase)).toNat (8 * b) (8 * n), d)
      else let r := d.onView [regByte k l i b / 64] (MemSys.loadsNow core n (regByte k l i b)); (leVal r.1, r.2)
  | .ctl _ => (0, d)

/-- Writes an element: a store of the core (R316), or of a register, which is readable at once (R285, R318); a window that is gone
discards it (R284). -/
def Dev.elemWrite (d : Dev) (ctx core n v : Nat) : Place → Dev
  | .phys a | .dbg a => d.updMs fun ms => MemSys.storeBytes core (leBytes n v) a ms
  | .reg k l i b =>
    match d.regOf ctx k l i with
    | none => d
    | some f =>
      if k == core then
        d.updFibre k f.slot l fun f => { f with win := f.win.set (i - f.winbase) (putBytes (f.vreg (i - f.winbase)) b n (BitVec.ofNat 64 v)) }
      else d.onMs [regByte k l i b / 64] (MemSys.strongStores core Scope.device (leBytes n v) (regByte k l i b))
  | .ctl _ => d

/-- Counts a barrier object down by an element's bytes (R290). -/
def Dev.countDown (d : Dev) (core ctx off e : Nat) : Dev :=
  let v := d.spad core off 4
  let d := d.onchipPut core off (leBytes 4 ((v + 2 ^ 32 - e) % 2 ^ 32))
  if 1 ≤ v ∧ v ≤ e then
    d.fire { ctx := ctx, core := core, token := BitVec.ofNat 32 (2 ^ 28 + off), payload := 0, gid := none, scope := Scope.core }
  else d

/-- The live part of an entry of a request after `done` elements (R294): the dense side shrinks from the front. -/
def Shut.shrink (e : Shut) (c : Copy) : Shut :=
  if e.owner == c.order && ((e.kind == 2) != c.scat) && (e.kind == 1 || e.kind == 2) then { e with first := e.first + 2 ^ c.esz } else e

/-- An element has been performed (R288, R290, R294). -/
def Dev.elemDone (d : Dev) (core ctx chan : Nat) (c : Copy) : Dev :=
  let e := 2 ^ c.esz
  let last := c.done + 1 == c.total
  let ch := (d.core core).chan ctx chan
  let wp := ch.wp + BitVec.ofNat 64 e
  let reqs := if last then ch.reqs.drop 1 else { c with done := c.done + 1 } :: ch.reqs.drop 1
  let tidy (l : List Shut) : List Shut :=
    if last then l.filter fun x => !(x.kind != 3 && x.owner == c.order) else l.map fun x => x.shrink c
  let d : Dev := { d with cores := d.cores.map fun (x : Core) => { x with shut := tidy x.shut } }
  let d := (d.updCore core fun x => x.setChan { ch with wp := wp, reqs := reqs }).dropHeld
  let d := match c.bobj with | some o => d.countDown core ctx o e | none => d
  d.fireCopy core ctx chan ch.wp wp

/-- The channel's oldest request performs an element, waits, or stalls on a page fault (R288, R292, R296). -/
def Dev.copyElement (d : Dev) (core ctx chan : Nat) : Dev :=
  let ch := (d.core core).chan ctx chan
  match ch.reqs with
  | [] => d
  | c :: _ =>
    if ch.stalled || d.elemWaits core c then d
    else
      let a := d.elemPlace ctx core c false
      let b := a.2.elemPlace ctx core c true
      let d := b.2
      match a.1, b.1 with
      | .ok p, .ok q =>
        let r := d.elemRead ctx core (2 ^ c.esz) p
        (r.2.elemWrite ctx core (2 ^ c.esz) r.1 q).elemDone core ctx chan c
      | x, y =>
        let unit (r : Except FaultUnit Place) : List FaultUnit := match r with | .error u => [u] | .ok _ => []
        let us := unit x ++ unit y
        let r := d.addCase (.chan core ctx chan) ctx us 0
        if r.2 then r.1.updCore core fun k => k.setChan { k.chan ctx chan with stalled := true }
        else r.1.chanFail core ctx chan (firstLost us [])

/-- COPY_ELEMENT (R288); a core, b ctx, c chan. -/
def execCopyElement (s : State) : Host.Outcome State Fault Refusal :=
  .next (s.onDev fun d => d.copyElement d.arg.a d.arg.b d.arg.c)

/-- Whether a channel can perform an element now. -/
def Dev.chanReady (d : Dev) (core : Nat) (ch : Chan) : Bool :=
  match ch.reqs with
  | [] => false
  | c :: _ => !ch.stalled && !d.elemWaits core c

/-- Whether a live copy of a context touches bytes of a core's slot (R291). -/
def Dev.copyTouches (d : Dev) (ctx core o n : Nat) : Bool :=
  d.cores.any fun k => k.chans.any fun ch => ch.ctx == ctx && ch.reqs.any fun c => [false, true].any fun dst =>
    (c.parts k.no dst).any fun p => p.1 == core && overlaps o n p.2.1 p.2.2

/-! ## Register grants (R283, R284) -/

/-- Whether a grant that waits to lapse can lapse now. -/
def Dev.lapseDue (d : Dev) (g : Group) (e : Nat) : Bool :=
  match nth g.grants e none with
  | some r => r.closing && !d.copyInto g r
  | none => false

/-- A waiting grant lapses (R284). -/
def Dev.lapseNow (d : Dev) (gid e : Nat) : Dev :=
  match d.group? gid with
  | none => d
  | some g =>
    match nth g.grants e none with
    | some r => if d.lapseDue g e then d.updGroup gid fun g => { g with grants := g.grants.set e (r.next.map grantOf) } else d
    | none => d

/-- GRANT_LAPSE (R284); a gid, b entry. -/
def execGrantLapse (s : State) : Host.Outcome State Fault Refusal :=
  .next (s.onDev fun d => d.lapseNow d.arg.a d.arg.b)

/-- The group of the warp in a slot of a core. -/
def Dev.gidAt (d : Dev) (core slot : Nat) : Nat := ((d.warp? core slot).map Warp.gid).getD 0

/-- GOPEN_WRITE (R283): a store to GOPEN that passed its check takes effect; a core, b slot, v the value. -/
def execGopenWrite (s : State) : Host.Outcome State Fault Refusal :=
  .next (s.onDev fun d =>
    let gid := d.gidAt d.arg.a d.arg.b
    match d.group? gid with
    | some g => if d.gopenOk g d.arg.v then d.gopen gid d.arg.v else d
    | none => d)

/-- GCLOSE_WRITE (R284); a core, b slot, v the value. -/
def execGcloseWrite (s : State) : Host.Outcome State Fault Refusal :=
  .next (s.onDev fun d => d.gclose (d.gidAt d.arg.a d.arg.b) d.arg.v)

end Sys2Proof.Machine
end

