-- ==== Sys2Proof/Machine/Work.lean ====
section
/-! DEFINITION. Work instructions (07: R178 to R181, 19: R345, R367 to R369) and the delivery of queue items and handoffs. -/

namespace Sys2Proof.Machine

/-! ## Handoffs (R178) -/

/-- Takes units [o, o + n) out of extents. -/
def cutExtents (o n : Nat) (es : List Extent) : List Extent :=
  es.flatMap fun e =>
    (if e.first < o then [⟨e.first, min e.len (o - e.first)⟩] else []) ++
    (if o + n < e.first + e.len then [⟨max e.first (o + n), e.first + e.len - max e.first (o + n)⟩] else [])

/-- Whether a group holds scratchpad units [o, o + n). -/
def Group.holdsUnits (g : Group) (o n : Nat) : Bool :=
  (List.range n).all fun i => g.spad.any fun e => decide (e.first ≤ o + i) && decide (o + i < e.first + e.len)

/-- First unit and units of a scratchpad handle. -/
def handleRun (h : W64) : Nat × Nat := (bitsOf h.toNat 32 19, bitsOf h.toNat 0 16)

/-- Takes the extent of a handle from a group. -/
def Group.dropHandle (g : Group) (h : W64) : Group :=
  if h.toNat / 2 ^ 62 == 0 then
    { g with spad := cutExtents (handleRun h).1 (handleRun h).2 g.spad
             gaveUnits := g.gaveUnits ++ (if (handleRun h).2 == 0 then [] else [⟨(handleRun h).1, (handleRun h).2⟩]) }
  else { g with aslots := g.aslots.filter (· != bitsOf h.toNat 0 4), gaveSlots := g.gaveSlots ++ [bitsOf h.toNat 0 4] }

/-- Gives the extent of a handle to a group. -/
def Group.addHandle (g : Group) (h : W64) : Group :=
  if h.toNat / 2 ^ 62 == 0 then
    (if (handleRun h).2 == 0 then g
     else { g with spad := g.spad ++ [⟨(handleRun h).1, (handleRun h).2⟩]
                   gaveUnits := cutExtents (handleRun h).1 (handleRun h).2 g.gaveUnits })
  else { g with aslots := g.aslots ++ [bitsOf h.toNat 0 4], gaveSlots := g.gaveSlots.filter (· != bitsOf h.toNat 0 4) }

/-- The trap of a HANDOFF (R178). -/
def Group.handoffTrap (g : Group) (h : W64) : Option Trap :=
  if h.toNat / 2 ^ 62 ≥ 2 then some (tBad 0)
  else if h.toNat / 2 ^ 62 == 1 then (if g.aslots.contains (bitsOf h.toNat 0 4) then none else some (tGrant 0))
  else if g.holdsUnits (handleRun h).1 (handleRun h).2 then none else some (tGrant 0)

/-- HANDOFF (R178). -/
def execHandoff (o : K2Op) (s : State) : Host.Outcome State Fault Refusal :=
  s.run (.handoff o) fun d =>
    let h := d.readK o.kd.toNat
    d.closing o.stl (fun d => d.grp.handoffTrap h) fun d =>
      { (d.updGroup d.cur.gid fun g => g.dropHandle h) with
        handoffs := d.handoffs ++ [⟨d.grp.ctx, d.cur.core, bitsOf (d.readK o.ka.toNat).toNat 0 28, h⟩] }

/-- The event of a handoff. -/
def Handoff.event (x : Handoff) : Arrival :=
  { ctx := x.ctx, core := x.core, token := BitVec.ofNat 32 (6 * 2 ^ 28 + x.name), payload := x.handle, gid := none,
    scope := Scope.core }

/-- Offers a handoff (R166, R178): what it passes becomes the receiving group's. -/
def Dev.offerHandoff (d : Dev) (x : Handoff) : Dev :=
  let r := d.hearOne x.event
  match r.2 with
  | none => d
  | some gid =>
    let d := r.1
    { (d.updGroup gid fun g => g.addHandle x.handle) with
      handoffs := d.handoffs.erase x
      saved := updWhere (fun s => s.group.gid == gid && !s.partial_) (fun s => { s with group := s.group.addHandle x.handle }) d.saved }

/-! ## Hardware work queues (R179, R369) -/

/-- What a look at a hardware work queue finds. -/
inductive QLook where
  | notConfigured
  /-- An access that cannot be translated, with the address it reports. -/
  | fault (u : FaultUnit) (addr : Nat)
  | empty
  /-- The oldest item; where HEAD lies, and its value. -/
  | item (v : W64) (headAt head : Nat)
  deriving DecidableEq, Repr

/-- Looks at queue `q` of a context (R369): the table entry through stage 2 alone, the tail and the ring through both stages. -/
def Dev.lookQueue (d : Dev) (ctx q : Nat) : QLook :=
  match d.hub.ctx? ctx with
  | none => .notConfigured
  | some c =>
    if c.wqt == 0 then .notConfigured
    else
      let e := c.wqt + 32 * q
      match d.translateIpa c.vf e 1 with
      | .error u => .fault u e
      | .ok pa =>
        let b := d.ms.readDevice pa 32
        let size := fieldOf b 8 4
        if size == 0 || size > 20 then .notConfigured
        else
          let taila := fieldOf b 0x10 8 % 2 ^ 48
          match d.translateHub ctx taila 1 with
          | .error u => .fault u (vaOf taila)
          | .ok tp =>
            let head := fieldOf b 0xC 4
            if leVal (d.ms.readDevice tp 4) == head then .empty
            else
              let ia := (fieldOf b 0 8 + 8 * (head % 2 ^ size)) % 2 ^ 48
              match d.translateHub ctx ia 1 with
              | .error u => .fault u (vaOf ia)
              | .ok ip =>
                match d.translateIpa c.vf (e + 12) 2 with
                | .error u => .fault u e
                | .ok hp => .item (BitVec.ofNat 64 (leVal (d.ms.readDevice ip 8))) hp head

/-- Removes the item that was looked at: HEAD advances, with an acquire at DEVICE scope by the core (R310). -/
def Dev.takeItem (d : Dev) (core headAt head : Nat) : Dev :=
  (d.updMs fun ms => ms.poke .hub headAt (leBytes 4 ((head + 1) % 2 ^ 32))).acquire core Scope.device

/-- QPULL (R179). A batch of helper fibres alone gets all ones (R182). -/
def execQpull (o : K2Op) (s : State) : Host.Outcome State Fault Refusal :=
  s.run (.qpull o) fun d =>
    if d.active.any fun f => f.late.isSome then d.hold
    else if d.allHelpers then (d.oweK o.kd.toNat (BitVec.allOnes 64)).advClose o.stl
    else match d.lookQueue d.grp.ctx ((d.readK o.ka.toNat).toNat % 256) with
      | .notConfigured => d.trapAll (tGrant 0)
      | .fault u a => d.trapAll { cause := 5, acc := 3, addr := BitVec.ofNat 64 a, units := [u] }
      | .empty => (d.oweK o.kd.toNat (BitVec.allOnes 64)).advClose o.stl
      | .item v at_ head => ((d.takeItem d.cur.core at_ head).oweK o.kd.toNat v).advClose o.stl

/-- The event of an item. -/
def itemEvent (ctx core q : Nat) (v : W64) : Arrival :=
  { ctx := ctx, core := core, token := BitVec.ofNat 32 (5 * 2 ^ 28 + q), payload := v, gid := none, scope := Scope.device }

/-- A record for a queue item access whose page request failed (R179). -/
def Dev.itemRecord (d : Dev) (ctx addr : Nat) : Dev := d.addRec (bareRec ctx (pfCause 3) addr 0)

/-- Offers the oldest item of a queue on a core where it has a listener (R165, R166); a fault raises page requests (R179). -/
def Dev.offerItem (d : Dev) (core ctx q : Nat) : Dev :=
  if (d.hearOne (itemEvent ctx core q 0)).2.isNone then d
  else match d.lookQueue ctx q with
    | .item v at_ head => ((d.hearOne (itemEvent ctx core q v)).1).takeItem core at_ head
    | .fault u a =>
      if d.waits (.wqueue ctx q) then d
      else
        let r := d.addCase (.wqueue ctx q) ctx [u] a
        if r.2 then r.1 else r.1.itemRecord ctx a
    | _ => d

/-- The queue items that a warp of a context on a core listens for: core, context and queue. -/
def Warp.items (core ctx : Nat) (w : Warp) : List (Nat × Nat × Nat) :=
  (((w.pend.filterMap fun s => s.map PSlot.token) ++ ((w.park.getD []).map tokOf)).filter fun t => tokKind t == 5).map
    fun t => (core, ctx, tokName t)

/-- The queue items that resident and saved warps listen for (R166, R170). -/
def Dev.itemListeners (d : Dev) : List (Nat × Nat × Nat) :=
  dedup ((d.warps.flatMap fun w => w.items w.core (((d.group? w.gid).map Group.ctx).getD 0)) ++
    d.saved.flatMap fun s => (d.seen s).warps.flatMap fun w => w.items s.group.core s.group.ctx)

/-- Whether an item is there for a listener. -/
def Dev.itemReady (d : Dev) (l : Nat × Nat × Nat) : Bool :=
  (match d.lookQueue l.2.1 l.2.2 with | .item _ _ _ => true | _ => false) && (d.hearOne (itemEvent l.2.1 l.1 l.2.2 0)).2.isSome

/-- Whether an item's access faults with nobody waiting for the pages. -/
def Dev.itemFaults (d : Dev) (l : Nat × Nat × Nat) : Bool :=
  (match d.lookQueue l.2.1 l.2.2 with | .fault _ _ => true | _ => false) && !d.waits (.wqueue l.2.1 l.2.2)

/-- EVENT_DELIVERY (R166, R169): an arrival, a queue item or a handoff is delivered; a core, b n, c source, d context. -/
def execEventDelivery (s : State) : Host.Outcome State Fault Refusal :=
  .next (s.onDev fun d =>
    if d.arg.c == 5 then d.offerItem d.arg.a d.arg.d d.arg.b
    else if d.arg.c == 6 then
      match d.handoffs[d.arg.b]? with
      | some x => d.offerHandoff x
      | none => d
    else d.arriveNth d.arg.b)

/-! ## Node bins (R180, R367) -/

/-- A configured bin of a cluster. -/
def Cluster.bin? (c : Cluster) (n : Nat) : Option Bin := getBy Bin.no n c.bins

/-- When a countdown that starts now expires, CD microseconds on; none for CD 0 (R367). -/
def Bin.countdown (b : Bin) (now : Nat) : Option Nat := if b.cd == 0 then none else some (now + b.cd * 1050)

/-- Appends a record to a bin; the countdown starts when it enters an empty bin (R368). -/
def Bin.put (b : Bin) (r : BinRec) (now : Nat) : Bin :=
  { b with recs := b.recs ++ [r], expires := if b.recs.isEmpty then b.countdown now else b.expires }

/-- The trap of an ENQ of the record at an offset to a bin (R180). -/
def Dev.enqTrap (d : Dev) (g : Group) (off n : Nat) : Option Trap :=
  if off % 64 != 0 then some (tAlign (BitVec.ofNat 64 off))
  else if !d.mayTouch g g.core off then some (tGrant (BitVec.ofNat 64 off))
  else match (d.cluster (clusterOf g.core)).bin? n with
    | some b => if b.ctx == g.ctx then none else some (tGrant 0)
    | none => some (tGrant 0)

/-- A launch with nothing in it. -/
def Launch.empty : Launch :=
  { lid := 0, kind := .launch, ctx := 0, qid := 65536, cls := 0, launchid := 0, set := 0, compl := 0, fixed := false, core0 := 0
    ncore := 1, entry := 0, warps := 0, nfib := 0, win := 0, gpt := 1, teams := 1, spad := 0, aslots := 0, kargs := [], largs := []
    recA := 0, centry := 0, cwarps := 0, cwin := 0, image := [], placed := [], livegroups := 0, status := 0, fail := 0
    since := 0, blocking := false, kickOrder := 0, wordDue := false, finished := false }

/-- The launch of a triggered bin of a cluster (R368); k2 comes with the placement. -/
def Bin.launch (b : Bin) (cl lid order now : Nat) (rs : List BinRec) : Launch :=
  { Launch.empty with
    lid := lid, kind := .bin, ctx := b.ctx, cls := b.cls, launchid := ((rs.head?).map BinRec.launchid).getD 0, core0 := cl * 16
    ncore := 16, entry := b.entry, warps := b.warps, nfib := b.nfib, win := b.win, spad := b.spad
    kargs := [BitVec.ofNat 64 rs.length, BitVec.ofNat 64 b.no, 0], image := rs.flatMap BinRec.bytes, kickOrder := order
    since := now }

/-- A bin triggers (R368): up to 8 records leave it, oldest first, for one group; the countdown restarts if any remain. -/
def Dev.binTrigger (d : Dev) (cl no : Nat) : Dev :=
  let c := d.cluster cl
  match c.bin? no with
  | none => d
  | some b =>
    if b.recs.isEmpty then d
    else
      let left := b.recs.drop 8
      let next : Bin := { b with recs := left, expires := if left.isEmpty then none else b.countdown d.cycle }
      let l := b.launch cl d.hub.nextLid d.hub.nextKick d.cycle (b.recs.take 8)
      (d.setCluster { c with bins := putBy Bin.no next c.bins }).updHub fun h =>
        { h with launches := h.launches ++ [l], nextLid := h.nextLid + 1, nextKick := h.nextKick + 1 }

/-- A record enters a bin, which triggers when its count reaches COAL (R368). -/
def Dev.binPut (d : Dev) (cl no : Nat) (r : BinRec) : Dev :=
  let c := d.cluster cl
  let d := d.setCluster { c with bins := updWhere (fun b => b.no == no) (fun b => b.put r d.cycle) c.bins }
  match (d.cluster cl).bin? no with
  | some b => if b.coal ≤ b.recs.length then d.binTrigger cl no else d
  | none => d

/-- ENQ (R180): a full bin holds the batch. -/
def execEnq (o : K2Op) (s : State) : Host.Outcome State Fault Refusal :=
  s.run (.enq o) fun d =>
    let g := d.grp
    let off := bitsOf (d.readK o.kd.toNat).toNat 0 19
    let n := bitsOf (d.readK o.ka.toNat).toNat 0 10
    let c := d.cluster (clusterOf g.core)
    let full : Bool := match c.bin? n with | some b => decide (8 ≤ b.recs.length) | none => false
    let trap := d.enqTrap g off n
    if trap.isNone && !d.allHelpers && full then d.hold
    else d.closing o.stl (fun _ => trap) fun d =>
      let r : BinRec := ⟨leBytes 64 (d.spad g.core off 64), g.launchid⟩
      (d.release g.core Scope.device).binPut (clusterOf g.core) n r

/-- Whether a bin's countdown is over. -/
def Bin.over (b : Bin) (now : Nat) : Bool := match b.expires with | some n => decide (n ≤ now) | none => false

/-- BIN_COUNTDOWN_EXPIRY (R368): the countdown of a bin that holds records ends; a cluster, b bin. -/
def execBinCountdownExpiry (s : State) : Host.Outcome State Fault Refusal :=
  .next (s.onDev fun d =>
    match (d.cluster d.arg.a).bin? d.arg.b with
    | some b => if b.over d.cycle then d.binTrigger d.arg.a d.arg.b else d
    | none => d)

/-- NODE_BIN_CONFIGURATION (R367): the driver configures a bin; one outside its limits is ignored. a cluster, b bin, c context,
d class, nums COAL, CD, WARPS, NFIB, WIN, SPAD, v ENTRY. -/
def execNodeBinConfiguration (s : State) : Host.Outcome State Fault Refusal :=
  .next (s.onDev fun d =>
    let n (i : Nat) : Nat := nth d.arg.nums i 0
    let within (x lo hi : Nat) : Bool := decide (lo ≤ x) && decide (x ≤ hi)
    let good := decide (d.arg.a < 32) && decide (d.arg.b < 1024) && (d.hub.ctx? d.arg.c).isSome && decide (d.arg.d ≤ 3) &&
      within (n 0) 1 8 && within (n 1) 0 65535 && within (n 2) 1 32 && within (n 3) 1 32 && within (n 4) 1 16 &&
      within (n 5) 2 128 && !badTarget d.arg.v
    if !good then d
    else
      let b : Bin := { no := d.arg.b, ctx := d.arg.c, cls := d.arg.d, coal := n 0, cd := n 1, entry := d.arg.v.setWidth 48
                       warps := n 2, nfib := n 3, win := n 4, spad := n 5, recs := [], expires := none }
      let c := d.cluster d.arg.a
      d.setCluster { c with bins := putBy Bin.no b c.bins })

/-! ## Queue descriptors (R342) -/

/-- Bytes as the hub reads them: at DEVICE scope in device memory, at SYSTEM scope in host and peer memory. -/
def MemSys.readHub (ms : MemSys) (a n : Nat) : List Byte := if isHostOrPeer a then ms.readSystem a n else ms.readDevice a n

/-- Whether a 64-bit address is aligned and canonical. -/
def goodAddr (a align : Nat) : Bool := a % align == 0 && canonical (BitVec.ofNat 64 a)

/-- Whether a queue descriptor is refused. -/
def badQueue (h : Hub) (b : List Byte) : Bool :=
  let size := fieldOf b 8 1
  let cls := fieldOf b 9 1
  fieldOf b 0xB 1 != 0 || fieldOf b 0xE 2 != 0 || fieldOf b 0x18 40 != 0 || !goodAddr (fieldOf b 0 8) 128 ||
  size < 4 || 16 < size || 3 < cls || !goodAddr (fieldOf b 0x10 8) 4 ||
  match h.ctx? (fieldOf b 0xA 1) with
  | none => true
  | some c => c.dying || decide (cls < c.classmin)

/-- The queue a descriptor describes, after a driver reset (R344): H and F are 0, nothing is fetched. -/
def queueOf (qid : Nat) (b : List Byte) (desc : Nat) (refused : Bool) (live : List Nat) : Queue :=
  { qid := qid, desc := desc, ctx := fieldOf b 0xA 1, cls := fieldOf b 9 1, ring := fieldOf b 0 8 % 2 ^ 48
    size := fieldOf b 8 1, ridx := fieldOf b 0x10 8 % 2 ^ 48, h := 0, f := 0, hw := none, ticks := 0, wait := 0, fresh := false
    refused := refused, stopped := false, paused := false, kicks := [], half := [], pend := [], live := live }

/-- Replaces a queue. -/
def Hub.setQueue (h : Hub) (q : Queue) : Hub := { h with queues := putBy Queue.qid q h.queues }

/-- The queue of a number. -/
def Hub.queue? (h : Hub) (qid : Nat) : Option Queue := getBy Queue.qid qid h.queues

/-- Reads and checks the descriptor of a queue (R342). -/
def Dev.loadQueue (d : Dev) (qid desc : Nat) (live : List Nat) : Dev :=
  let b := d.ms.readHub desc 64
  let bad := badQueue d.hub b
  let d := d.updHub fun h => h.setQueue (queueOf qid b desc bad live)
  if bad && (d.hub.ctx? (fieldOf b 0xA 1)).isSome then d.addRec (bareRec (fieldOf b 0xA 1) 14 desc 0) else d

/-- The device examines a queue for mapping: its descriptor is read if it has not been (R342). -/
def Dev.examine (d : Dev) (qid : Nat) : Dev :=
  match d.hub.queue? qid with
  | some q => if q.fresh then d.loadQueue qid q.desc q.live else d
  | none => d

/-! ## KICK (R181, R345) -/

/-- Whether a queue's fetcher is behind the held index (R346). -/
def Queue.behind (q : Queue) : Bool := decide (1 ≤ (q.h - q.f).toNat) && decide ((q.h - q.f).toNat < 2 ^ 31)

/-- Whether a queue has work (R359). -/
def Queue.hasWork (q : Queue) : Bool := (!q.stopped && q.h != q.f) || !q.pend.isEmpty

/-- The waiting time of a queue runs while it has work and is not mapped (R359); `dt` hub cycles pass. -/
def Queue.age (dt : Nat) (q : Queue) : Queue := if q.hw.isNone && q.hasWork && !q.refused then { q with wait := q.wait + dt } else q

/-- Whether a queue may be mapped now: it has work, no slot, and its context is not stopped by its quota (R366). -/
def Hub.wants (h : Hub) (q : Queue) : Bool :=
  q.hw.isNone && q.hasWork && !q.refused && match h.ctx? q.ctx with | some c => !c.quotaOut && !c.dying | none => false

/-- Whether a hardware slot holds no queue. -/
def Hub.slotEmpty (h : Hub) (s : Nat) : Bool := h.queues.all fun q => q.hw != some s

/-- Maps a queue to a hardware slot: its waiting time is 0 again (R359); the slot's line shows a held index ahead (R392). -/
def Hub.mapQueue (h : Hub) (q : Queue) (slot : Nat) : Hub :=
  let h := h.setQueue { q with hw := some slot, ticks := 0, wait := 0, paused := false }
  if q.h != q.f then h.raiseLine (16 + slot / 8) else h

/-- A KICK write to a queue whose descriptor is read (R345): H moves only ahead. A stopped queue takes no more of it (R346); a mapped one
is examined again; an unmapped one raises line 0, and a class-0 one takes a free reserved slot (R363). -/
def Hub.kick (h : Hub) (qid : Nat) (w : BitVec 32) : Hub :=
  match h.queue? qid with
  | none => h
  | some q =>
    if q.refused then h
    else
      let ahead := (w - q.h).toNat
      let take := decide (1 ≤ ahead) && decide (ahead < 2 ^ 31)
      let q := if take then { q with h := w, kicks := q.kicks ++ [(h.nextKick, w)] } else q
      let q := { q with paused := q.paused && (q.hw.isNone || q.stopped) }
      let h := { h.setQueue q with nextKick := h.nextKick + 1 }
      if q.stopped then h
      else match q.hw with
        | some s => if q.h != q.f then h.raiseLine (16 + s / 8) else h
        | none =>
          let h := h.logLine 0 qid w.toNat
          if q.cls == 0 && h.wants q then
            match (List.range h.rsv0).find? h.slotEmpty with
            | some s => h.mapQueue q s
            | none => h
          else h

/-- A KICK write at the hub, which examines the queue (R342, R345). -/
def Dev.kick (d : Dev) (qid : Nat) (w : BitVec 32) : Dev := (d.examine qid).updHub fun h => h.kick qid w

/-- The context of a queue: one whose descriptor has not been read is of the context that names (R342). -/
def Dev.queueCtx (d : Dev) (qid : Nat) : Option Nat :=
  (d.hub.queue? qid).map fun q => if q.fresh then fieldOf (d.ms.readHub q.desc 64) 0xA 1 else q.ctx

/-- KICK (R181). -/
def execKick (o : K1Op) (s : State) : Host.Outcome State Fault Refusal :=
  s.run (.kick o) fun d =>
    let v := d.readK o.ka.toNat
    let qid := v.toNat % 2 ^ 16
    let owns := d.queueCtx qid == some d.grp.ctx
    d.closing o.stl (fun _ => if owns then none else some (tGrant 0)) fun d =>
      (d.release d.cur.core Scope.system).kick qid (v.extractLsb' 32 32)

/-- KICK_WRITE: a write of KICK from the host or the firmware (R344, R345); a qid, v the value. -/
def execKickWrite (s : State) : Host.Outcome State Fault Refusal :=
  .next (s.onDev fun d => d.kick d.arg.a (d.arg.v.setWidth 32))

end Sys2Proof.Machine
end

