-- ==== Sys2Proof/Machine/KvCache.lean ====
section
/-! DEFINITION. KVLD and KVAPP (07: R162 to R164, 20: R370 to R379): the cache descriptor, map entries, stream holds, the life of
a page, the rotary generator. -/

namespace Sys2Proof.Machine

/-! ## The descriptor (R370, R371) -/

/-- A cache descriptor, with its virtual and physical address. -/
structure KvDesc where
  va : W64
  pa : Nat
  map : W64
  pool1 : W64
  pool2 : W64
  flr1 : W64
  flr2 : W64
  theta : W64
  pgsh : Nat
  flsz1 : Nat
  flsz2 : Nat
  flags : Nat
  rowb : Nat
  heads : Nat
  maxpg : Nat
  mbox : W32
  deriving DecidableEq, Repr

/-- Reads a descriptor's bytes. -/
def kvDesc (va : W64) (pa : Nat) (b : List Byte) : KvDesc :=
  let q (o : Nat) : W64 := BitVec.ofNat 64 (fieldOf b o 8)
  { va := va, pa := pa, map := q 0, pool1 := q 8, pool2 := q 0x10, flr1 := q 0x18, flr2 := q 0x20, theta := q 0x28
    pgsh := fieldOf b 0x30 1, flsz1 := fieldOf b 0x31 1, flsz2 := fieldOf b 0x32 1, flags := fieldOf b 0x33 1
    rowb := fieldOf b 0x34 2, heads := fieldOf b 0x36 2, maxpg := fieldOf b 0x38 4, mbox := BitVec.ofNat 32 (fieldOf b 0x3C 4) }

/-- The offset of the descriptor's first failing field (R371, step 4): res0 bits, then limits and alignment, then the size. -/
def KvDesc.bad (k : KvDesc) (b : List Byte) : Option Nat :=
  let pg := 2 ^ (if 12 ≤ k.pgsh ∧ k.pgsh ≤ 21 then k.pgsh else 0)
  let off (a : W64) (n : Nat) : Bool := a.toNat % n != 0 || !canonical a
  let size (n : Nat) : Bool := decide (n < 4) || decide (24 < n)
  if k.flags / 2 != 0 then some 0x33
  else if (b.drop 0x50).any (· != 0) then some 0x50
  else
    (([(off k.map 16, 0), (off k.pool1 pg, 8), (off k.pool2 pg, 0x10), (off k.flr1 4, 0x18), (off k.flr2 4, 0x20),
       (off k.theta 4, 0x28), (decide (k.pgsh < 12) || decide (21 < k.pgsh), 0x30), (size k.flsz1, 0x31), (size k.flsz2, 0x32),
       (decide (k.rowb < 8) || decide (4096 < k.rowb) || k.rowb % 8 != 0, 0x34),
       (k.heads == 0 || decide (4096 < k.heads), 0x36), (k.maxpg == 0, 0x38),
       (badToken k.mbox || tokKind k.mbox != 3, 0x3C),
       (decide (2 ^ k.pgsh < k.heads * 16 * k.rowb), 0x34)] : List (Bool × Nat)).find? Prod.fst).map Prod.snd

/-- Fields of a coordinate (R162). -/
def coSeq (a : W64) : Nat := bitsOf a.toNat 44 20
/-- HEAD. -/
def coHead (a : W64) : Nat := bitsOf a.toNat 32 12
/-- POS. -/
def coPos (a : W64) : Nat := bitsOf a.toNat 12 20
/-- BOFF. -/
def coBoff (a : W64) : Nat := bitsOf a.toNat 0 12

/-- The entry a coordinate names: its virtual and physical address, and the row's offset in the page (R372). -/
structure KvAt where
  va : Nat
  pa : Nat
  row : Nat
  deriving DecidableEq, Repr

/-- PAGEFAULT of a cache access, with the ACC it reports. -/
def kvFault (acc : Nat) (u : FaultUnit) : Trap :=
  { cause := 5, acc := acc, addr := sext48 (BitVec.ofNat 48 u.va), units := [u] }

/-- Translates an address of a cache access; `acc` is the access, `code` the ACC of a fault. -/
def Dev.kvAddr (d : Dev) (ctx : Nat) (a : W64) (acc code : Nat) : Except Trap Nat :=
  match d.translateHub ctx (a.setWidth 48).toNat acc with
  | .ok p => .ok p
  | .error u => .error (kvFault code u)

/-- A value as an atomic engine would read it for a core (R315, R370, R372). -/
def Dev.atomPeek (d : Dev) (core a n : Nat) : Nat := (d.ms.flushBytes core a n).atomRead a n

/-- A step of an atomic engine on bytes (R315). -/
def Dev.atomPut (d : Dev) (core a n v : Nat) : Dev := d.onMs [] fun ms => (ms.flushBytes core a n).atomWrite core a n v

/-- The checks of R371, R162 and R372 on one fibre's operands, and the entry they name, not yet translated: none where POS lies beyond
the map. -/
def Dev.kvAim (d : Dev) (g : Group) (maxOp w : Nat) (b a : W64) : Except Trap (KvDesc × Option KvAt) := do
  let va := b &&& ~~~(0xFF : W64)
  if maxOp < b.toNat % 256 || !canonical va then throw (tAlign b)
  let pa ← d.kvAddr g.ctx va 1 0
  let bytes := d.ms.peeks g.core pa 256
  let k := kvDesc va pa bytes
  match k.bad bytes with
  | some o => throw (tGrant (va + BitVec.ofNat 64 o))
  | none => pure ()
  if coBoff a % (w / 8) != 0 then throw (tAlign a)
  if k.heads ≤ coHead a || k.rowb < coBoff a + w / 8 then throw (tGrant a)
  if k.maxpg ≤ coPos a / 16 then return (k, none)
  let ent := k.map + BitVec.ofNat 64 (16 * (coSeq a * k.maxpg + coPos a / 16))
  return (k, some { va := (ent.setWidth 48).toNat, pa := 0, row := (coHead a * 16 + coPos a % 16) * k.rowb + coBoff a })

/-- Translates an entry's address. -/
def Dev.kvEntry (d : Dev) (g : Group) (acc code : Nat) (t : KvAt) : Except Trap KvAt := do
  let ep ← d.kvAddr g.ctx (sext48 (BitVec.ofNat 48 t.va)) acc code
  return { t with pa := ep }

/-- The checks of R371, R162 and R372 on one fibre's operands, and its entry: none where POS lies beyond the map. -/
def Dev.kvPlan (d : Dev) (g : Group) (maxOp w acc code : Nat) (b a : W64) : Except Trap (KvDesc × Option KvAt) := do
  let r ← d.kvAim g maxOp w b a
  match r.2 with
  | none => return (r.1, none)
  | some t => return (r.1, some (← d.kvEntry g acc code t))

/-! ## Map entries (R372) -/

/-- A map entry; `raw` keeps the reserved bits. -/
structure KvEnt where
  raw : Nat
  page : Nat
  strm : Nat
  ref : Nat
  pin : Bool
  state : Nat
  t2 : Nat
  deriving DecidableEq, Repr

/-- Reads an entry. -/
def Dev.kvGet (d : Dev) (core a : Nat) : KvEnt :=
  let v := d.atomPeek core a 16
  { raw := v, page := bitsOf v 0 32, strm := bitsOf v 32 8, ref := bitsOf v 40 16, pin := bitsOf v 61 1 == 1, state := bitsOf v 62 2,
    t2 := bitsOf v 64 32 }

/-- The 128 bits of an entry. -/
def KvEnt.word (e : KvEnt) : Nat :=
  e.page + e.strm * 2 ^ 32 + e.ref * 2 ^ 40 + bitsOf e.raw 56 5 * 2 ^ 56 + (if e.pin then 2 ^ 61 else 0) + e.state * 2 ^ 62 +
  e.t2 * 2 ^ 64 + bitsOf e.raw 96 32 * 2 ^ 96

/-- Writes an entry. -/
def Dev.kvSet (d : Dev) (core a : Nat) (e : KvEnt) : Dev := d.atomPut core a 16 e.word

/-! ## The free rings (R370) -/

/-- Counters of a ring, 1 or 2: head and tail. -/
def Dev.kvCounts (d : Dev) (core : Nat) (k : KvDesc) (r : Nat) : Nat × Nat :=
  (d.atomPeek core (k.pa + 0x38 + 8 * r) 4, d.atomPeek core (k.pa + 0x3C + 8 * r) 4)

/-- Virtual address of a slot of a ring. -/
def KvDesc.slot (k : KvDesc) (r i : Nat) : W64 :=
  if r == 1 then k.flr1 + BitVec.ofNat 64 (4 * (i % 2 ^ k.flsz1)) else k.flr2 + BitVec.ofNat 64 (4 * (i % 2 ^ k.flsz2))

/-- Pages on a ring. -/
def Dev.kvRoom (d : Dev) (core : Nat) (k : KvDesc) (r : Nat) : Nat :=
  let c := d.kvCounts core k r
  (c.2 + 2 ^ 32 - c.1) % 2 ^ 32

/-- Where a pop reads and the page it would take; the descriptor must be writable. -/
def Dev.kvPop (d : Dev) (g : Group) (k : KvDesc) : Except Trap Nat := do
  let _ ← d.kvAddr g.ctx k.va 3 3
  let p ← d.kvAddr g.ctx (k.slot 1 (d.kvCounts g.core k 1).1) 1 3
  return d.atomPeek g.core p 4

/-- Advances the head of FLR1. -/
def Dev.kvPopped (d : Dev) (core : Nat) (k : KvDesc) : Dev :=
  d.atomPut core (k.pa + 0x40) 4 (((d.kvCounts core k 1).1 + 1) % 2 ^ 32)

/-- Where a push writes; the descriptor must be writable. -/
def Dev.kvPush (d : Dev) (ctx core : Nat) (k : KvDesc) (r : Nat) : Except Trap Nat := do
  let _ ← d.kvAddr ctx k.va 3 3
  d.kvAddr ctx (k.slot r (d.kvCounts core k r).2) 2 3

/-- Stores a page on a ring and advances its tail. -/
def Dev.kvPushed (d : Dev) (core : Nat) (k : KvDesc) (r at_ page : Nat) : Dev :=
  (d.atomPut core at_ 4 page).atomPut core (k.pa + 0x3C + 8 * r) 4 (((d.kvCounts core k r).2 + 1) % 2 ^ 32)

/-! ## Stream holds (R375) -/

/-- The last release of a hold: STRM falls by one; a DRAINING entry that nobody streams any more frees its page, for which alone the
descriptor is needed. -/
def Dev.kvRelease (d : Dev) (ctx core entPa : Nat) (desc : Except Trap KvDesc) : Except Trap Dev :=
  let e := d.kvGet core entPa
  let e1 := { e with strm := e.strm - 1 }
  if e1.state == 3 && e1.strm == 0 then do
    let k ← desc
    let p ← d.kvPush ctx core k 1
    return (d.kvPushed core k 1 p e.page).kvSet core entPa { e1 with state := 0, pin := false }
  else .ok (d.kvSet core entPa e1)

/-- The group's hold on an entry's page. -/
def Group.holdOn (g : Group) (t : KvAt) (page : Nat) : Option Hold := g.holds.find? fun h => h.entry == t.va && h.page == page

/-- Sets the count of a hold, or drops it at 0. -/
def Group.setHold (g : Group) (h : Hold) : Group :=
  let rest := g.holds.filter fun x => !(x.entry == h.entry && x.page == h.page)
  { g with holds := if h.count == 0 then rest else rest ++ [h] }

/-- The shutter entry of a group's stream on the page of a map entry (R375). -/
def streamShut (g : Group) (entry page : Nat) : Shut :=
  { first := page, last := page + 1, ctx := g.ctx, orig := g.core, chan := 0, kind := 3, owner := g.gid, entry := entry }

/-- Takes the shutter entry of a stream out of a list. -/
def dropStream (gid entry page : Nat) (l : List Shut) : List Shut :=
  l.filter fun e => !(e.kind == 3 && e.owner == gid && e.entry == entry && e.first == page)

/-! ## KVLD (R163, R374) -/

/-- What a cache instruction leaves in a fibre. -/
inductive KvRes where
  | trap (t : Trap)
  /-- The fibre waits and issues again. -/
  | wait
  | done (status data : W64)
  /-- An APPEND that found its entry UNMAPPED, or whose entry is not translated. -/
  | take (k : KvDesc) (t : KvAt) (fault : Option Trap)

/-- The row's physical address in an HBM page. -/
def Dev.kvRow (d : Dev) (ctx : Nat) (k : KvDesc) (t : KvAt) (page acc code : Nat) : Except Trap Nat :=
  d.kvAddr ctx (k.pool1 + BitVec.ofNat 64 (page * 2 ^ k.pgsh + t.row)) acc code

/-- Reads the row at DEVICE scope past the snapshot (R374). -/
def Dev.kvRead (d : Dev) (core w a : Nat) : W64 × Dev :=
  let r := d.onView d.ms.regLines (MemSys.strongLoads core Scope.device (w / 8) a)
  (BitVec.ofNat 64 (leVal r.1), r.2)

/-- KVLD of one fibre on an entry whose row can be read: OPEN takes a hold or waits, CLOSE drops one. -/
def Dev.kvldOk (d : Dev) (op w : Nat) (helper : Bool) (k : KvDesc) (t : KvAt) (e : KvEnt) (row : Nat) : KvRes × Dev :=
  let g := d.grp
  let read (d : Dev) : KvRes × Dev := let r := d.kvRead g.core w row; (.done 0 r.1, r.2)
  if op == 0 || helper then read d
  else match op, g.holdOn t e.page with
    | 1, some h =>
      if 65535 ≤ h.count then (.wait, d)
      else read (d.updGroup g.gid fun g => g.setHold { h with count := h.count + 1 })
    | 1, none =>
      if e.strm == 255 || decide (32 ≤ (d.core g.core).shut.length) then (.wait, d)
      else read (((d.kvSet g.core t.pa { e with strm := e.strm + 1 }).updGroup g.gid fun g =>
        g.setHold ⟨t.va, k.va.toNat, e.page, 1⟩).updCore g.core fun c => { c with shut := c.shut ++ [streamShut g t.va e.page] })
    | _, some h =>
      if 1 < h.count then read (d.updGroup g.gid fun g => g.setHold { h with count := h.count - 1 })
      else
        let r := d.kvRead g.core w row
        match r.2.kvRelease g.ctx g.core t.pa (.ok k) with
        | .error x => (.trap x, d)
        | .ok d1 => (.done 0 r.1, (d1.updGroup g.gid fun g => g.setHold { h with count := 0 }).updCore g.core fun c =>
            { c with shut := dropStream g.gid t.va e.page c.shut })
    | _, none => read d

/-- KVLD of one fibre (R163, R374). Its entry needs read permission alone (R329). -/
def Dev.kvldOne (d : Dev) (w : Nat) (helper : Bool) (b a : W64) : KvRes × Dev :=
  let g := d.grp
  let op := b.toNat % 256
  match d.kvPlan g 2 w 1 0 b a with
  | .error t => (.trap t, d)
  | .ok (_, none) => (if op == 2 && !helper then .trap (tGrant a) else .done 2 0, d)
  | .ok (k, some t) =>
    let e := d.kvGet g.core t.pa
    let held := (g.holdOn t e.page).isSome
    if op == 2 && !helper && !held then (.trap (tGrant a), d)
    else match e.state with
      | 0 => (.done 2 0, d)
      | 2 => (.done 1 0, if helper then d else d.post g.ctx g.core k.mbox a)
      | s =>
        if s == 3 && !held then (.done 3 0, d)
        else match d.kvRow g.ctx k t e.page 1 0 with
          | .error x => (.trap x, d)
          | .ok row => d.kvldOk op w helper k t e row

/-- Fibres of a batch in increasing home lane. -/
def Dev.kvAll (f : Dev → Fibre → KvRes × Dev) : List Fibre → Dev → List ((Nat × Nat) × KvRes) × Dev
  | [], d => ([], d)
  | x :: l, d =>
    let r := f d x
    let t := kvAll f l r.2
    (((x.slot, x.lane), r.1) :: t.1, t.2)

/-- The result of a fibre. -/
def kvOf (rs : List ((Nat × Nat) × KvRes)) (f : Fibre) : Option KvRes :=
  (rs.find? fun r => r.1 == (f.slot, f.lane)).map Prod.snd

/-- Writes the 64-bit results of a fibre from register `vd` on, with variable latency. -/
def Fibre.oweAll (f : Fibre) (vd : Nat) : List W64 → Fibre
  | [] => f
  | x :: l => ((landV f (.v vd)).owe vd x (BitVec.allOnes 64)).oweAll (vd + 1) l

/-- A fibre that waits in a cache instruction. -/
def kvWaits (rs : List ((Nat × Nat) × KvRes)) (f : Fibre) : Bool := match kvOf rs f with | some .wait => true | _ => false

/-- KVLD: results, late and precise faults, and the fibres that wait (R163, R244, R375). -/
def Dev.kvld (d : Dev) (stl : BitVec 2) (vd w : Nat) (arg : Fibre → W64 × W64) : Dev :=
  let r := Dev.kvAll (fun d f => d.kvldOne w f.helper (arg f).1 (arg f).2) d.active d
  let rs := r.1
  let trap (f : Fibre) : Option Trap := match kvOf rs f with | some (.trap t) => if f.helper then none else some t | _ => none
  let d1 := r.2.updActive fun f =>
    match kvOf rs f with
    | some (.done st x) => f.oweAll vd [x, st]
    | some .wait => { f with wait := .held }
    | some (.trap t) => if f.helper then f.oweAll vd [0, 0] else if f.imprecise t then f.noteLate t else f
    | _ => f
  if d1.active.all fun f => f.wait == .held then d1.hold
  else { (d1.narrow fun f => !kvWaits rs f).split (fun f => (trap f).filter fun t => !f.imprecise t) fun d => d.advLane stl with cur := d.cur }

/-- The operands of a cache instruction in a fibre: B and the coordinate. -/
def Dev.kvArg (d : Dev) (o : R3Op) (f : Fibre) : W64 × W64 := (d.readB f o.kb o.hv o.vb, d.readV f (laneNo o.hv o.va))

/-- KVLD; B[7:0] of each fibre selects the operation (R373, R374). -/
def kvldOp (i : Instr) (o : R3Op) (s : State) : Host.Outcome State Fault Refusal :=
  s.run i fun d => d.kvld o.stl (laneNo o.hv o.vd) (widthOf o.ty) (d.kvArg o)

/-- KVLD READ (R374). -/
def execKvldRead (o : R3Op) (s : State) : Host.Outcome State Fault Refusal := kvldOp (.kvldRead o) o s
/-- KVLD OPEN (R375). -/
def execKvldOpen (o : R3Op) (s : State) : Host.Outcome State Fault Refusal := kvldOp (.kvldOpen o) o s
/-- KVLD CLOSE (R375). -/
def execKvldClose (o : R3Op) (s : State) : Host.Outcome State Fault Refusal := kvldOp (.kvldClose o) o s

/-! ## The rotary generator (R377) -/

/-- sin of a fixed-point angle in radians, reduced by multiples of pi. -/
def sinRad (x : Int) : Int :=
  let n := (2 * x + piFx) / (2 * piFx)
  let y := sinFx (x - n * piFx)
  if n % 2 == 0 then y else -y

/-- The device's cosine or sine of a fixed-point angle: a free choice within 2 ulp of the binary32 value (log 6). -/
def rotary (isCos : Bool) (phi : BitVec 64) (x : Int) : Nat :=
  let y := sinRad (if isCos then x + piFx / 2 else x)
  let near := FFmt.f32.round 0 (decide (y < 0)) y.natAbs (-fx)
  let free := code32 (place32 near + Config.rotaryUlp isCos phi)
  if decide (((fix32 free - fix32 near).natAbs : Int) ≤ 2 * ulp32 (fix32 near)) then free else near

/-- Rotates a pair of binary32 values by POS times theta (R377). -/
def rotate (pos theta : Nat) (x : W64) : W64 :=
  let f := FFmt.f32
  let x0 := f.read false (bitsOf x.toNat 0 32)
  let x1 := f.read false (bitsOf x.toNat 32 32)
  let bad : W64 := 0x7FC000007FC00000
  match f.read false theta with
  | .fin s m e =>
    if x0 == .nan || x1 == .nan || FVal.lt (.fin false 1 0) (.fin false m e) then bad
    else
      let ang := fixOf s (m * pos) e
      let phi : BitVec 64 := BitVec.ofNat 64 (FFmt.f64.round 0 s (m * pos) e)
      let c := f.read false (rotary true phi ang)
      let sn := f.read false (rotary false phi ang)
      let y0 := f.write 0 false (.add false (.mul x0 c) (FVal.neg (.mul x1 sn)))
      let y1 := f.write 0 false (.add false (.mul x0 sn) (.mul x1 c))
      BitVec.ofNat 64 (y0 + y1 * 2 ^ 32)
  | _ => bad

/-! ## KVAPP (R164, R376, R378) -/

/-- The bits an APPEND writes: the low w bits, or the rotated pair (R164, R377). -/
def Dev.kvValue (d : Dev) (g : Group) (k : KvDesc) (w : Nat) (a x : W64) : Except Trap W64 :=
  if k.flags % 2 == 1 && w == 64 then
    match d.kvAddr g.ctx (k.theta + BitVec.ofNat 64 (4 * (coBoff a / 8))) 1 0 with
    | .error t => .error t
    | .ok p => .ok (rotate (coPos a) (leVal (d.ms.peeks g.core p 4)) x)
  else .ok x

/-- What one APPEND needs to write its row into a page: where, and what. -/
def Dev.kvPrep (d : Dev) (g : Group) (k : KvDesc) (t : KvAt) (page w : Nat) (a x : W64) : Except Trap (Nat × W64) := do
  let row ← d.kvRow g.ctx k t page 2 1
  let v ← d.kvValue g k w a x
  return (row, v)

/-- Writes a row, an ordinary store (R164, R376). -/
def Dev.kvWrite (d : Dev) (g : Group) (f : Fibre) (w : Nat) (p : Nat × W64) : Dev :=
  d.writePlace g ⟨0, w / 8, true, none⟩ f.slot f.lane (w / 8) p.2 (.phys p.1)

/-- Status of an operation on an UNMAPPED entry (R376). -/
def kvUnmapped (op : Nat) : W64 := if op == 2 || op == 3 then 3 else 2

/-- An operation that changes an entry and pushes a page. -/
def Dev.kvFree (d : Dev) (g : Group) (k : KvDesc) (t : KvAt) (e : KvEnt) (r page : Nat) : KvRes × Dev :=
  match d.kvPush g.ctx g.core k r with
  | .error x => (.trap x, d)
  | .ok p => (.done 0 0, (d.kvPushed g.core k r p page).kvSet g.core t.pa e)

/-- UNREF (R376). -/
def Dev.kvUnref (d : Dev) (g : Group) (k : KvDesc) (t : KvAt) (e : KvEnt) : KvRes × Dev :=
  let e1 := { e with ref := e.ref - 1 }
  if e.state == 0 then (.done 2 0, d)
  else if e.state == 3 then (.done 3 0, d)
  else if e.state == 2 && e.pin then (.done 1 0, d)
  else if e.ref == 0 then (.done 2 0, d)
  else if 1 < e.ref then (.done 0 0, d.kvSet g.core t.pa e1)
  else if e.state == 2 then d.kvFree g k t { e1 with state := 0 } 2 e.t2
  else if e.strm == 0 then d.kvFree g k t { e1 with state := 0 } 1 e.page
  else (.done 0 0, d.kvSet g.core t.pa { e1 with state := 3 })

/-- PAGEIN (R376). -/
def Dev.kvPagein (d : Dev) (g : Group) (k : KvDesc) (t : KvAt) (e : KvEnt) : KvRes × Dev :=
  if e.state != 2 then (.done 3 0, d)
  else if e.pin then (.done 1 0, d)
  else if d.kvRoom g.core k 1 == 0 then (.done 2 0, d)
  else match d.kvPop g k with
    | .error x => (.trap x, d)
    | .ok page => (.done 0 0, (d.kvPopped g.core k).kvSet g.core t.pa { e with pin := true, page := page })

/-- COMMIT (R376): it releases at DEVICE scope first. -/
def Dev.kvCommit (d : Dev) (g : Group) (k : KvDesc) (t : KvAt) (e : KvEnt) : KvRes × Dev :=
  if e.state != 2 then (.done 3 0, d)
  else if !e.pin then (.done 1 0, d)
  else (d.release g.core Scope.device).kvFree g k t { e with state := 1, pin := false } 2 e.t2

/-- RETAIN (R376). -/
def Dev.kvRetain (d : Dev) (g : Group) (t : KvAt) (e : KvEnt) : KvRes × Dev :=
  if e.state == 0 then (.done 2 0, d)
  else if e.state == 3 then (.done 3 0, d)
  else if e.ref == 65535 then (.done 2 0, d)
  else (.done 0 0, d.kvSet g.core t.pa { e with ref := e.ref + 1 })

/-- KVAPP of one fibre (R376), but for the pages that APPENDs take. -/
def Dev.kvappOne (d : Dev) (w : Nat) (f : Fibre) (b a x : W64) : KvRes × Dev :=
  let g := d.grp
  let op := b.toNat % 256
  if f.helper then (.done 0 0, d)
  else match d.kvAim g 4 w b a with
    | .error t => (.trap t, d)
    | .ok (_, none) => (.done (kvUnmapped op) 0, d)
    | .ok (k, some t) =>
    match d.kvEntry g 3 3 t with
    | .error x => (if op == 0 then .take k t (some x) else .trap x, d)
    | .ok t =>
      let e := d.kvGet g.core t.pa
      match op with
      | 0 =>
        if e.state == 0 then (.take k t none, d)
        else if e.state != 1 then (.done (BitVec.ofNat 64 (e.state - 1) + (if e.state == 3 then 1 else 0)) 0, d)
        else match d.kvPrep g k t e.page w a x with
          | .error y => (.trap y, d)
          | .ok p => (.done 0 0, d.kvWrite g f w p)
      | 1 => d.kvUnref g k t e
      | 2 => d.kvPagein g k t e
      | 3 => d.kvCommit g k t e
      | _ => d.kvRetain g t e

/-- An APPEND that takes a page: its fibre, coordinate and data, and the fault of its entry's translation. -/
structure Taker where
  f : Fibre
  k : KvDesc
  t : KvAt
  fault : Option Trap
  a : W64
  x : W64

/-- What tells the entries of a batch apart: the physical address, or the virtual one where that is not translated. -/
def Taker.key (t : Taker) : Nat := if t.fault.isSome then 2 ^ 64 + t.t.va else t.t.pa

/-- Traps or answers every taker of a list of entries. -/
def allOf (ts : List Taker) (es : List Nat) (r : KvRes) : List ((Nat × Nat) × KvRes) :=
  (ts.filter fun t => es.contains t.key).map fun t => ((t.f.slot, t.f.lane), r)

/-- Prepares the rows of the takers of one entry in a page. -/
def Dev.prepAll (d : Dev) (g : Group) (w page : Nat) : List Taker → Except Trap (List (Fibre × Nat × W64))
  | [] => .ok []
  | t :: l => do
    let p ← d.kvPrep g t.k t.t page w t.a t.x
    let r ← d.prepAll g w page l
    return (t.f, p) :: r

/-- Gives pages to entries in rank order (R378); `left` pages are on the ring. A fault stops it for that entry and every later
one. -/
def Dev.takePages (g : Group) (w : Nat) (ts : List Taker) : List Nat → Nat → Dev → List ((Nat × Nat) × KvRes) × Dev
  | [], _, d => ([], d)
  | e :: es, 0, d => (allOf ts (e :: es) (.done 2 0), d)
  | e :: es, n + 1, d =>
    match ts.find? fun t => t.key == e with
    | none => takePages g w ts es (n + 1) d
    | some t0 =>
      let mine := ts.filter fun t => t.key == e
      let go : Except Trap (Nat × List (Fibre × Nat × W64)) := do
        match t0.fault with
        | some x => throw x
        | none => pure ()
        let page ← d.kvPop g t0.k
        let rows ← d.prepAll g w page mine
        return (page, rows)
      match go with
      | .error x => (allOf ts (e :: es) (.trap x), d)
      | .ok (page, rows) =>
        let d1 := (d.kvPopped g.core t0.k).kvSet g.core e { d.kvGet g.core e with state := 1, ref := 1, strm := 0, page := page }
        let d2 := rows.foldl (fun d r => d.kvWrite g r.1 w r.2) d1
        let r := takePages g w ts es n d2
        (allOf ts [e] (.done 0 0) ++ r.1, r.2)

/-- The takers of a batch, one descriptor after another. -/
def Dev.takeAll (g : Group) (w : Nat) (ts : List Taker) : List Nat → Dev → List ((Nat × Nat) × KvRes) × Dev
  | [], d => ([], d)
  | k :: ks, d =>
    let mine := ts.filter fun t => t.k.pa == k
    match mine.head? with
    | none => takeAll g w ts ks d
    | some t0 =>
      let r := Dev.takePages g w mine (dedup (mine.map Taker.key)) (d.kvRoom g.core t0.k 1) d
      let q := takeAll g w ts ks r.2
      (r.1 ++ q.1, q.2)

/-- KVAPP (R164, R376, R378), region-closing (R253). -/
def Dev.kvapp (d : Dev) (stl : BitVec 2) (vd w : Nat) (arg : Fibre → W64 × W64) (data : Fibre → W64) : Dev :=
  if d.active.any fun f => f.late.isSome then d.hold
  else
    let r := Dev.kvAll (fun d f => d.kvappOne w f (arg f).1 (arg f).2 (data f)) d.active d
    let ts := r.2.active.filterMap fun f => match kvOf r.1 f with
      | some (.take k t x) => some { f := f, k := k, t := t, fault := x, a := (arg f).2, x := data f : Taker }
      | _ => none
    let q := Dev.takeAll d.grp w ts (dedup (ts.map fun t => t.k.pa)) r.2
    let res (f : Fibre) : Option KvRes := (kvOf q.1 f).or (kvOf r.1 f)
    let d1 := q.2.updActive fun f =>
      match res f with
      | some (.done st _) =>
        let f := (f.oweAll vd [st]).close f.pc
        if f.mdoneHits then { f with mdone := 0 } else f
      | _ => f
    d1.split (fun f => match res f with | some (.trap t) => some t | _ => none) fun d => d.advLane stl

/-- KVAPP; B[7:0] of each fibre selects the operation (R373, R376). -/
def kvappOp (i : Instr) (o : R3Op) (s : State) : Host.Outcome State Fault Refusal :=
  s.run i fun d => d.kvapp o.stl (laneNo o.hv o.vd) (widthOf o.ty) (d.kvArg o) fun f => d.readV f (laneNo o.hv o.va + 1)

/-- KVAPP APPEND (R376, R377). -/
def execKvappAppend (o : R3Op) (s : State) : Host.Outcome State Fault Refusal := kvappOp (.kvappAppend o) o s
/-- KVAPP UNREF (R376). -/
def execKvappUnref (o : R3Op) (s : State) : Host.Outcome State Fault Refusal := kvappOp (.kvappUnref o) o s
/-- KVAPP PAGEIN (R376). -/
def execKvappPagein (o : R3Op) (s : State) : Host.Outcome State Fault Refusal := kvappOp (.kvappPagein o) o s
/-- KVAPP COMMIT (R376). -/
def execKvappCommit (o : R3Op) (s : State) : Host.Outcome State Fault Refusal := kvappOp (.kvappCommit o) o s
/-- KVAPP RETAIN (R376). -/
def execKvappRetain (o : R3Op) (s : State) : Host.Outcome State Fault Refusal := kvappOp (.kvappRetain o) o s

/-! ## Releases after a group (R375) -/

/-- A number no core has: the hub, as a party with no unpublished store. -/
def noCore : Nat := 512

/-- Makes a release that a group left behind; none when a translation fails. -/
def Dev.lateRelease (d : Dev) (ctx : Nat) (h : Hold) : Except Trap Dev := do
  let va := sext48 (BitVec.ofNat 48 h.desc)
  let ep ← d.kvAddr ctx (sext48 (BitVec.ofNat 48 h.entry)) 3 3
  d.kvRelease ctx noCore ep ((d.kvAddr ctx va 3 3).map fun kp => kvDesc va kp (d.ms.readDevice kp 256))

/-- STREAM_RELEASE: release `a` is made, or waits for page requests, or is given up with one record (R375). -/
def execStreamRelease (s : State) : Host.Outcome State Fault Refusal :=
  .next (s.onDev fun d =>
    match d.hub.releases[d.arg.a]? with
    | none => d
    | some r =>
      let drop (d : Dev) : Dev := d.updHub fun h => { h with releases := h.releases.filter fun x => x.id != r.id }
      if (d.hub.ctx? r.ctx).isNone then drop d
      else if d.waits (.stream r.id) then d
      else match d.lateRelease r.ctx r.hold with
        | .ok d1 => drop d1
        | .error t =>
          let c := d.addCase (.stream r.id) r.ctx t.units t.addr.toNat
          if c.2 then c.1 else drop (c.1.addRec (bareRec r.ctx (pfCause 3) t.addr.toNat 0)))

end Sys2Proof.Machine
end

