-- ==== Sys2Proof/Machine/Array.lean ====
section
/-! DEFINITION. The matrix array (05: R103 to R105, R116 to R118; 08: R195, R198, R212 to R214): one tile product, the fused
functions of the drain, the top-k merge. -/

namespace Sys2Proof.Machine

/-! ## Elements (R103 to R105, R198) -/

/-- The value of an SC8 code (R103). -/
def sc8val (c : Nat) : FVal :=
  if c == 0 then .fin false 0 0 else if c == 0xFF then .nan else .fin false (4 + c % 4) ((c / 4 : Nat) - 34)

/-- An element of a pane: its value, unscaled for a block format, and its selector. -/
structure PElem where
  v : FVal
  sel : Nat
  deriving DecidableEq, Repr

/-- The magnitude of an element code: exponent field, mantissa field and its width (R104). -/
def codeMag (e m w : Nat) : Nat := if e == 0 then m else (2 ^ w + m) * 2 ^ (e - 1)

/-- Decodes an element code of a format (R104); the unit of a magnitude is 2^-5, 2^-2 and 2^-1. -/
def elemOf (fmt c : Nat) : PElem :=
  match fmt with
  | 0 => ⟨FFmt.bf16.read false c, 0⟩
  | 1 => ⟨FFmt.f16.read false c, 0⟩
  | 2 =>
    let s := bitsOf c 6 1 == 1
    let e := bitsOf c 3 3
    let m := bitsOf c 0 3
    ⟨if e == 7 && m == 6 then .inf s else if e == 7 && m == 7 then .nan else .fin s (codeMag e m 3) (-5), bitsOf c 7 1⟩
  | 3 => ⟨.fin (bitsOf c 4 1 == 1) (codeMag (bitsOf c 2 2) (bitsOf c 0 2) 2) (-2), bitsOf c 5 1⟩
  | _ => ⟨.fin (bitsOf c 2 1 == 1) (codeMag (bitsOf c 1 1) (bitsOf c 0 1) 1) (-1), bitsOf c 3 1⟩

/-- First byte of a pane in its core's slot. -/
def Pane.at_ (p : Pane) : Nat := 0x200000 + p.base * 0x1000

/-- Bytes of a core's own memory at a slot offset. -/
def Dev.own (d : Dev) (core off n : Nat) : Nat := leVal ((List.range n).map fun i => d.ms.avail core (slotBase core + off + i))

/-- Logical element (x, κ) of a pane (R198). -/
def Dev.paneElem (d : Dev) (core : Nat) (p : Pane) (x κ : Nat) : PElem :=
  let b := fmtBits p.fmt
  let bit := ((if p.orient then κ * p.cols + x else x * p.cols + κ) * b)
  elemOf p.fmt (bitsOf (d.own core (p.at_ + bit / 8) 2) (bit % 8) b)

/-- The scale pair of the block that holds logical element (x, κ) (R198). -/
def Dev.paneScale (d : Dev) (core : Nat) (p : Pane) (x κ : Nat) : Nat × Nat :=
  let o := p.at_ + p.scoff + 2 * (x * (if p.orient then p.rows else p.cols) / p.bl + κ / p.bl)
  (d.own core o 1, d.own core (o + 1) 1)

/-- The scale an element selects. -/
def scaleBy (s : Nat × Nat) (sel : Nat) : Nat := if sel == 1 then s.2 else s.1

/-- The decoded value of an element (R105). -/
def Dev.paneValue (d : Dev) (core : Nat) (p : Pane) (x κ : Nat) : FVal :=
  let e := d.paneElem core p x κ
  if isBlock p.fmt then .mul e.v (sc8val (scaleBy (d.paneScale core p x κ) e.sel)) else e.v

/-! ## Sums (R116 to R118, R213) -/

/-- An exact sum. -/
def sumV (l : List FVal) : FVal := l.foldl (.add false) (.fin false 0 0)

/-- Rounded once to binary32; an exact zero is +0. -/
def round32 (v : FVal) : Nat :=
  match v with
  | .fin _ 0 _ => 0
  | _ => FFmt.f32.write 0 false v

/-- Adds a contribution; EPI 1 scales it by -2 (R213). -/
def addTo (epi acc t : Nat) : Nat := add32 acc (if epi == 1 then FFmt.f32.mulC 0 false t 0xC0000000 else t)

/-- V(sa, sb) of a pair of blocks (R116, R117). -/
def pairV (es : List (PElem × PElem)) (SA SB : Nat × Nat) (sa sb : Nat) : Nat :=
  match es.filter fun e => e.1.sel == sa && e.2.sel == sb with
  | [] => 0
  | l => round32 (.mul (.mul (sumV (l.map fun e => .mul e.1.v e.2.v)) (sc8val (scaleBy SA sa))) (sc8val (scaleBy SB sb)))

/-- The contribution of a pair of blocks (R116). -/
def pairSum (es : List (PElem × PElem)) (SA SB : Nat × Nat) : Nat :=
  let V := pairV es SA SB
  add32 (add32 (add32 (V 1 1) (V 1 0)) (V 0 1)) (V 0 0)

/-- One element of a tile product (R116, R118), over `ke` elements of K: row `i` of the A pane, row `j` of the B pane. -/
def Dev.dot (d : Dev) (core epi ke : Nat) (pa pb : Pane) (i j acc : Nat) : Nat :=
  if isBlock pa.fmt && isBlock pb.fmt then
    let n := min pa.bl pb.bl
    (List.range (ke / n)).foldl (fun acc q =>
      let es := (List.range n).map fun k => (d.paneElem core pa i (q * n + k), d.paneElem core pb j (q * n + k))
      addTo epi acc (pairSum es (d.paneScale core pa i (q * n)) (d.paneScale core pb j (q * n)))) acc
  else
    (List.range (ke / 32)).foldl (fun acc q =>
      addTo epi acc (round32 (sumV ((List.range 32).map fun k =>
        .mul (d.paneValue core pa i (q * 32 + k)) (d.paneValue core pb j (q * 32 + k)))))) acc

/-- Offset of an accumulator slot in the core's slot. -/
def accAt (s : Nat) : Nat := 0x100000 + s * 0x4000

/-- Element (i, j) of an accumulator slot (R37). -/
def Dev.accGet (d : Dev) (core s i j : Nat) : Nat := d.own core (accAt s + (i * 64 + j) * 4) 4

/-- Replaces every element of a slot, all read before any is written. -/
def Dev.accMap (d : Dev) (core s : Nat) (f : Nat → Nat → Nat → Nat) : Dev :=
  d.onchipPut core (accAt s) ((List.range 4096).flatMap fun n => leBytes 4 (f (n / 64) (n % 64) (d.accGet core s (n / 64) (n % 64))))

/-- A tile product into a slot (R195). -/
def Dev.tileProduct (d : Dev) (core epi ke s : Nat) (pa pb : Pane) : Dev := d.accMap core s (d.dot core epi ke pa pb)

/-! ## The drain (R212, R214) -/

/-- Element `i` of a pane's side-band. -/
def Dev.sideband (d : Dev) (core : Nat) (p : Pane) (i : Nat) : Nat := d.own core (p.at_ + p.ngr * 0x1000 - 256 + 4 * i) 4

/-- Adds the squared norms (R212, step 1). -/
def Dev.addNorms (d : Dev) (core s : Nat) (pa pb : Pane) : Dev :=
  d.accMap core s fun i j x => add32 (add32 x (d.sideband core pa i)) (d.sideband core pb j)

/-- The largest magnitude of a slot as an ordered pattern; a NaN counts as 0x7FC0_0000 (R212, step 2). -/
def Dev.largest (d : Dev) (core s : Nat) : Nat :=
  (List.range 4096).foldl (fun m n =>
    let x := d.accGet core s (n / 64) (n % 64) % 2 ^ 31
    max m (if 0x7F800000 < x then 0x7FC00000 else x)) 0

/-- Whether a binary32 code is a NaN. -/
def isNan32 (c : Nat) : Bool := decide (0x7F800000 < c % 2 ^ 31)

/-- Rank of a top-k entry: the best first, equal values by lower column (R214). -/
def topRank (epi : Nat) (e : Nat × Nat) : Nat :=
  let p := place32 e.1
  (2 ^ 32 + (if epi == 2 then -p else p)).toNat * 2 ^ 32 + e.2

/-- The entries of row `i` of a state slot that are kept. -/
def Dev.topRow (d : Dev) (core s k i : Nat) : List (Nat × Nat) :=
  ((List.range k).map fun e => (d.own core (accAt s + i * 128 + e * 8) 4, d.own core (accAt s + i * 128 + e * 8 + 4) 4)).filter
    fun x => x.2 != 0xFFFFFFFF

/-- The bytes of a row of top-k state: the kept entries, then empty ones up to `k`, then undefined words (R214, log 22). -/
def topBytes (free k i : Nat) (es : List (Nat × Nat)) : List Byte :=
  (List.range 16).flatMap fun n =>
    if n < k then let e := nth es n (0x7FC00000, 0xFFFFFFFF); leBytes 4 e.1 ++ leBytes 4 e.2
    else
      let u (h : Nat) : Nat := (Config.topkUndefined (free * 4096 + (i * 16 + n) * 2 + h)).toNat
      leBytes 4 (u 0) ++ leBytes 4 (u 1)

/-- The half of a state slot beyond its rows, undefined (R214, log 22). -/
def topRest (free : Nat) : List Byte :=
  (List.range 2048).flatMap fun n => leBytes 4 (Config.topkUndefined (free * 4096 + 2048 + n)).toNat

/-- The rows of a state slot from its rows of kept entries. -/
def Dev.topPut (d : Dev) (core s k : Nat) (row : Nat → List (Nat × Nat)) : Dev :=
  let d := d.onchipPut core (accAt s) (((List.range 64).flatMap fun i => topBytes d.free k i (row i)) ++ topRest d.free)
  { d with free := d.free + 1 }

/-- Merges a complete tile into the state slot of its row (R214); `col` is its first column, `n` the columns of the result. The tile of
column 0 is the first that is merged for its row: until then the slot holds no entry, only the +0 of its allotment (R193). -/
def Dev.topMerge (d : Dev) (core epi k st s col n : Nat) : Dev :=
  d.topPut core st k fun i =>
    let news := ((List.range 64).filter fun j => decide (col + j < n)).map fun j => (d.accGet core s i j, col + j)
    (sortBy (topRank epi) ((if col == 0 then [] else d.topRow core st k i) ++ news.filter fun x => !isNan32 x.1)).take k

end Sys2Proof.Machine
end

