-- ==== Sys2Proof/Machine/Walk.lean ====
section
/-! DEFINITION. The walk engine (08: R187 to R223, 11: R270 to R272): drawing, the window, upcalls, products, drains, and the
pane and upcall instructions. -/

namespace Sys2Proof.Machine

/-! ## Extents of a walk (R191) -/

/-- Elements of K in a k-step. -/
def WalkRec.ke (r : WalkRec) : Nat := if r.kext == 1 then 128 else 64
/-- Tile rows. -/
def WalkRec.tm (r : WalkRec) : Nat := ceilDiv r.m 64
/-- Tile columns. -/
def WalkRec.tn (r : WalkRec) : Nat := ceilDiv r.n 64
/-- k-steps. -/
def WalkRec.ks (r : WalkRec) : Nat := ceilDiv r.k r.ke
/-- Sweep rows. -/
def WalkRec.sr (r : WalkRec) : Nat := ceilDiv r.tm r.srows
/-- Sweep columns. -/
def WalkRec.sc (r : WalkRec) : Nat := ceilDiv r.tn r.scols
/-- Top-k. -/
def WalkRec.isTop (r : WalkRec) : Bool := r.epi == 2 || r.epi == 3
/-- Units of work. -/
def WalkRec.units (r : WalkRec) : Nat := if r.isTop then r.sr else r.sr * r.sc

/-- Origin tile of a sweep. -/
def WalkRec.origin (r : WalkRec) (s : Nat) : Nat × Nat :=
  let row := s / r.sc
  let col := if r.serp && !r.isTop && row % 2 == 1 then r.sc - 1 - s % r.sc else s % r.sc
  (row * r.srows, col * r.scols)

/-- Tile rows of a sweep. -/
def WalkRec.rowsOf (r : WalkRec) (s : Nat) : List Nat :=
  ((List.range r.srows).map fun i => (r.origin s).1 + i).filter fun x => decide (x < r.tm)
/-- Tile columns of a sweep. -/
def WalkRec.colsOf (r : WalkRec) (s : Nat) : List Nat :=
  ((List.range r.scols).map fun i => (r.origin s).2 + i).filter fun x => decide (x < r.tn)

/-- Sweeps of a unit, in order. -/
def WalkRec.sweepsOf (r : WalkRec) (u : Nat) : List Nat := if r.isTop then (List.range r.sc).map fun i => u * r.sc + i else [u]
/-- The unit of a sweep. -/
def WalkRec.unitOf (r : WalkRec) (s : Nat) : Nat := if r.isTop then s / r.sc else s

/-- Tile index (R202). -/
def WalkRec.tileIdx (r : WalkRec) (s row col : Nat) : Nat := (row - (r.origin s).1) * r.scols + (col - (r.origin s).2)

/-! ## Drawing (R192) -/

/-- The chunk of the next draw. -/
def WalkEng.chunk (w : WalkEng) : Nat :=
  let est := if w.first then w.rcd.units else w.rcd.units - (w.oldPrev + w.chunkPrev)
  min w.rcd.cmax (max w.rcd.cmin (ceilDiv est (2 * w.cores.length)))

/-- What a draw brings (R192). -/
def WalkEng.drew (w : WalkEng) (old : Nat) : WalkEng :=
  let u := w.rcd.units
  let got := (List.range w.chunk).filterMap fun i => if old + i < u then some (old + i) else none
  { w with first := false, oldPrev := old, chunkPrev := w.chunk, drawDue := false, noMore := w.noMore || decide (u ≤ old),
           units := w.units ++ got }

/-- Replaces the walk of a core. -/
def Dev.setWalk (d : Dev) (core : Nat) (w : WalkEng) : Dev := d.updCore core fun c => { c with walk := some w }

/-- Changes the walk of a core. -/
def Dev.updWalk (d : Dev) (core : Nat) (f : WalkEng → WalkEng) : Dev :=
  match (d.core core).walk with
  | some w => d.setWalk core (f w)
  | none => d

/-- An engine access to WCTR or AMAX that cannot be translated (R217): page requests, or abort with code 7. -/
def Dev.walkFault (d : Dev) (core : Nat) (w : WalkEng) (u : FaultUnit) : Dev :=
  let r := d.addCase (.walkEng core w.lid) w.ctx [u] u.va
  if r.2 then r.1 else r.1.abortWalk core 7 0 true

/-- Whether a draw can be made now. -/
def Dev.drawReady (d : Dev) (core : Nat) : Bool :=
  match (d.core core).walk with
  | some w => w.st == .running && w.drawDue && !d.waits (.walkEng core w.lid)
  | none => false

/-- A draw (R192). -/
def Dev.walkDraw (d : Dev) (core : Nat) : Dev :=
  match (d.core core).walk with
  | none => d
  | some w =>
    if !d.drawReady core then d
    else
      let t := d.translate core w.ctx (w.rcd.wctr % 2 ^ 48) 3
      match t.1 with
      | .error u => t.2.walkFault core w u
      | .ok a =>
        let x := t.2.atomAt core a true 0 (BitVec.ofNat 64 w.chunk) 0
        x.2.setWalk core (w.drew x.1.toNat)

/-! ## Upcalls (R194, R201 to R203, R270) -/

/-- Role of an upcall kind: 0 producer, 1 consumer, 2 norm. -/
def roleOf (kind : Nat) : Nat := if kind < 3 then 0 else if kind == 3 then 2 else 1

/-- The role token of a kind (R201). -/
def WalkRec.tokenOf (r : WalkRec) (kind : Nat) : W32 :=
  match roleOf kind with
  | 0 => r.ptok
  | 1 => r.ctok
  | _ => r.ntok

/-- An upcall as it waits to be raised: `pane` and `slot` of k56, k57 to k60 (R202). -/
def WalkRec.upcall (r : WalkRec) (kind opnd sweep pane slot tile row col kstep k60 : Nat) : Upcall :=
  let k56 := kind + opnd * 2 ^ 4 + pane * 2 ^ 8 + slot * 2 ^ 16 + tile * 2 ^ 20
  { seq := 0, sweep := sweep, kind := kind, cons := roleOf kind == 1, token := r.tokenOf kind
    args := [BitVec.ofNat 64 k56, BitVec.ofNat 64 row, BitVec.ofNat 64 col, BitVec.ofNat 64 kstep, BitVec.ofNat 64 k60, r.user, 0, 0]
    st := .queued }

/-- The PA upcall of a tile row of a sweep at a k-step; its pane comes with the raise. -/
def WalkRec.upPA (r : WalkRec) (s k row : Nat) : Upcall :=
  r.upcall 0 0 s 0 0 (r.tileIdx s row (r.origin s).2) row (r.origin s).2 k 0
/-- The PB upcall of a tile column. -/
def WalkRec.upPB (r : WalkRec) (s k col : Nat) : Upcall :=
  r.upcall 1 1 s 0 0 (r.tileIdx s (r.origin s).1 col) (r.origin s).1 col k 0
/-- The PC upcall of a tile. -/
def WalkRec.upPC (r : WalkRec) (s : Nat) (t : Tile) : Upcall :=
  r.upcall 2 2 s 0 t.slot (r.tileIdx s t.row t.col) t.row t.col 0 (t.slot * 0x4000)
/-- The NORM upcall of a pane. -/
def WalkRec.upNorm (r : WalkRec) (p : Pane) : Upcall :=
  let row := if p.isB then (r.origin p.sweep).1 else p.index
  let col := if p.isB then p.index else (r.origin p.sweep).2
  r.upcall 3 (if p.isB then 1 else 0) p.sweep p.base 0 (r.tileIdx p.sweep row col) row col p.kstep ((p.base + p.ngr) * 0x1000 - 256)
/-- The DRAIN upcall of a tile. -/
def WalkRec.upDrain (r : WalkRec) (s : Nat) (t : Tile) : Upcall :=
  r.upcall 4 2 s 0 t.slot (r.tileIdx s t.row t.col) t.row t.col (r.ks - 1) (t.slot * 0x4000)
/-- The TOPK upcall of a tile row with its state slot. -/
def WalkRec.upTopk (r : WalkRec) (s row slot : Nat) : Upcall := r.upcall 5 2 s 0 slot 0 row 0 (r.ks - 1) (slot * 0x4000)

/-- Granules of a pane (R196). -/
def paneSize (fmt ke : Nat) : Nat :=
  match fmt with
  | 4 | 3 => if ke == 128 then 2 else 1
  | 2 => if ke == 128 then 3 else 2
  | _ => if ke == 128 then 5 else 3

/-- The lowest free run of `n` granules. -/
def WalkEng.freeRun (w : WalkEng) (n : Nat) : Option Nat :=
  (List.range (129 - n)).find? fun g => (List.range n).all fun i => (w.paneAt (g + i)).isNone

/-- The default record of a reserved pane (R196, R198). -/
def WalkRec.newPane (r : WalkRec) (base sweep k index : Nat) (isB : Bool) : Pane :=
  let fmt := if isB then r.fmtb else r.fmta
  let port := if isB then r.bcol else r.acol
  let p : Pane :=
    { base := base, ngr := paneSize fmt r.ke, cols := if port then 64 else r.ke, rows := if port then r.ke else 64, scoff := 0
      hadf := r.had, orient := port, blk := r.had != 1, fmt := fmt, st := .reserved, isB := isB, sweep := sweep, kstep := k
      index := index, normed := false, checked := false }
  { p with scoff := p.codeBytes }

/-- A live upcall takes its sequence number, walk id and pane (R194, R202). -/
def Upcall.numbered (u : Upcall) (seq : Nat) (launchid : BitVec 32) (pane : Nat) : Upcall :=
  let k56 := nth u.args 0 0 ||| BitVec.ofNat 64 (pane * 2 ^ 8)
  let a := ((u.args.set 0 k56).set 6 (launchid.setWidth 64)).set 7 (BitVec.ofNat 64 seq)
  { u with seq := seq, args := if u.kind < 2 then a.set 4 (BitVec.ofNat 64 (pane * 0x1000)) else a }

/-- Upcalls of a role raised and not delivered. -/
def WalkEng.queued (w : WalkEng) (role : Nat) : List Upcall := w.ups.filter fun u => roleOf u.kind == role && u.st == .queued

/-- Whether there is room to raise an upcall of a kind (R203, R270). -/
def WalkEng.room (w : WalkEng) (kind : Nat) : Bool :=
  decide ((w.queued (roleOf kind)).length < 32) && decide (w.ups.length < 64) && w.ups.all fun u => u.seq % 64 != w.nseq % 64

/-- The oldest upcall waiting is raised, if there is room and its pane can be reserved (R194). -/
def WalkEng.raiseOne (w : WalkEng) (launchid : BitVec 32) : Option WalkEng :=
  match w.raise with
  | [] => none
  | u :: l =>
    if !w.room u.kind then none
    else if u.kind < 2 then
      let isB := u.kind == 1
      match w.freeRun (paneSize (if isB then w.rcd.fmtb else w.rcd.fmta) w.rcd.ke) with
      | none => none
      | some g =>
        let index := (nth u.args (if isB then 2 else 1) 0).toNat
        let p := w.rcd.newPane g u.sweep (nth u.args 3 0).toNat index isB
        some { w with panes := (w.panes.filter fun p => p.st != .free) ++ [p], ups := w.ups ++ [u.numbered w.nseq launchid g]
                      nseq := w.nseq + 1, raise := l }
    else some { w with ups := w.ups ++ [u.numbered w.nseq launchid 0], nseq := w.nseq + 1, raise := l }

/-- Raises what can be raised. -/
def WalkEng.raiseAll (launchid : BitVec 32) : Nat → WalkEng → WalkEng
  | 0, w => w
  | n + 1, w =>
    match w.raiseOne launchid with
    | some w => raiseAll launchid n w
    | none => w

/-- LAUNCHID of a walk's launch. -/
def Dev.walkId (d : Dev) (w : WalkEng) : BitVec 32 := ((d.launch? w.lid).map Launch.launchid).getD 0

/-- The upcalls of a core's walk that wait are raised. -/
def Dev.raiseUps (d : Dev) (core : Nat) : Dev := d.updWalk core fun w => w.raiseAll (d.walkId w) w.raise.length

/-! ## Delivery (R202, R203) -/

/-- Whether a warp belongs to the groups that a role's upcalls go to (R201). -/
def WalkEng.takes (w : WalkEng) (role : Nat) (x : Warp) : Bool :=
  if role == 0 then x.gid == w.prod else if role == 1 then x.gid == w.cons else x.gid == w.prod || x.gid == w.cons

/-- The oldest undelivered upcall of a role, the warp that takes it and the binding (R166, R203); a warp that an arrival wakes
at a lower binding in this cycle takes none (R169). -/
def Dev.upcallTaker (d : Dev) (core role : Nat) : Option (Upcall × Warp × Nat) :=
  match (d.core core).walk with
  | none => none
  | some w =>
    if w.st != .running || nth w.offered role none == some d.cycle then none
    else match (w.queued role).head? with
      | none => none
      | some u =>
        let can (x : Warp) : Option Nat := if x.occ.isSome then none else (d.wakeIndex x u.token).filter fun i =>
          !((d.wakes core []).any fun y => y.slot == x.slot && decide (y.bind_ < i))
        ((sortBy Warp.slot (d.warps.filter fun x => x.core == core && w.takes role x)).findSome? fun x =>
          (can x).map fun i => (u, x, i))

/-- Delivers a role's oldest upcall (R202, R203). -/
def Dev.deliverUpcall (d : Dev) (core role : Nat) : Dev :=
  match d.upcallTaker core role with
  | none => d
  | some (u, x, i) =>
    let d := d.giveEvent x (nth (x.park.getD []) i 0) u.args Scope.core
    let d := d.updWarp core x.slot fun y => { y with occ := some u.seq }
    let mark (v : Upcall) : Upcall := if v.seq == u.seq then { v with st := .delivered x.slot } else v
    d.updWalk core fun w => { w with offered := w.offered.set role (some d.cycle), ups := w.ups.map mark }

/-- UPCALL_DELIVERY (R203); a core, b role. -/
def execUpcallDelivery (s : State) : Host.Outcome State Fault Refusal :=
  .next (s.onDev fun d => d.deliverUpcall d.arg.a d.arg.b)

/-! ## The window (R193) -/

/-- k-steps of a tile whose products are done. -/
def Tile.ksteps (ks : Nat) (t : Tile) : Nat :=
  match t.st with
  | .init => 0
  | .acc k => k
  | _ => ks

/-- Steps of a sweep all of whose products are done. -/
def Sweep.kdone (s : Sweep) (ks : Nat) : Nat := (s.tiles.map (Tile.ksteps ks)).foldl min ks

/-- Sweeps of the window with products to do. -/
def WalkEng.openSweeps (w : WalkEng) : List Sweep := w.window.filter fun s => decide (s.kdone w.rcd.ks < w.rcd.ks)

/-- Steps in the window. -/
def WalkEng.steps (w : WalkEng) : Nat := (w.window.map fun s => s.admitted - s.kdone w.rcd.ks).foldl (· + ·) 0

/-- The lowest-numbered free slots. -/
def WalkEng.freeSlots (w : WalkEng) : List Nat := (List.range 16).filter fun i => !w.slots.contains i

/-- Takes the next unit when no sweep of the current one is left. -/
def WalkEng.nextUnit (w : WalkEng) : WalkEng :=
  match w.todo, w.units with
  | [], u :: l => { w with todo := w.rcd.sweepsOf u, units := l }
  | _, _ => w

/-- Tile rows of a sweep that have no state slot yet (R214). -/
def WalkEng.newTops (w : WalkEng) (s : Nat) : List Nat :=
  if w.rcd.isTop then (w.rcd.rowsOf s).filter fun r => !w.tops.any fun t => t.1 == r else []

/-- The sweep that would enter the window next, if its slots can be allotted (R193). -/
def WalkEng.newSweep (w : WalkEng) : Option Nat :=
  match w.nextUnit.todo with
  | [] => none
  | s :: _ =>
    if decide (w.openSweeps.length ≤ 1) &&
       decide ((w.rcd.rowsOf s).length * (w.rcd.colsOf s).length + (w.newTops s).length ≤ w.freeSlots.length) then some s else none

/-- The next step: of the sweep last admitted, or the first of a new one. -/
inductive NextStep where
  | more (s : Sweep)
  | fresh (s : Nat)

/-- The step that may enter the window now (R193). -/
def WalkEng.nextStep (w : WalkEng) : Option NextStep :=
  if w.rcd.look ≤ w.steps then none
  else match w.window.find? fun s => decide (s.admitted < w.rcd.ks) with
    | some s => some (.more s)
    | none => w.newSweep.map .fresh

/-- The upcalls of a step (R194). -/
def WalkRec.stepUps (r : WalkRec) (s k : Nat) : List Upcall := (r.rowsOf s).map (r.upPA s k) ++ (r.colsOf s).map (r.upPB s k)

/-- A sweep as it enters the window with its slots. -/
def WalkRec.newSweep (r : WalkRec) (s : Nat) (slots : List Nat) : Sweep :=
  let at_ := (r.rowsOf s).flatMap fun i => (r.colsOf s).map fun j => (i, j)
  { index := s, unit := r.unitOf s, admitted := 1
    tiles := at_.zipIdx.map fun p => { row := p.1.1, col := p.1.2, slot := nth slots p.2 0, st := if r.cinit then .init else .acc 0 } }

/-- Clears a slot to +0. -/
def Dev.clearSlot (core : Nat) (d : Dev) (s : Nat) : Dev := d.onchipPut core (accAt s) (List.replicate 0x4000 0)

/-- The first step of a sweep enters the window (R193, R194, R214); the draw that R192 asks for becomes due. The tiles take the lowest
free slots in row-major order (R271); the top-k state of new tile rows, DESIGN CHOICE, the lowest after those (log 65). -/
def Dev.admitSweep (d : Dev) (core : Nat) (w : WalkEng) (s : Nat) : Dev :=
  let w := w.nextUnit
  let rows := w.newTops s
  let n := (w.rcd.rowsOf s).length * (w.rcd.colsOf s).length
  let mine := w.freeSlots.take n
  let states := (w.freeSlots.drop n).take rows.length
  let sw := w.rcd.newSweep s mine
  let pcs := if w.rcd.cinit then sw.tiles.map (w.rcd.upPC s) else []
  let d := (mine ++ states).foldl (Dev.clearSlot core) d
  let lastUnit := w.units.isEmpty && (w.rcd.sweepsOf (w.rcd.unitOf s)).head? == some s
  d.setWalk core { w with
    todo := w.todo.drop 1, window := w.window ++ [sw], slots := w.slots ++ mine ++ states, tops := w.tops ++ rows.zip states
    raise := w.raise ++ pcs ++ w.rcd.stepUps s 0, drawDue := w.drawDue || (lastUnit && !w.noMore) }

/-- The step that the engine admits now: none after a drain has begun in this cycle (R271). -/
def WalkEng.admits (w : WalkEng) (now : Nat) : Option NextStep := if w.drained == now + 1 then none else w.nextStep

/-- The next step enters the window, if one may (R193). -/
def Dev.admitStep (d : Dev) (core : Nat) : Dev :=
  match (d.core core).walk with
  | none => d
  | some w =>
    match w.admits d.cycle with
    | none => d
    | some (.fresh s) => d.admitSweep core w s
    | some (.more s) =>
      let win := updWhere (fun (x : Sweep) => x.index == s.index) (fun x => { x with admitted := x.admitted + 1 }) w.window
      d.setWalk core { w with window := win, raise := w.raise ++ w.rcd.stepUps s.index s.admitted }

/-- Steps enter the window as long as they may; `n` bounds how many. -/
def Dev.admitSteps (core : Nat) : Nat → Dev → Dev
  | 0, d => d
  | n + 1, d => admitSteps core n (d.admitStep core)

/-! ## Products (R195, R199) -/

/-- The pane of a row or column at a step. -/
def WalkEng.paneOf (w : WalkEng) (s k index : Nat) (isB : Bool) : Option Pane :=
  w.panes.find? fun p => p.st != .free && p.sweep == s && p.kstep == k && p.index == index && p.isB == isB

/-- A product: its sweep, k-step, tile and panes. -/
structure Product where
  sweep : Nat
  k : Nat
  tile : Tile
  pa : Pane
  pb : Pane

/-- The next tile product of the current step, whether or not its panes are filled; none while its tile waits for PC. -/
def WalkEng.product (w : WalkEng) : Option Product :=
  match w.openSweeps.head? with
  | none => none
  | some s =>
    let k := s.kdone w.rcd.ks
    match s.tiles.find? fun t => t.ksteps w.rcd.ks == k with
    | none => none
    | some t =>
      if t.st == .init || s.admitted ≤ k then none
      else match w.paneOf s.index k t.row false, w.paneOf s.index k t.col true with
        | some a, some b => some ⟨s.index, k, t, a, b⟩
        | _, _ => none

/-- The product that can start: both panes filled, the engine running, or finishing this step (R221). -/
def WalkEng.startable (w : WalkEng) : Option Product :=
  if w.busy.isSome then none
  else w.product.filter fun p => p.pa.st == .filled && p.pb.st == .filled &&
    (w.st == .running || (w.st == .stopping && w.stopAt == (p.sweep, p.k)))

/-- Cycles of a tile product (R195). -/
def WalkRec.cycles (r : WalkRec) : Nat :=
  (if r.fmta == 4 && r.fmtb == 4 then 8 else if isBlock r.fmta && isBlock r.fmtb then 16 else 32) * (if r.kext == 1 then 2 else 1)

/-- Whether a pane's record suits its operand (R199). -/
def WalkRec.suits (r : WalkRec) (p : Pane) : Bool :=
  let n := r.newPane 0 0 0 0 p.isB
  p.fmt == n.fmt && p.rows == n.rows && p.cols == n.cols && p.orient == n.orient

/-- The failure code of the checks at first read (R199); HADF of a BF16 or FP16 pane is ignored (R198). -/
def WalkRec.firstRead (r : WalkRec) (p : Product) : Option Nat :=
  if p.pa.checked && p.pb.checked then none
  else if !(r.suits p.pa && r.suits p.pb) then some 3
  else if isBlock p.pa.fmt && isBlock p.pb.fmt && p.pa.hadf != p.pb.hadf then some 4
  else none

/-- Changes the pane of a base. -/
def WalkEng.updPane (w : WalkEng) (base : Nat) (f : Pane → Pane) : WalkEng :=
  { w with panes := updWhere (fun p => p.base == base && p.st != .free) f w.panes }

/-- A product starts (R199). -/
def Dev.startProduct (d : Dev) (core : Nat) (w : WalkEng) (p : Product) : Dev :=
  match w.rcd.firstRead p with
  | some code => d.abortWalk core code 0 true
  | none =>
    let use (q : Pane) : Pane := { q with st := .inUse, checked := true }
    d.setWalk core { (w.updPane p.pa.base use).updPane p.pb.base use with busy := some (d.cycle + w.rcd.cycles), started := true }

/-- Whether every tile of a sweep that reads a pane has had its product, and under EPI 1 the side-band is not needed any more
(R195, R212). -/
def WalkEng.paneDone (w : WalkEng) (p : Pane) : Bool :=
  match w.window.find? fun s => s.index == p.sweep with
  | none => true
  | some s =>
    let readers := s.tiles.filter fun t => (if p.isB then t.col else t.row) == p.index
    readers.all fun t => decide (p.kstep < t.ksteps w.rcd.ks) &&
      (w.rcd.epi != 1 || p.kstep + 1 != w.rcd.ks || t.st == .draining || t.st == .done)

/-- Returns to free the panes that nothing reads any more. -/
def WalkEng.dropPanes (w : WalkEng) : WalkEng := { w with panes := w.panes.filter fun p => p.st == .reserved || !w.paneDone p }

/-- Changes a tile of a sweep. -/
def WalkEng.updTile (w : WalkEng) (s row col : Nat) (f : Tile → Tile) : WalkEng :=
  let one (x : Sweep) : Sweep := { x with tiles := updWhere (fun t => t.row == row && t.col == col) f x.tiles }
  { w with window := updWhere (fun x => x.index == s) one w.window }

/-- A product ends (R195): the sum in the slot, the tile's count, the panes that are free. -/
def Dev.endProduct (d : Dev) (core : Nat) (w : WalkEng) : Dev :=
  match w.product with
  | none => d.setWalk core { w with busy := none }
  | some p =>
    let d := d.tileProduct core w.rcd.epi w.rcd.ke p.tile.slot p.pa p.pb
    let back (q : Pane) : Pane := { q with st := .filled }
    let w := (w.updPane p.pa.base back).updPane p.pb.base back
    let w := w.updTile p.sweep p.tile.row p.tile.col fun t => { t with st := if p.k + 1 == w.rcd.ks then .complete else .acc (p.k + 1) }
    d.setWalk core { w.dropPanes with busy := none }

/-- Whether the array has something to do now. -/
def Dev.productReady (d : Dev) (core : Nat) : Bool :=
  match (d.core core).walk with
  | none => false
  | some w => match w.busy with
    | some c => decide (c ≤ d.cycle)
    | none => w.startable.isSome || w.st == .stopping

/-- The array of a core: the product under way ends, or the next one starts, or a pre-empted engine has finished its step and the
grace begins (R195, R221). -/
def Dev.walkProduct (d : Dev) (core : Nat) : Dev :=
  match (d.core core).walk with
  | none => d
  | some w =>
    match w.busy with
    | some c => if c ≤ d.cycle then d.endProduct core w else d
    | none =>
      match w.startable with
      | some p => d.startProduct core w p
      | none => if w.st == .stopping then d.setWalk core { w with st := .grace, grace := d.cycle + 20000 } else d

/-- TILE_PRODUCT (R195); a core. -/
def execTileProduct (s : State) : Host.Outcome State Fault Refusal :=
  .next (s.onDev fun d => d.walkProduct d.arg.a)

/-! ## Drains (R212 to R214) -/

/-- The complete tile whose drain is next, in row-major order within its sweep (R195). -/
def WalkEng.drainNext (w : WalkEng) : Option (Sweep × Tile) :=
  w.window.findSome? fun s =>
    match s.tiles.find? fun t => !(t.st == .draining || t.st == .done) with
    | some t => if t.st == .complete then some (s, t) else none
    | none => none

/-- The panes of the last k-step that a tile's norms lie in. -/
def WalkEng.normPanes (w : WalkEng) (s : Sweep) (t : Tile) : Option (Pane × Pane) :=
  match w.paneOf s.index (w.rcd.ks - 1) t.row false, w.paneOf s.index (w.rcd.ks - 1) t.col true with
  | some a, some b => some (a, b)
  | _, _ => none

/-- Whether a tile's drain can begin: under EPI 1, when both NORM upcalls have returned. -/
def WalkEng.drainable (w : WalkEng) (s : Sweep) (t : Tile) : Bool :=
  w.rcd.epi != 1 || match w.normPanes s t with | some p => p.1.normed && p.2.normed | none => false

/-- Drops the sweeps whose every drain has begun, and the panes kept for them. -/
def WalkEng.tidy (w : WalkEng) : WalkEng :=
  let w := w.dropPanes
  { w with window := w.window.filter fun s => !s.tiles.all fun t => t.st == .draining || t.st == .done }

/-- The merge of a tile's largest magnitude into the absmax word (R212, step 2): the word's address is translated first. -/
def Dev.absmax (d : Dev) (core s a : Nat) : Dev :=
  ((d.release core Scope.device).atomAt core a false 4 (BitVec.ofNat 64 (d.largest core s)) 0).2

/-- Begins the drain of a tile under EPI 0 and 1 (R212). -/
def Dev.drainTile (d : Dev) (core : Nat) (w : WalkEng) (s : Sweep) (t : Tile) : Dev :=
  let norms (d : Dev) : Dev :=
    if w.rcd.epi == 1 then match w.normPanes s t with | some p => d.addNorms core t.slot p.1 p.2 | none => d else d
  let go (d : Dev) : Dev :=
    let w := w.updTile s.index t.row t.col fun t => { t with st := .draining }
    d.setWalk core { w with raise := w.raise ++ [w.rcd.upDrain s.index t], drained := d.cycle + 1 }.tidy
  if !w.rcd.absmax then go (norms d)
  else
    let x := d.translate core w.ctx (w.rcd.amax % 2 ^ 48) 3
    match x.1 with
    | .error u => x.2.walkFault core w u
    | .ok a => go ((norms x.2).absmax core t.slot a)

/-- Merges a complete tile into the top-k state of its row; after the unit's last tile, TOPK for each of its rows (R214). -/
def Dev.mergeTile (d : Dev) (core : Nat) (w : WalkEng) (s : Sweep) (t : Tile) : Dev :=
  let st := ((w.tops.find? fun x => x.1 == t.row).map Prod.snd).getD 0
  let d := d.topMerge core w.rcd.epi w.rcd.topk st t.slot (t.col * 64) w.rcd.n
  let w := { w.updTile s.index t.row t.col fun t => { t with st := .done } with slots := w.slots.filter (· != t.slot) }
  let lastSweep := s.index % w.rcd.sc + 1 == w.rcd.sc
  let lastTile := (s.tiles.getLast?).map fun x => (x.row, x.col)
  let rows := w.rcd.rowsOf s.index
  let ups := if lastSweep && lastTile == some (t.row, t.col) then
      rows.map fun r => w.rcd.upTopk s.index r (((w.tops.find? fun x => x.1 == r).map Prod.snd).getD 0)
    else []
  d.setWalk core { w with raise := w.raise ++ ups, drained := d.cycle + 1 }.tidy

/-- Whether a drain can begin now. -/
def Dev.drainReady (d : Dev) (core : Nat) : Bool :=
  match (d.core core).walk with
  | none => false
  | some w => w.st == .running && !d.waits (.walkEng core w.lid) &&
    (match w.drainNext with | some p => w.drainable p.1 p.2 | none => false)

/-- Begins the next drain. -/
def Dev.drainOne (d : Dev) (core : Nat) : Dev :=
  match (d.core core).walk with
  | none => d
  | some w =>
    if !d.drainReady core then d
    else match w.drainNext with
      | none => d
      | some p => if w.rcd.isTop then d.mergeTile core w p.1 p.2 else d.drainTile core w p.1 p.2

/-- Begins the drains that can begin, in order; `n` bounds how many. -/
def Dev.drainAll (core : Nat) : Nat → Dev → Dev
  | 0, d => d
  | n + 1, d => if d.drainReady core then drainAll core n (d.drainOne core) else d

/-- Whether the engine can raise, admit or drain now. -/
def Dev.admitReady (d : Dev) (core : Nat) : Bool :=
  match (d.core core).walk with
  | none => false
  | some w => w.st == .running &&
    ((w.raiseOne 0).isSome || (match w.admits d.cycle with | some _ => true | none => false) || d.drainReady core)

/-! ## Completion (R216) -/

/-- Whether an engine has nothing left to do (R216). -/
def WalkEng.isDone (w : WalkEng) : Bool :=
  w.noMore && w.units.isEmpty && w.todo.isEmpty && w.window.isEmpty && w.raise.isEmpty && w.ups.isEmpty

/-- Whether a launch's walk is finished on a core, live or saved. -/
def Dev.walkOver (d : Dev) (lid core : Nat) : Bool :=
  (match (d.core core).walk with | some w => w.lid == lid && w.st == .finished | none => false) ||
  d.walks.any fun x => x.eng.lid == lid && x.core == core && x.eng.st == .finished

/-- The walk of a launch is complete on every core: the role groups retire, slots and granules are free (R216). -/
def Dev.walkComplete (d : Dev) (lid : Nat) (cores : List Nat) : Dev :=
  cores.foldl (fun d core =>
    let live : Bool := match (d.core core).walk with | some w => w.lid == lid | none => false
    let d := if live then d.updCore core fun c =>
        { c with wstall := match c.walk with | some w => w.stall | none => c.wstall, wstat := 0, walk := none }
      else d
    let kept := d.walks.filter fun x => x.eng.lid == lid && x.core == core
    let d := kept.foldl (fun d x => d.updHub fun h => h.freeArea x.eng.ctx (walkOwner x.core)) d
    { d with walks := d.walks.filter fun x => !(x.eng.lid == lid && x.core == core) }.endRoles core lid 0 0) d

/-- A core's walk is finished when R216 holds; the walk completes when every participating core is. -/
def Dev.walkFinish (d : Dev) (core : Nat) : Dev :=
  match (d.core core).walk with
  | none => d
  | some w =>
    if w.st == .running && w.isDone then
      let d := d.setWalk core { w with st := .finished }
      if w.cores.all (d.walkOver w.lid) then d.walkComplete w.lid w.cores else d
    else d

/-- The engine's part of a cycle (R271): it raises what waits, admits every step that may enter, raises their upcalls, then begins the
drains. -/
def Dev.walkAdmit (d : Dev) (core : Nat) : Dev :=
  match (d.core core).walk with
  | none => d
  | some w =>
    if w.st != .running then d
    else
      let d1 := (Dev.admitSteps core 3 (d.raiseUps core)).raiseUps core
      ((Dev.drainAll core 16 d1).raiseUps core).walkFinish core

/-- WALK_STEP_ADMIT (R193, R194, R271); a core. -/
def execWalkStepAdmit (s : State) : Host.Outcome State Fault Refusal :=
  .next (s.onDev fun d => d.walkAdmit d.arg.a)

/-- WALK_DRAW (R192); a core. -/
def execWalkDraw (s : State) : Host.Outcome State Fault Refusal :=
  .next (s.onDev fun d => (d.walkDraw d.arg.a).walkFinish d.arg.a)

/-- Whether a launch's walk has begun to abort. -/
def Dev.aborting (d : Dev) (lid : Nat) : Bool := match d.launch? lid with | some l => l.status == 3 | none => false

/-- The walk, saved on a core, that an abort has still to reach. -/
def Dev.abortSavedDue (d : Dev) (core : Nat) : Option SavedWalk :=
  d.walks.find? fun x => x.core == core && x.abrt.isNone && d.aborting x.eng.lid

/-- Whether an abort has still to reach the live walk of a core. -/
def Dev.abortDue (d : Dev) (core : Nat) : Bool := match (d.core core).walk with | some w => d.aborting w.lid | none => false

/-- WALK_ABORT_REMOTE (R218, R222): an abort reaches another participating core, its live walk or one saved there; a core. -/
def execWalkAbortRemote (s : State) : Host.Outcome State Fault Refusal :=
  .next (s.onDev fun d =>
    let d := match d.abortSavedDue d.arg.a with | some x => d.abortSaved x 8 false | none => d
    if d.abortDue d.arg.a then d.abortWalk d.arg.a 8 0 false else d)

/-! ## WSTALL and WSTAT (R205, R219) -/

/-- Whether the array stalls in this cycle (R205). -/
def WalkEng.stalls (w : WalkEng) : Bool :=
  w.started && w.busy.isNone && w.st == .running &&
  (decide (0 < w.steps) || w.window.any fun s => s.tiles.any fun t => t.st == .complete)

/-- WSTAT of a core (R219). -/
def Core.wstatWord (c : Core) : W64 :=
  match c.walk with
  | none => c.wstat
  | some w =>
    let st := match w.st with
      | .running => if w.stalls then 2 else 1
      | .stopping | .grace => 3
      | .finished => 5
    BitVec.ofNat 64 (st + w.ups.length * 2 ^ 8 + w.openSweeps.length * 2 ^ 20)

/-- WSTALL of a core (R205). -/
def Core.wstallWord (c : Core) : W64 := match c.walk with | some w => w.stall | none => c.wstall

/-! ## Pane and upcall instructions (R206 to R211) -/

/-- The upcall that the warp of the anchor slot serves. -/
def Dev.myUpcall (d : Dev) : Option (WalkEng × Upcall) :=
  match d.warp? d.cur.core d.cur.anchor, (d.core d.cur.core).walk with
  | some w, some e =>
    match w.occ with
    | some n => (e.ups.find? fun u => u.seq == n).map fun u => (e, u)
    | none => none
  | _, _ => none

/-- PARTIALWARP and GRANT (R206). -/
def Dev.upTrap (d : Dev) (whole : Bool) : Option Trap :=
  if whole && !d.wholeWarp then some tPartial
  else if d.allHelpers || d.myUpcall.isNone then some (tGrant 0)
  else none

/-- Pane id of an upcall. -/
def Upcall.pane (u : Upcall) : Nat := bitsOf (nth u.args 0 0).toNat 8 7
/-- Slot of an upcall. -/
def Upcall.slotNo (u : Upcall) : Nat := bitsOf (nth u.args 0 0).toNat 16 4

/-- The pane that a producer upcall was raised for; none when that pane has been freed since, whoever holds its granules now
(R208, R210). -/
def WalkEng.paneOfUp (w : WalkEng) (u : Upcall) : Option Pane :=
  if 2 ≤ u.kind then none
  else w.panes.find? fun p =>
    p.base == u.pane && p.st != .free && p.sweep == u.sweep && p.isB == (u.kind == 1) && p.kstep == (nth u.args 3 0).toNat &&
    p.index == (nth u.args (if u.kind == 1 then 2 else 1) 0).toNat

/-- The pane of a producer upcall of the warp. -/
def Dev.myPane (d : Dev) : Option Pane :=
  match d.myUpcall with
  | some (e, u) => e.paneOfUp u
  | none => none

/-- Reads a pane record or template (R197): the RW fields on a pane. -/
def Pane.install (p : Pane) (t : Nat) : Pane :=
  { p with cols := bitsOf t 48 16, rows := bitsOf t 32 16, scoff := bitsOf t 16 16, hadf := bitsOf t 6 2
           orient := bitsOf t 5 1 == 1, blk := bitsOf t 4 1 == 1, fmt := bitsOf t 0 4 }

/-- Whether a template is refused with PANEGEOM (R207). TRAPADDR is kA for each of the checks; the rule names it at the two
that concern the size only (log 36, DEDUCED). -/
def Pane.badTemplate (p : Pane) (t : Nat) : Bool :=
  let q := p.install t
  let room := p.ngr * 0x1000 - 256
  decide (4 < q.fmt) || q.hadf == 3 || bitsOf t 8 8 != 0 || bitsOf t 82 46 != 0 ||
  (isBlock q.fmt && q.hadf != 0 && q.hadf != (if q.blk then 2 else 1)) || q.rows == 0 || q.cols == 0 || decide (room < q.codeBytes) ||
  (isBlock q.fmt && (q.scoff % 2 == 1 || decide (q.scoff < q.codeBytes) || decide (room * q.bl < q.scoff * q.bl + 2 * q.rows * q.cols)))

/-- PRES (R207). -/
def execPres (o : K1Op) (s : State) : Host.Outcome State Fault Refusal :=
  s.run (.pres o) fun d =>
    let a := d.readK o.ka.toNat
    match d.upTrap true with
    | some t => d.trapAll t
    | none =>
      match d.myPane.filter fun p => p.st == .reserved with
      | none => d.trapAll (tGrant 0)
      | some p =>
        if a.toNat % 16 != 0 || !canonical a then d.trapAll (tAlign a)
        else
          let t := d.translate d.cur.core d.grp.ctx (a.setWidth 48).toNat 1
          match t.1 with
          | .error u => t.2.trapAll { cause := 5, acc := 0, addr := a, units := [u] }
          | .ok pa =>
            let r := MemSys.loadBytes d.cur.core 16 pa t.2.ms
            let d := { t.2 with ms := r.2 }
            if p.badTemplate (leVal r.1) then d.trapAll { cause := 10, addr := a }
            else (d.updWalk d.cur.core fun w => w.updPane p.base fun p => p.install (leVal r.1)).advUni o.stl

/-- A pane becomes filled; under EPI 1 the NORM upcall of a pane of the last k-step waits to be raised (R201, R210). -/
def WalkEng.fillPane (w : WalkEng) (p : Pane) : WalkEng :=
  if p.st != .reserved then w
  else
    let q := { p with st := .filled }
    let w := w.updPane p.base fun _ => q
    if w.rcd.epi == 1 && p.kstep + 1 == w.rcd.ks then { w with raise := w.raise ++ [w.rcd.upNorm q] } else w

/-- Whether a live copy of the context touches the pane or slot of the warp's upcall (R291). -/
def Dev.upTouched (d : Dev) : Bool :=
  match d.myUpcall with
  | none => false
  | some (e, u) =>
    if u.kind < 2 then
      match e.paneOfUp u with
      | some p => d.copyTouches d.grp.ctx d.cur.core p.at_ (p.ngr * 0x1000)
      | none => false
    else if u.kind == 3 then false
    else d.copyTouches d.grp.ctx d.cur.core (accAt u.slotNo) 0x4000

/-- PREL (R208, R291). -/
def execPrel (o : K1Op) (s : State) : Host.Outcome State Fault Refusal :=
  s.run (.prel o) fun d =>
    let n := (d.readK o.ka.toNat).toNat % 128
    match d.upTrap true with
    | some t => d.trapAll t
    | none =>
      match d.myPane.filter fun p => p.st == .reserved && p.base == n with
      | none => d.trapAll (tGrant 0)
      | some p =>
        if d.upTouched then d.hold
        else ((d.release d.cur.core Scope.core).updWalk d.cur.core fun w => w.fillPane p).advUni o.stl

/-- PSCL (R209). -/
def execPscl (o : K2Op) (s : State) : Host.Outcome State Fault Refusal :=
  s.run (.pscl o) fun d =>
    let n := (d.readK o.ka.toNat).toNat % 128
    match (d.walkOf d.grp.ctx d.cur.core).bind fun w => w.panes.find? fun p => p.base == n && p.st != .free with
    | none => d.trapAll (tGrant 0)
    | some p =>
      (d.oweK o.kd.toNat (BitVec.ofNat 64 (p.base * 0x1000 + p.scoff + ((p.base + p.ngr) * 0x1000 - 256) * 2 ^ 32))).advUni o.stl

/-- What the return of an upcall does in the engine (R210). -/
def WalkEng.returned (w : WalkEng) (u : Upcall) : WalkEng :=
  let w := { w with ups := w.ups.filter fun v => v.seq != u.seq }
  if u.kind < 2 then
    match w.paneOfUp u with
    | some p => w.fillPane p
    | none => w
  else if u.kind == 2 then
    let tile (t : Tile) : Tile := if t.slot == u.slotNo && t.st == .init then { t with st := .acc 0 } else t
    { w with window := updWhere (fun s => s.index == u.sweep) (fun s => { s with tiles := s.tiles.map tile }) w.window }
  else if u.kind == 3 then w.updPane u.pane fun p => { p with normed := true }
  else { w with slots := w.slots.filter (· != u.slotNo), tops := w.tops.filter fun t => t.2 != u.slotNo }

/-- UPRET (R210, R253, R291). -/
def execUpret (o : NulOp) (s : State) : Host.Outcome State Fault Refusal :=
  s.run (.upret o) fun d =>
    let trap := d.upTrap true
    if trap.isNone && d.upTouched then d.hold
    else d.closing o.stl (fun _ => trap) fun d =>
      match d.myUpcall with
      | none => d
      | some (_, u) =>
        (((d.release d.cur.core Scope.core).updWarp d.cur.core d.cur.anchor fun w => { w with occ := none }).updWalk d.cur.core
          fun w => w.returned u).walkFinish d.cur.core

/-- UPFAIL (R211, R253). -/
def execUpfail (o : K1Op) (s : State) : Host.Outcome State Fault Refusal :=
  s.run (.upfail o) fun d => d.closing o.stl (fun d => d.upTrap false) fun d =>
    d.abortWalk d.cur.core 2 ((d.readK o.ka.toNat).toNat % 2 ^ 32) true

end Sys2Proof.Machine
end

