-- ==== Sys2Proof/Machine/System.lean ====
section
/-! DEFINITION. The system instructions (10: R255 to R262) and the special registers (01: R32 to R36). -/

namespace Sys2Proof.Machine

/-! ## Special registers (R32) -/

/-- Who holds a special register. -/
inductive Held where
  | fibre | warp | group | core
  deriving DecidableEq, Repr

/-- An entry of the table of R32: owner, whether SWR may write it, and the bits a written value must not set. -/
structure Spr where
  held : Held
  rw : Bool
  res0 : W64
  deriving DecidableEq, Repr

/-- The table of R32, with the res0 bits of R31, R34, R35, R167 and R261. -/
def sprOf (n : Nat) : Option Spr :=
  let ro (h : Held) : Option Spr := some ⟨h, false, 0⟩
  let all : W64 := BitVec.allOnes 64
  if n ≤ 4 then ro .fibre
  else if n ≤ 7 then ro .group
  else if n ≤ 9 then ro .core
  else if n == 0x10 || n == 0x11 then ro .fibre
  else if n == 0x18 then some ⟨.fibre, true, all <<< 3⟩
  else if n == 0x19 then some ⟨.group, true, all <<< 2⟩
  else if 0x20 ≤ n ∧ n ≤ 0x22 then some ⟨.fibre, true, all <<< 32⟩
  else if (0x24 ≤ n ∧ n ≤ 0x26) ∨ (0x28 ≤ n ∧ n ≤ 0x2A) then some ⟨.fibre, true, 3⟩
  else if n == 0x30 then ro .warp
  else if n == 0x31 then some ⟨.warp, true, all <<< 16⟩
  else if n == 0x38 then ro .fibre
  else if n == 0x39 then some ⟨.fibre, true, 3⟩
  else if 0x3A ≤ n ∧ n ≤ 0x3F then ro .fibre
  else if n == 0x40 then some ⟨.group, true, 3⟩
  else if 0x48 ≤ n ∧ n ≤ 0x4A then ro .fibre
  else if 0x50 ≤ n ∧ n ≤ 0x53 then ro .core
  else none

/-- A per-fibre special register. -/
def Fibre.spr (f : Fibre) (n : Nat) : W64 :=
  match n with
  | 0x00 => BitVec.ofNat 64 (f.warpid * 32 + f.lane)
  | 0x01 => f.homelane
  | 0x02 => BitVec.ofNat 64 (f.lane / 4)
  | 0x03 => BitVec.ofNat 64 (f.slot * 32 + f.lane)
  | 0x04 => BitVec.ofNat 64 f.warpid
  | 0x10 => BitVec.ofNat 64 f.winbase
  | 0x11 => BitVec.ofNat 64 f.win.length
  | 0x18 => f.fpctl
  | 0x20 => f.lp0.count.setWidth 64
  | 0x21 => f.lp1.count.setWidth 64
  | 0x22 => f.lp2.count.setWidth 64
  | 0x24 => sext48 f.lp0.start
  | 0x25 => sext48 f.lp1.start
  | 0x26 => sext48 f.lp2.start
  | 0x28 => sext48 f.lp0.last
  | 0x29 => sext48 f.lp1.last
  | 0x2A => sext48 f.lp2.last
  | 0x38 => f.trapcause
  | 0x39 => f.trappc
  | 0x3A => f.trapaddr
  | 0x3B => f.ilenc
  | 0x3C => f.ilf0
  | 0x3D => f.ilf1
  | 0x3E => f.ilf2
  | 0x3F => f.ilf3
  | 0x48 => f.rec_
  | 0x49 => f.repc
  | 0x4A => f.mdone
  | _ => 0

/-- Writes a per-fibre special register; the value has no res0 bit (R261). -/
def Fibre.setSpr (f : Fibre) (n : Nat) (v : W64) : Fibre :=
  let a : Addr48 := v.setWidth 48
  match n with
  | 0x18 => { f with fpctl := v }
  | 0x20 => { f with lp0 := { f.lp0 with count := v.setWidth 32 } }
  | 0x21 => { f with lp1 := { f.lp1 with count := v.setWidth 32 } }
  | 0x22 => { f with lp2 := { f.lp2 with count := v.setWidth 32 } }
  | 0x24 => { f with lp0 := { f.lp0 with start := a } }
  | 0x25 => { f with lp1 := { f.lp1 with start := a } }
  | 0x26 => { f with lp2 := { f.lp2 with start := a } }
  | 0x28 => { f with lp0 := { f.lp0 with last := a } }
  | 0x29 => { f with lp1 := { f.lp1 with last := a } }
  | 0x2A => { f with lp2 := { f.lp2 with last := a } }
  | 0x39 => { f with trappc := sext48 a }
  | _ => f

/-- PERFLVL of a context (R399): the lowest grant over the clusters where it has resident groups, or 0. -/
def Dev.perflvl (d : Dev) (ctx : Nat) : Nat :=
  let gs := (d.groups.filter fun g => g.ctx == ctx).map fun g => (d.cluster (clusterOf g.core)).grant
  (minBy id gs).getD 0

/-- A special register as the batch's fibre reads it (R32, R260). -/
def Dev.spr (d : Dev) (f : Fibre) (n : Nat) : W64 :=
  let g := d.grp
  let c := d.core d.cur.core
  match n with
  | 0x05 => BitVec.ofNat 64 g.groupid
  | 0x06 => BitVec.ofNat 64 g.teamid
  | 0x07 => g.launchid.setWidth 64
  | 0x08 => BitVec.ofNat 64 d.cur.core
  | 0x09 => BitVec.ofNat 64 (clusterOf d.cur.core)
  | 0x19 => g.gctl
  | 0x30 => ((d.warp? f.core f.slot).map Warp.pendWord).getD 0
  | 0x31 => ((d.warp? f.core f.slot).map fun w => w.evmask.setWidth 64).getD 0
  | 0x40 => g.uhv
  | 0x50 => BitVec.ofNat 64 (d.pass d.cur.core)
  | 0x51 => BitVec.ofNat 64 (d.perflvl g.ctx)
  | 0x52 => c.wstatWord
  | 0x53 => c.wstallWord
  | _ => f.spr n

/-- The failing field of a special register check (R32, R74). -/
def sprReject : Reject := ⟨6, 4, 10⟩

/-- SRD (R260): a number that is no register is ILLEGAL in every fibre. -/
def execSrd (o : SrOp) (s : State) : Host.Outcome State Fault Refusal :=
  .next (s.onDev fun d =>
    let n := o.spr.toNat
    d.guardWith (.srd o) (fun _ => if (sprOf n).isNone then some sprReject else none) fun d =>
      if o.dk == 1 then
        let v := match (d.active.filter fun f => f.slot == d.cur.anchor || (sprOf n).map Spr.held != some Held.warp).head? with
          | some f => d.spr f n
          | none => 0
        (d.oweK (o.reg.setWidth 6).toNat v).advUni o.stl
      else (d.updActive fun f => (landV f (.v o.reg.toNat)).owe o.reg.toNat (d.spr f n) (BitVec.allOnes 64)).advUni o.stl)

/-- The value that a SWR of the batch writes for a fibre. -/
def Dev.swrVal (d : Dev) (o : SrOp) (f : Fibre) : W64 :=
  if o.dk == 1 then d.readK (o.reg.setWidth 6).toNat else d.readV f o.reg.toNat

/-- Whether a SWR is ILLEGAL (R261): no such register, a read-only one, or a res0 bit in some fibre's value. -/
def Dev.swrBad (d : Dev) (o : SrOp) : Bool :=
  match sprOf o.spr.toNat with
  | none => true
  | some r => !r.rw || d.active.any fun f => d.swrVal o f &&& r.res0 != 0

/-- Writes a group's special register. -/
def Group.setSpr (g : Group) (n : Nat) (v : W64) : Group :=
  if n == 0x19 then { g with gctl := v } else { g with uhv := sext48 (v.setWidth 48) }

/-- The active fibre with the highest home lane that satisfies `p`. -/
def Dev.lastActive (d : Dev) (p : Fibre → Bool) : Option Fibre := (d.active.filter p).getLast?

/-- What a SWR writes (R261). -/
def Dev.swr (d : Dev) (o : SrOp) (r : Spr) : Dev :=
  let n := o.spr.toNat
  match r.held with
  | .fibre => d.updActive fun f => f.setSpr n (d.swrVal o f)
  | .warp => d.slotsOf.foldl (fun e s =>
      match d.lastActive fun f => f.slot == s with
      | some f => e.updWarp d.cur.core s fun w => { w with evmask := (d.swrVal o f).setWidth 16 }
      | none => e) d
  | .group =>
    match d.lastActive fun _ => true with
    | some f => d.updGroup d.cur.gid fun g => g.setSpr n (d.swrVal o f)
    | none => d
  | .core => d

/-- SWR (R261). -/
def execSwr (o : SrOp) (s : State) : Host.Outcome State Fault Refusal :=
  .next (s.onDev fun d =>
    d.guardWith (.swr o) (fun _ => if d.swrBad o then some sprReject else none) fun d =>
      match sprOf o.spr.toNat with
      | some r => (d.swr o r).advUni o.stl
      | none => d)

/-! ## TRAP, BKPT, HALT (R256, R259) -/

/-- TRAP (R256). -/
def execTrap (o : KTrapOp) (s : State) : Host.Outcome State Fault Refusal :=
  s.run (.trap o) fun d => d.trapAll { cause := 16, code := o.imm.toNat }

/-- BKPT (R256). -/
def execBkpt (o : NulOp) (s : State) : Host.Outcome State Fault Refusal :=
  s.run (.bkpt o) fun d => d.trapAll { cause := 17 }

/-- HALT (R259). -/
def execHalt (o : NulOp) (s : State) : Host.Outcome State Fault Refusal :=
  s.run (.halt o) fun d => d.trapAll { cause := 18 }

/-! ## Return and masking (R257, R258) -/

/-- Ends the mask of the warps of the batch. -/
def Dev.unmask (d : Dev) : Dev := d.slotsOf.foldl (fun d s => d.updWarp d.cur.core s fun w => { w with masked := false }) d

/-- RETURN FROM A TRAP, TRET (R257): the masks of the batch's warps end, and each fibre goes on at its TRAPPC. -/
def execTret (o : NulOp) (s : State) : Host.Outcome State Fault Refusal :=
  s.run (.tret o) fun d =>
    d.split (fun f => if badTarget f.trappc then some (tAlign f.trappc) else none) fun d =>
      d.unmask.transfer o.stl false fun f => some (f.trappc.setWidth 48)

/-- The mask budget of a context (R258). -/
def Dev.tmbOf (d : Dev) (ctx : Nat) : Nat :=
  let t := ((d.hub.ctx? ctx).map Ctx.tmb).getD 0
  if t == 0 then 50000 else t

/-- TMASK (R258). -/
def execTmask (o : NulOp) (s : State) : Host.Outcome State Fault Refusal :=
  s.run (.tmask o) fun d =>
    let n := d.tmbOf d.grp.ctx
    let mask (w : Warp) : Warp := if w.masked then w else { w with masked := true, budget := n }
    (d.slotsOf.foldl (fun d s => d.updWarp d.cur.core s mask) d).advUni o.stl

/-- TUNMASK (R258). -/
def execTunmask (o : NulOp) (s : State) : Host.Outcome State Fault Refusal :=
  s.run (.tunmask o) fun d => d.unmask.advUni o.stl

/-! ## RGN and SETPERF (R252, R262) -/

/-- RGN (R252). -/
def execRgn (o : NulOp) (s : State) : Host.Outcome State Fault Refusal :=
  s.run (.rgn o) fun d => if d.active.any fun f => f.late.isSome then d.hold else d.advClose o.stl

/-- SETPERF (R262). -/
def execSetperf (o : K1Op) (s : State) : Host.Outcome State Fault Refusal :=
  s.run (.setperf o) fun d => (d.askPerf (d.readK o.ka.toNat).toNat).advUni o.stl

end Sys2Proof.Machine
end

