-- ==== Sys2Proof/Machine/Recursion.lean ====
section
/-! DEFINITION. The unfolding engine and its instructions (09: R224 to R241, 13: R275, R276). -/

namespace Sys2Proof.Machine

/-! ## Frames (R225 to R227) -/

/-- Bytes of a frame. -/
def RecEng.fs (r : RecEng) : Nat := 64 + r.fsize

/-- Offset of breadth-region frame `n`. -/
def RecEng.at_ (r : RecEng) (n : Nat) : Nat := r.abase + 0x140 + n * r.fs

/-- Writes the header of a new frame. -/
def Dev.newFrame (d : Dev) (core off arg parent fid cidx depth : Nat) : Dev :=
  d.onchipPut core off (leBytes 8 arg ++ leBytes 8 0 ++ leBytes 4 parent ++ leBytes 4 fid ++ leBytes 1 0 ++ leBytes 1 cidx ++
    leBytes 1 depth ++ leBytes 1 0 ++ leBytes 4 0 ++ leBytes 32 0)

/-- NCH of a frame. -/
def Dev.nch (d : Dev) (core off : Nat) : Nat := d.spad core (off + 0x18) 1
/-- FLG of a frame. -/
def Dev.flg (d : Dev) (core off : Nat) : Nat := d.spad core (off + 0x1B) 1

/-- Sets bits of FLG. -/
def Dev.setFlg (d : Dev) (core off bits : Nat) : Dev := d.onchipPut core (off + 0x1B) (leBytes 1 (d.flg core off ||| bits))

/-- Creates the children of a frame next to each other from `first` on, with ids from `fid` on (R226, R227). -/
def Dev.newKids (d : Dev) (core fs off first fid : Nat) : Dev :=
  let n := d.nch core off
  let depth := d.spad core (off + 0x1A) 1 + 1
  let d := (List.range n).foldl (fun d i =>
    d.newFrame core (first + i * fs) (d.spad core (off + 0x20 + 8 * i) 8) off (fid + i) i depth) d
  if n == 0 then d else d.onchipPut core (off + 0x1C) (leBytes 4 first)

/-- The engine's state with the arena header read back (R228, R241). -/
def RecEng.reload (r : RecEng) (h : List Byte) : RecEng :=
  let lane (p : RecLane × Nat) : RecLane :=
    { p.1 with frame := if p.1.run.isSome then fieldOf h (0x40 + 4 * p.2) 4 else p.1.frame, top := fieldOf h (0xC0 + 4 * p.2) 4 }
  { r with
    stage := fieldOf h 0 1, level := fieldOf h 1 1, swlvl := fieldOf h 2 1, nbr := fieldOf h 4 4, btop := fieldOf h 8 4
    stk := fieldOf h 0xC 4, swfirst := fieldOf h 0x10 4, swn := fieldOf h 0x14 4, obj := fieldOf h 0x18 4, ls := r.ls.zipIdx.map lane }

/-! ## Phases (R229 to R231) -/

/-- Replaces the recursion of a core. -/
def Dev.setRec (d : Dev) (core : Nat) (r : RecEng) : Dev := d.updCore core fun c => { c with rec_ := some r }

/-- The engine of an idle lane. -/
def RecLane.idle : RecLane := { run := none, frame := 0, next := [], top := 0, pushed := 0 }

/-- Gives lanes their routine starts; `work l` is what lane `l` starts. -/
def RecEng.give (r : RecEng) (work : Nat → List (Routine × Nat)) : RecEng :=
  { r with ls := r.ls.zipIdx.map fun p => { p.1 with next := work p.2 } }

/-- The recursion ends (R234). -/
def Dev.recEnd (d : Dev) (core : Nat) (r : RecEng) : Dev :=
  (((d.recHeader core r 4 0).recLeave core r fun _ => true).acquire core Scope.core).updCore core fun c => { c with rec_ := none }

/-- Frames of a level that combine: those with children (R231). -/
def Dev.combines (d : Dev) (core : Nat) (r : RecEng) (level : Nat) : List (Nat × Nat) :=
  let lv := nth r.levels level (0, 0)
  ((List.range lv.2).map fun i => (i, r.at_ (lv.1 + i))).filter fun x => d.nch core x.2 != 0 && bitsOf (d.flg core x.2) 0 1 == 0

/-- The combine phase from below level `n` on (R231): the highest level with something to combine, else the end. -/
def Dev.recCombine (core : Nat) : Nat → Dev → RecEng → Dev
  | 0, d, r => d.recEnd core r
  | n + 1, d, r =>
    match d.combines core r n with
    | [] => recCombine core n d r
    | fs => d.setRec core
        { (r.give fun l => (fs.filter fun x => x.1 == l).map fun x => (.combine, x.2)) with level := n, openN := fs.length }

/-- The combine phase begins with levels below `top` (R228, R231); its header shows the frames of the first level that combines. -/
def Dev.recFold (d : Dev) (core : Nat) (r : RecEng) (top : Nat) : Dev :=
  let d := Dev.recCombine core top d { r with stage := 3, level := top - 1 }
  match (d.core core).rec_ with
  | some r => d.recHeader core r 3 0
  | none => d

/-- The switch-over at the current level (R225, R230). -/
def Dev.recSwitch (d : Dev) (core : Nat) (r : RecEng) : Dev :=
  let lv := nth r.levels r.level (0, 0)
  let stk := (r.abase + r.asize - r.btop) / (r.lanes * r.fs) * r.fs
  let r := { r with stage := 2, swlvl := r.level, swfirst := lv.1, swn := lv.2, stk := stk }
  let mine (l : Nat) : List (Routine × Nat) :=
    ((List.range lv.2).filter fun i => decide (l * lv.2 / r.lanes ≤ i) && decide (i < (l + 1) * lv.2 / r.lanes)).map fun i =>
      (.divide, r.at_ (lv.1 + i))
  let r := r.give mine
  let r := { r with ls := r.ls.zipIdx.map fun p => { p.1 with top := r.btop + p.2 * stk, pushed := 0 } }
  (d.recHeader core r 2 0).setRec core r

/-- The engine examines the current level (R229). -/
def Dev.recLevel (d : Dev) (core : Nat) (r : RecEng) : Dev :=
  let lv := nth r.levels r.level (0, 0)
  if r.lanes ≤ lv.2 then d.recSwitch core r
  else if lv.2 == 0 then d.recFold core r r.level
  else d.setRec core { (r.give fun l => if l < lv.2 then [(.divide, r.at_ (lv.1 + l))] else []) with openN := lv.2, staged := 0 }

/-- Creates the next level from the current one, and examines it (R229). -/
def Dev.recGrow (d : Dev) (core : Nat) (r : RecEng) : Dev :=
  let lv := nth r.levels r.level (0, 0)
  let step (x : Dev × Nat) (i : Nat) : Dev × Nat :=
    let off := r.at_ (lv.1 + i)
    let n := x.1.nch core off
    (x.1.newKids core r.fs off (r.at_ x.2) x.2, x.2 + n)
  let x := (List.range lv.2).foldl step (d, r.nbr)
  let r := { r with levels := r.levels ++ [(r.nbr, x.2 - r.nbr)], level := r.level + 1, nbr := x.2, btop := r.at_ x.2 }
  x.1.recLevel core r

/-- Whether every lane is idle. -/
def RecEng.allIdle (r : RecEng) : Bool := r.ls.all fun l => l.run.isNone && l.next.isEmpty

/-- What follows when a routine has ended (R229 to R231). -/
def Dev.recNext (d : Dev) (core : Nat) (r : RecEng) : Dev :=
  if r.stage == 1 then (if r.openN == 0 then d.recGrow core r else d.setRec core r)
  else if r.stage == 2 then (if r.allIdle then d.recFold core r r.swlvl else d.setRec core r)
  else if r.openN == 0 then Dev.recCombine core r.level d r
  else d.setRec core r

/-! ## Starts of routines (R233) -/

/-- The address of a routine. -/
def RecEng.entry (r : RecEng) : Routine → Addr48
  | .divide => r.div
  | .base => r.bas
  | .combine => r.comb

/-- The recursion's lane of a fibre, if the fibre is one. -/
def Dev.recOf (d : Dev) (f : Fibre) : Option (RecEng × RecLane) :=
  (d.core f.core).rec_.bind fun r => if f.slot == r.slot && !r.saved then (r.ls[f.lane]?).map fun l => (r, l) else none

/-- Whether the engine can start a routine on a fibre's lane. -/
def Dev.startReady (d : Dev) (f : Fibre) : Bool :=
  f.wait == .recur && !f.trapped && f.late.isNone && d.isRunning f &&
  match d.recOf f with | some (_, l) => l.run.isNone && !l.next.isEmpty | none => false

/-- Starts the next routine of a lane (R233, R275): every outstanding write of its fibre has arrived. -/
def Dev.recStartLane (d : Dev) (core lane : Nat) : Dev :=
  match d.fibres.find? fun f => f.core == core && f.lane == lane && d.startReady f with
  | none => d
  | some f =>
    match d.recOf f with
    | some (r, l) =>
      match l.next with
      | [] => d
      | (k, off) :: rest =>
        let pc := r.entry k
        let arg : W64 := BitVec.ofNat 64 (d.spad core (off + 0) 8)
        let n : W64 := if k == .combine then BitVec.ofNat 64 (d.nch core off) else 0
        let go (f : Fibre) : Fibre :=
          let f := f.landAll
          { f.release pc d.cycle (cohortAt d.cycle pc 4) with
            win := ((f.win.set 0 (BitVec.ofNat 64 off)).set 1 arg).set 2 n, infl := [] }
        (d.updFibre core r.slot lane go).setRec core
          { r with ls := r.ls.set lane { l with run := some k, frame := off, next := rest } }
    | none => d

/-- ROUTINE_START (R233); a core, b lane. -/
def execRoutineStart (s : State) : Host.Outcome State Fault Refusal :=
  .next (s.onDev fun d => d.recStartLane d.arg.a d.arg.b)

/-! ## RECUR (R236) -/

/-- A recursion object (R224). -/
structure RecObj where
  div : W64
  bas : W64
  comb : W64
  root : W64
  abase : Nat
  asize : Nat
  fsize : Nat
  cmax : Nat
  dmax : Nat
  lanes : Nat
  ver : Nat
  res0 : Nat
  deriving DecidableEq, Repr

/-- Reads an object from its 64 bytes. -/
def recObj (b : List Byte) : RecObj :=
  let w (o : Nat) : W64 := BitVec.ofNat 64 (fieldOf b o 8)
  { div := w 0, bas := w 8, comb := w 0x10, root := w 0x18, abase := fieldOf b 0x20 4, asize := fieldOf b 0x24 4
    fsize := fieldOf b 0x28 2, cmax := fieldOf b 0x2A 1, dmax := fieldOf b 0x2B 1, lanes := fieldOf b 0x2C 1
    ver := fieldOf b 0x2D 1, res0 := fieldOf b 0x2E 18 }

/-- The offset of the first field that fails the checks of R236 which need nothing but the object, in its order. -/
def RecObj.badField (o : RecObj) : Option Nat :=
  if o.ver != 1 then some 0x2D
  else if o.res0 != 0 then some 0x2E
  else if o.cmax == 0 || 4 < o.cmax then some 0x2A
  else if 63 < o.dmax then some 0x2B
  else if o.lanes == 0 || 32 < o.lanes then some 0x2C
  else if o.fsize % 16 != 0 || 4032 < o.fsize then some 0x28
  else if o.abase % 64 != 0 then some 0x20
  else if o.asize % 64 != 0 then some 0x24
  else if badTarget o.div then some 0
  else if badTarget o.bas then some 8
  else if badTarget o.comb then some 0x10
  else none

/-- The trap of a RECUR with an operand (R236), PARTIALWARP aside. An arena outside the extents or over the object is reported
at the offset of ABASE, 0x20; the rule leaves open whether ABASE or ASIZE is the failing field (log 38, DESIGN CHOICE). -/
def Dev.recurTrap (d : Dev) (g : Group) (off : Nat) : Option Trap :=
  let at_ (o : Nat) : W64 := BitVec.ofNat 64 (off + o)
  if off % 64 != 0 then some (tAlign (at_ 0))
  else if !d.mayTouch g g.core off then some (tGrant (at_ 0))
  else
    let o := recObj (leBytes 64 (d.spad g.core off 64))
    match o.badField with
    | some x => some (tGrant (at_ x))
    | none =>
      if 0x80000 < o.abase + o.asize || !d.mayTouchRange g g.core o.abase o.asize || overlaps o.abase o.asize off 64 then
        some (tGrant (at_ 0x20))
      else if (List.range o.lanes).any fun l =>
          match d.fibre? g.core d.cur.anchor l with | some f => f.helper | none => true then
        some (tGrant (at_ 0x2C))
      else if o.asize < 0x140 + 64 + o.fsize then some { cause := 9, addr := at_ 0 }
      else none

/-- Starts a recursion of the warp in a slot (R229, R236): the header, frame 0, and the breadth phase. -/
def Dev.recBegin (d : Dev) (core gid slot off : Nat) (o : RecObj) (recurPc : Addr48) : Dev :=
  let r : RecEng :=
    { gid := gid, slot := slot, obj := off, div := o.div.setWidth 48, bas := o.bas.setWidth 48, comb := o.comb.setWidth 48
      abase := o.abase, asize := o.asize, fsize := o.fsize, cmax := o.cmax, dmax := o.dmax, lanes := o.lanes, recurPc := recurPc
      stage := 1, level := 0, swlvl := 0xFF, nbr := 1, btop := o.abase + 0x140 + 64 + o.fsize, stk := 0, swfirst := 0, swn := 0
      levels := [(0, 1)], staged := 0, openN := 0, saved := false, ls := List.replicate o.lanes RecLane.idle }
  let park (f : Fibre) : Fibre := { f with wait := .recur, pc := recurPc, cohort := 0 }
  let first := r.give fun l => if l == 0 then [(.divide, r.at_ 0)] else []
  let d := (d.recHeader core first 1 0).newFrame core (r.at_ 0) o.root.toNat 0xFFFFFFFF 0 0 0
  (d.updFibres (fun f => f.core == core && f.slot == slot) park).recLevel core r

/-- RECUR (R236): after a restore it joins the live recursion of its warp (R241); else it waits while the engine is busy. -/
def execRecur (o : K1Op) (s : State) : Host.Outcome State Fault Refusal :=
  s.run (.recur o) fun d =>
    let g := d.grp
    let off := bitsOf (d.readK o.ka.toNat).toNat 0 19
    let busy := (d.core g.core).rec_
    let joins (r : RecEng) : Bool :=
      r.gid == g.gid && !r.saved && d.cur.members.all fun m => m.1 == r.slot && r.away.contains m.2
    match busy.filter joins with
    | some r =>
      (d.updActive fun f => { f with wait := .recur, cohort := 0 }).setRec g.core
        { r with away := r.away.filter fun l => !d.cur.members.any fun m => m.2 == l }
    | none =>
    if !d.wholeWarp then d.trapAll tPartial
    else match d.recurTrap g off with
      | some t => d.trapAll t
      | none =>
        if busy.isSome then d.hold
        else d.recBegin g.core g.gid d.cur.anchor off (recObj (leBytes 64 (d.spad g.core off 64))) d.cur.pc

/-! ## Ends of routines (R232) -/

/-- A lane's routine has ended: its fibre waits for the engine at RECUR (R241, R275). -/
def Dev.recPark (d : Dev) (core slot lane : Nat) (pc : Addr48) : Dev :=
  d.updFibre core slot lane fun f => { f with wait := .recur, pc := pc, cohort := 0 }

/-- The lane `l` of a recursion, idle, with more to start. -/
def RecEng.doneLane (r : RecEng) (l : Nat) (x : RecLane) (more : List (Routine × Nat)) : RecEng :=
  { r with ls := r.ls.set l { x with run := none, next := more ++ x.next } }

/-- Divide ended with children (R229, R230, R232). -/
def Dev.endDivide (d : Dev) (core lane : Nat) (r : RecEng) (x : RecLane) : Dev :=
  let d := (d.setFlg core x.frame 2).recPark core r.slot lane r.recurPc
  if r.stage == 1 then d.recNext core { (r.doneLane lane x []) with openN := r.openN - 1 }
  else
    let n := d.nch core x.frame
    let d := d.newKids core r.fs x.frame x.top (0x80000000 + lane * 2 ^ 24 + x.pushed)
    let kids := (List.range n).map fun i => (Routine.divide, x.top + i * r.fs)
    d.setRec core (r.doneLane lane { x with top := x.top + n * r.fs, pushed := x.pushed + n } (kids ++ [(.combine, x.frame)]))

/-- Divide ended as base: base runs at once on the same frame (R232). -/
def Dev.endBase (d : Dev) (core lane : Nat) (r : RecEng) (x : RecLane) : Dev :=
  ((d.setFlg core x.frame 3).recPark core r.slot lane r.recurPc).setRec core (r.doneLane lane x [(.base, x.frame)])

/-- Base or combine ended (R229 to R232). -/
def Dev.endResult (d : Dev) (core lane : Nat) (r : RecEng) (x : RecLane) : Dev :=
  let d := (d.setFlg core x.frame 4).recPark core r.slot lane r.recurPc
  let x := if r.stage == 2 && x.run == some .combine then { x with top := d.spad core (x.frame + 0x1C) 4 } else x
  let r := r.doneLane lane x []
  d.recNext core (if r.stage == 2 then r else { r with openN := r.openN - 1 })

/-! ## RCHILD, RBASE, RRES, RARG (R237, R238) -/

/-- Whether a body offset and its 8 bytes are refused. -/
def RecEng.badBody (r : RecEng) (k : W64) : Bool := bitsOf k.toNat 0 3 != 0 || r.fsize < bitsOf k.toNat 0 16 + 8

/-- Whether a child more would not fit (R237). -/
def Dev.noRoom (d : Dev) (core lane : Nat) (r : RecEng) (x : RecLane) : Bool :=
  if r.stage == 1 then decide (r.abase + r.asize < r.btop + (r.staged + 1) * r.fs)
  else decide (r.btop + (lane + 1) * r.stk < x.top + (d.nch core x.frame + 1) * r.fs)

/-- The trap of a RCHILD in a fibre (R237). -/
def Dev.rchildTrap (d : Dev) (k : W64) (f : Fibre) : Option Trap :=
  match d.recOf f with
  | none => some (tGrant 0)
  | some (r, x) =>
    let fid : W64 := BitVec.ofNat 64 (d.spad f.core (x.frame + 0x14) 4)
    if x.run != some .divide then some (tGrant 0)
    else if r.badBody k then some (tAlign k)
    else if d.nch f.core x.frame == r.cmax then some (tGrant 0)
    else if d.spad f.core (x.frame + 0x1A) 1 == r.dmax then some { cause := 8, addr := fid }
    else if d.noRoom f.core f.lane r x then some { cause := 9, addr := fid }
    else none

/-- Stages a child of a fibre's frame; LAST ends its divide (R237). -/
def Dev.rchild (d : Dev) (k : W64) (f : Fibre) : Dev :=
  match d.recOf f with
  | none => d
  | some (r, x) =>
    let n := d.nch f.core x.frame
    let v := d.spad f.core (x.frame + 0x40 + bitsOf k.toNat 0 16) 8
    let d := (d.onchipPut f.core (x.frame + 0x20 + 8 * n) (leBytes 8 v)).onchipPut f.core (x.frame + 0x18) (leBytes 1 (n + 1))
    let r := if r.stage == 1 then { r with staged := r.staged + 1 } else r
    let d := d.setRec f.core r
    if k.getLsbD 16 then d.endDivide f.core f.lane r x else d

/-- RCHILDs of a batch in home-lane order: the traps, and the device after the others. -/
def Dev.rchildAll (k : W64) : List Fibre → Dev → List ((Nat × Nat) × Trap) × Dev
  | [], d => ([], d)
  | f :: l, d =>
    match d.rchildTrap k f with
    | some t => let r := rchildAll k l d; (((f.slot, f.lane), t) :: r.1, r.2)
    | none => rchildAll k l (d.rchild k f)

/-- Runs a routine instruction over the batch: traps in the fibres that fail, the effect in the others (R235), which go on
unless the instruction ended their routine. RECDEPTH and RECARENA abort the recursion, with TRAPPC after RECUR (R239). A fibre of the same
batch that traps GRANT then has TRAPPC at its own instruction and does not continue after RECUR (log 38, DEDUCED). -/
def Dev.recEach (d : Dev) (stl : BitVec 2) (ends : Bool) (run : List Fibre → Dev → List ((Nat × Nat) × Trap) × Dev) : Dev :=
  if d.active.any fun f => f.late.isSome then d.hold
  else
    let core := d.cur.core
    let x := run d.active d
    let ts := x.1
    let fatal := (ts.find? fun t => t.2.cause == 8 || t.2.cause == 9).map fun t => if t.2.cause == 8 then 1 else 2
    let hit (f : Fibre) : Option Trap := if f.core == core then (ts.find? fun p => p.1 == (f.slot, f.lane)).map Prod.snd else none
    let members := d.cur.members.filter fun m => ts.all fun p => p.1 != m
    match fatal, (d.core core).rec_ with
    | some cause, some r =>
      let at_ (f : Fibre) : Addr48 := match hit f with
        | some t => if t.cause == 8 || t.cause == 9 then r.recurPc + 4 else f.pc
        | none => f.pc
      let d2 := x.2.deliver hit at_
      d2.recAbort core ((d2.core core).rec_.getD r) cause fun f => (hit f).isNone
    | _, _ =>
      let go (d : Dev) : Dev := if ends then d else { ({ d with cur := { d.cur with members := members } }.advUni stl) with cur := d.cur }
      go (if ts.isEmpty then x.2 else x.2.deliver hit Fibre.pc)

/-- RCHILD (R237). -/
def execRchild (o : K1Op) (s : State) : Host.Outcome State Fault Refusal :=
  s.run (.rchild o) fun d =>
    let k := d.readK o.ka.toNat
    d.recEach o.stl (k.getLsbD 16) (Dev.rchildAll k)

/-- The trap of RBASE in a fibre (R238). -/
def Dev.rbaseTrap (d : Dev) (f : Fibre) : Option Trap :=
  match d.recOf f with
  | some (_, x) => if x.run != some .divide || d.nch f.core x.frame != 0 then some (tGrant 0) else none
  | none => some (tGrant 0)

/-- The trap of RRES in a fibre (R238). -/
def Dev.rresTrap (d : Dev) (k : W64) (f : Fibre) : Option Trap :=
  match d.recOf f with
  | some (r, x) =>
    if !(x.run == some .base || x.run == some .combine) then some (tGrant 0)
    else if r.badBody k then some (tAlign k)
    else none
  | none => some (tGrant 0)

/-- Goes through the fibres of a batch in home-lane order with a trap check and an effect. -/
def Dev.recRun (trap : Dev → Fibre → Option Trap) (act : Dev → Fibre → Dev) : List Fibre → Dev → List ((Nat × Nat) × Trap) × Dev
  | [], d => ([], d)
  | f :: l, d =>
    match trap d f with
    | some t => let r := recRun trap act l d; (((f.slot, f.lane), t) :: r.1, r.2)
    | none => recRun trap act l (act d f)

/-- RBASE (R238). -/
def execRbase (o : NulOp) (s : State) : Host.Outcome State Fault Refusal :=
  s.run (.rbase o) fun d => d.recEach o.stl true (Dev.recRun Dev.rbaseTrap fun d f =>
    match d.recOf f with
    | some (r, x) => d.endBase f.core f.lane r x
    | none => d)

/-- RRES (R238). -/
def execRres (o : K1Op) (s : State) : Host.Outcome State Fault Refusal :=
  s.run (.rres o) fun d =>
    let k := d.readK o.ka.toNat
    d.recEach o.stl true (Dev.recRun (fun d => d.rresTrap k) fun d f =>
      match d.recOf f with
      | some (r, x) =>
        let v := d.spad f.core (x.frame + 0x40 + bitsOf k.toNat 0 16) 8
        (d.onchipPut f.core (x.frame + 8) (leBytes 8 v)).endResult f.core f.lane r x
      | none => d)

/-- RARG (R238). -/
def execRarg (o : K2Op) (s : State) : Host.Outcome State Fault Refusal :=
  s.run (.rarg o) fun d =>
    let n := (d.readK o.ka.toNat).toNat % 2 ^ 32
    match (d.core d.cur.core).rec_.filter fun r => r.gid == d.cur.gid && decide (n < r.nbr) with
    | none => d.trapAll (tGrant 0)
    | some r => (d.oweK o.kd.toNat (BitVec.ofNat 64 (d.spad d.cur.core (r.at_ n) 8))).advUni o.stl

end Sys2Proof.Machine
end

