-- ==== Sys2Proof/Machine/FaultPath.lean ====
section
/-! DEFINITION. The fault path (10: R244, R249 to R251, 17: R329 to R336, 19: R341, 22: R386 to R388): imprecise faults that become
known, page requests and their replies, fault records, translation walks, invalidations. -/

namespace Sys2Proof.Machine

/-! ## Imprecise faults (R244) -/

/-- The page faults of earlier accesses become known in the fibres that satisfy `p` (R244). -/
def Dev.lateNow (d : Dev) (p : Fibre → Bool) : Dev :=
  let hit (f : Fibre) : Bool := p f && f.late.isSome
  d.deliver (fun f => if hit f then f.late.map Prod.snd else none) Fibre.pc

/-! ## FAULT_PATH (R249) -/

/-- Whether a group on the fault path has stopped at its boundaries: none of its atomics is at an engine. -/
def Dev.faultReady (d : Dev) (g : Group) : Bool :=
  g.stat == .faulting && !(d.fibres.any fun f => d.isOf g.gid f && f.wait == .atomic)

/-- Outstanding writes of a group's registers arrive (R79). -/
def Dev.landGroup (d : Dev) (gid : Nat) : Dev :=
  let d := d.updFibres (d.isOf gid) Fibre.landAll
  match d.group? gid with
  | none => d
  | some g =>
    let d := g.outst.foldl (fun d o => match o.reg with | .k n => d.setK gid g.core o.slot n o.value | _ => d) d
    d.updGroup gid fun g => { g with outst := [] }

/-- What the fault path does for a warp with trapped fibres (R249): page requests for the page faults; a record at once for
every other cause, and where nothing is waited for. -/
def Dev.faultWarp (gid : Nat) (d : Dev) (wid : Nat) : Dev :=
  let fs := d.trappedIn gid wid
  let isPf (f : Fibre) : Bool := f.trapcause.extractLsb' 0 8 == 5#8
  let pf := fs.filter isPf
  let ctx := ((d.group? gid).map Group.ctx).getD 0
  let us := pf.flatMap Fibre.units
  let r := if pf.isEmpty then (d, false) else d.addCase (.group gid) ctx us wid
  if fs.any (fun f => !isPf f) || !r.2 then r.1.recordWarp gid wid else r.1

/-- A group on the fault path has stopped: it is replayable and descheduled (R249). -/
def Dev.faultPath (d : Dev) (gid : Nat) : Dev :=
  match d.group? gid with
  | none => d
  | some g =>
    if !d.faultReady g then d
    else
      let d := (d.lateNow (d.isOf gid)).landGroup gid
      let wids := dedup ((d.fibres.filter fun f => d.isOf gid f && f.trapped).map Fibre.warpid)
      let d := (sortBy id wids).foldl (Dev.faultWarp gid) d
      (d.updGroup gid fun g => { g with stat := .descheduled }).tryResume gid

/-- FAULT_PATH (R249); a gid. -/
def execFaultPath (s : State) : Host.Outcome State Fault Refusal :=
  .next (s.onDev fun d => d.faultPath d.arg.a)

/-! ## Page requests (R333, R334) -/

/-- The lowest free slot of a function. -/
def Fn.freeSlot (f : Fn) : Option Nat := (List.range 32).find? fun i => f.reqs.all fun r => r.slot != i

/-- Issues the oldest waiting request of a function: a PRI message, or a record for the stage-2 request ring. -/
def Dev.issueReq (d : Dev) (vf : Nat) : Dev :=
  let fn := d.hub.fn vf
  match fn.raised, fn.freeSlot with
  | r :: rest, some slot =>
    let gen := nth fn.gens slot 0 % 16
    let tag := gen * 32 + slot
    let req : PageReq := { id := r.id, slot := slot, gen := gen, stage := r.u.stage, ctx := r.ctx, page := r.u.page, acc := r.u.acc }
    let fn := { fn with raised := rest, reqs := fn.reqs ++ [req], gens := fn.gens.set slot (gen + 1) }
    d.updHub fun h =>
      let h := h.setFn fn
      if r.u.stage == 1 then
        { h with pri := h.pri ++ [{ vf := vf, pasid := ((h.ctx? r.ctx).map Ctx.pasid).getD 0, page := r.u.page, acc := r.u.acc, tag := tag, last := true }] }
      else { h with s2recs := h.s2recs ++ [{ vf := vf, ctx := r.ctx, u := r.u, tag := tag }] }
  | _, _ => d

/-- Whether a function can issue a request. -/
def Fn.canIssue (f : Fn) : Bool := !f.raised.isEmpty && f.freeSlot.isSome

/-- PAGE_REQUEST_ISSUE (R333); a function. -/
def execPageRequestIssue (s : State) : Host.Outcome State Fault Refusal :=
  .next (s.onDev fun d => d.issueReq d.arg.a)

/-- The bytes of a stage-2 request record (R334). -/
def S2Rec.bytes (r : S2Rec) : List Byte :=
  leBytes 8 (r.u.page * 65536) ++ leBytes 8 r.u.va ++ leBytes 1 r.vf ++ leBytes 1 r.ctx ++ leBytes 1 r.u.acc ++ leBytes 1 r.u.kind ++
  leBytes 2 r.tag ++ leBytes 1 r.u.level ++ leBytes 9 0

/-- Whether the stage-2 request ring has room (R386): a read index outside its range makes it full. -/
def Hub.s2room (h : Hub) : Bool := decide (4 ≤ h.s2size) && decide (h.s2size ≤ 12) && decide ((h.s2wr - h.s2rd).toNat < 2 ^ h.s2size)

/-- Writes the oldest stage-2 request record (R386). -/
def Dev.writeS2 (d : Dev) : Dev :=
  match d.hub.s2recs with
  | [] => d
  | r :: rest =>
    if !d.hub.s2room then d
    else
      let a := d.hub.s2ring + 32 * (d.hub.s2wr.toNat % 2 ^ d.hub.s2size)
      (d.updMs fun ms => ms.poke .hub a r.bytes).updHub fun h => { h with s2recs := rest, s2wr := h.s2wr + 1 }

/-- STAGE2_REQUEST_RECORD (R334, R386). -/
def execStage2RequestRecord (s : State) : Host.Outcome State Fault Refusal :=
  .next (s.onDev Dev.writeS2)

/-! ## Replies (R335, R388) -/

/-- PRG Response with Success; a function, b tag (R335). -/
def execPrgResponseSuccess (s : State) : Host.Outcome State Fault Refusal :=
  .next (s.onDev fun d => d.reply d.arg.a d.arg.b 0)

/-- PRG Response with Invalid Request or any unlisted code; a function, b tag (R335). -/
def execPrgResponseInvalidRequest (s : State) : Host.Outcome State Fault Refusal :=
  .next (s.onDev fun d => d.reply d.arg.a d.arg.b 1)

/-- PRG Response with Response Failure; a function, b tag (R335). -/
def execPrgResponseFailure (s : State) : Host.Outcome State Fault Refusal :=
  .next (s.onDev fun d => d.reply d.arg.a d.arg.b 15)

/-- A write of S2REPLY with a code (R388). -/
def Dev.s2reply (d : Dev) (v : W64) (code : Nat) : Dev := d.reply (bitsOf v.toNat 16 6) (bitsOf v.toNat 0 9) code

/-- S2REPLY with Success; v the value (R388). -/
def execS2replySuccess (s : State) : Host.Outcome State Fault Refusal :=
  .next (s.onDev fun d => d.s2reply d.arg.v 0)

/-- S2REPLY with Invalid Request or any unlisted code; v the value (R388). -/
def execS2replyInvalidRequest (s : State) : Host.Outcome State Fault Refusal :=
  .next (s.onDev fun d => d.s2reply d.arg.v 1)

/-- S2REPLY with Response Failure; v the value (R388). -/
def execS2replyResponseFailure (s : State) : Host.Outcome State Fault Refusal :=
  .next (s.onDev fun d => d.s2reply d.arg.v 15)

/-- PRI_REENABLE: the driver re-enables PRI for a function; a function (R335). -/
def execPriReenable (s : State) : Host.Outcome State Fault Refusal :=
  .next (s.onDev fun d => d.updHub fun h => h.setFn { h.fn d.arg.a with priOff := false })

/-! ## Fault records (R249, R341) -/

/-- The bytes of a fault record. -/
def FRec.bytes (r : FRec) : List Byte :=
  leBytes 8 r.cause.toNat ++ leBytes 8 r.tpc.toNat ++ leBytes 8 r.tadr.toNat ++ leBytes 8 r.rec_.toNat ++ leBytes 8 r.repc.toNat ++
  leBytes 8 r.mdone.toNat ++ leBytes 4 r.launchid.toNat ++ leBytes 2 r.fibreid ++ leBytes 2 r.core ++ leBytes 4 r.lanes.toNat ++
  leBytes 1 r.groupid ++ leBytes 1 r.fail ++ leBytes 2 0

/-- Takes a record out of those to be written; `f` puts it back changed. -/
def Dev.setRecAt (d : Dev) (i : Nat) (f : FRec → FRec) : Dev :=
  d.updHub fun h => { h with frecs := h.frecs.zipIdx.map fun x => if x.2 == i then f x.1 else x.1 }

/-- An access through a context's FRING that stage 2 does not translate: a stage-2 request, raised again at the next attempt. -/
def Dev.ringFault (d : Dev) (i ctx : Nat) (u : FaultUnit) : Dev :=
  (d.addCase (.ring ctx) ctx [u] 0).1.setRecAt i fun r => { r with waiting := true }

/-- Writes record `i` of those waiting, if it is the oldest of its context and the ring has room (R341). -/
def Dev.writeRec (d : Dev) (i : Nat) : Dev :=
  match d.hub.frecs[i]? with
  | none => d
  | some r =>
    match d.hub.ctx? r.ctx with
    | none => d.updHub fun h => { h with frecs := h.frecs.eraseIdx i }
    | some c =>
      let a := c.fring + c.frwr.toNat % c.frsz * 64
      match d.translateIpa c.vf (c.desc + 0x2C) 1, d.translateIpa c.vf (c.desc + 0x30) 2, d.translateIpa c.vf a 2 with
      | .ok rd, .ok wr, .ok p =>
        let frrd := leVal (d.ms.readSystem rd 4)
        if (c.frwr.toNat + 2 ^ 32 - frrd) % 2 ^ 32 < c.frsz then
          let d := d.updMs fun ms => (ms.poke .hub p r.bytes).poke .hub wr (leBytes 4 ((c.frwr.toNat + 1) % 2 ^ 32))
          d.updHub fun h =>
            let mine := match r.gid with | some g => c.frecs ++ [(c.frwr, g)] | none => c.frecs
            let h := h.updCtx r.ctx fun c => { c with frwr := c.frwr + 1, frecs := mine }
            { h with frecs := h.frecs.eraseIdx i }.note 1 r.core r.ctx r.cause
        else if r.waiting then d
        else (d.updHub fun h => h.logLine 6 r.ctx r.ctx).setRecAt i fun r => { r with waiting := true }
      | .error u, _, _ | _, .error u, _ | _, _, .error u => d.ringFault i r.ctx u

/-- The first record that can be tried now: the oldest of its context, not waiting. -/
def Dev.recReady (d : Dev) : Option Nat :=
  d.hub.frecs.zipIdx.findSome? fun x =>
    let first := (d.hub.frecs.findIdx? fun r => r.ctx == x.1.ctx) == some x.2
    if first && !x.1.waiting && !d.waits (.ring x.1.ctx) then some x.2 else none

/-- FAULT_RECORD (R341); a index among the records waiting. -/
def execFaultRecord (s : State) : Host.Outcome State Fault Refusal :=
  .next (s.onDev fun d => d.writeRec d.arg.a)

/-- The oldest waiting record of a context looks at FRRD again (R341). -/
def Dev.pollRing (d : Dev) (ctx : Nat) : Dev :=
  match d.hub.frecs.findIdx? fun r => r.ctx == ctx with
  | some i => if d.waits (.ring ctx) then d else d.writeRec i
  | none => d

/-- FAULT_RING_POLL (R341); a context. -/
def execFaultRingPoll (s : State) : Host.Outcome State Fault Refusal :=
  .next (s.onDev fun d => d.pollRing d.arg.a)

/-! ## FREPLY (R387) -/

/-- The group that an FREPLY value of a function answers: one that wrote the record named and has not been answered. -/
def Dev.replyGroup (d : Dev) (vf : Nat) (v : W64) : Option (Nat × Nat) :=
  let ctx := bitsOf v.toNat 32 6
  match d.hub.ctx? ctx with
  | none => none
  | some c =>
    if c.vf != vf then none
    else (c.frecs.find? fun r => r.1 == v.extractLsb' 0 32).map fun r => (ctx, r.2)

/-- An FREPLY write with ACTION `code` (R387, R392): line 5, a look at FRRD for the function's contexts, and the action. -/
def Dev.freply (d : Dev) (vf : Nat) (v : W64) (code : Nat) (act : Dev → Nat → Dev) : Dev :=
  let d := d.updHub fun h => h.logLine 5 vf v.toNat
  let d := ((d.hub.ctxs.filter fun c => c.vf == vf).map Ctx.no).foldl Dev.pollRing d
  match (d.replyGroup vf v).filter fun _ => bitsOf v.toNat 62 2 == code with
  | none => d
  | some (ctx, gid) =>
    act (d.updHub fun h => h.updCtx ctx fun c => { c with frecs := c.frecs.filter fun r => r.2 != gid }) gid

/-- FREPLY with RESUME; a function, v the value (R387, R251). -/
def execFreplyResume (s : State) : Host.Outcome State Fault Refusal :=
  .next (s.onDev fun d => d.freply d.arg.a d.arg.v 1 fun d gid => d.tryResume gid)

/-- FREPLY with TERMINATE; a function, v the value (R387, R249). -/
def execFreplyTerminate (s : State) : Host.Outcome State Fault Refusal :=
  .next (s.onDev fun d => d.freply d.arg.a d.arg.v 2 fun d gid => d.terminate gid)

/-! ## Walks and invalidations (R328, R331) -/

/-- TRANSLATION_WALK: a walk completes; what it finds is cached, a fault is not; a core, b ctx, c virtual address, d access
(R328, R330). -/
def execTranslationWalk (s : State) : Host.Outcome State Fault Refusal :=
  .next (s.onDev fun d => (d.translate d.arg.a d.arg.b (d.arg.c % 2 ^ 48) d.arg.d).2)

/-- ATS_INVALIDATION_REQUEST: a PASID or a virtual range of it; a function, b PASID, c first byte, d bytes, 0 for the whole
PASID (R331). -/
def execAtsInvalidationRequest (s : State) : Host.Outcome State Fault Refusal :=
  .next (s.onDev fun d =>
    let range := if d.arg.d == 0 then none else some (d.arg.c, d.arg.d)
    d.updHub fun h => { h with invals := h.invals ++ [{ vf := d.arg.a, pasid := some d.arg.b, range := range }] })

/-- S2INVST.BUSY: a stage-2 invalidation is pending (R388). -/
def Hub.s2busy (h : Hub) : Bool := h.invals.any fun i => i.pasid.isNone

/-- Whether an S2INV value is malformed (R388). -/
def s2malformed (v : W64) : Bool :=
  let lsz := bitsOf v.toNat 6 6
  bitsOf v.toNat 5 1 == 0 && (decide (lsz < 12) || decide (48 < lsz) || bitsOf v.toNat 12 36 % 2 ^ (lsz - 12) != 0)

/-- A write of S2INV (R388). -/
def Hub.s2inv (h : Hub) (v : W64) : Hub :=
  if h.s2busy || s2malformed v then h
  else
    let range := if bitsOf v.toNat 5 1 == 1 then none else some (bitsOf v.toNat 12 36 * 4096, 2 ^ bitsOf v.toNat 6 6)
    { h with invals := h.invals ++ [{ vf := bitsOf v.toNat 58 6, pasid := none, range := range }] }

/-- S2INV with a range; v the value (R388). -/
def execS2invRange (s : State) : Host.Outcome State Fault Refusal :=
  .next (s.onDev fun d => d.updHub fun h => h.s2inv (d.arg.v &&& ~~~(0x20 : W64)))

/-- S2INV with ALL; v the value (R388). -/
def execS2invAll (s : State) : Host.Outcome State Fault Refusal :=
  .next (s.onDev fun d => d.updHub fun h => h.s2inv (d.arg.v ||| 0x20))

/-- Whether an invalidation covers a cached translation (R331): a stage-1 one those built from a leaf entry in its range; a stage-2 one
takes every translation of its function, whose entries do not keep their IPAs (log 9). -/
def Dev.invalHits (d : Dev) (i : Inval) (t : Tlb) : Bool :=
  t.vf == i.vf &&
  match i.pasid with
  | none => true
  | some p =>
    !t.table && ((d.hub.ctx? t.ctx).map Ctx.pasid).getD 0 == p &&
    match i.range with
    | none => true
    | some r => overlaps t.from_ t.span r.1 r.2

/-- Whether an invalidation can complete (R331): no atomic and no pending store of compatibility mode still holds a
translation. -/
def Dev.invalReady (d : Dev) : Bool := d.clusters.all (fun c => c.queue.isEmpty) && d.fabric.isEmpty && d.ms.compat.isEmpty

/-- INVALIDATION_COMPLETE (R331); a index among those pending. -/
def execInvalidationComplete (s : State) : Host.Outcome State Fault Refusal :=
  .next (s.onDev fun d =>
    match d.hub.invals[d.arg.a]? with
    | none => d
    | some i =>
      if !d.invalReady then d
      else
        let keep := d.tlbs.filter fun t => !d.invalHits i t
        { d with tlbs := keep }.updHub fun h => { h with invals := h.invals.eraseIdx d.arg.a })

end Sys2Proof.Machine
end

