-- ==== Sys2Proof/Machine/Place.lean ====
section
/-! DEFINITION. Free resources of a core (19: R356, R363; 08: R187, R188) and bytes behind an IPA (R341). What class 0 keeps for
itself are the highest warp slots, registers and units (log 18). -/

namespace Sys2Proof.Machine

/-! ## Free resources -/

/-- The part [lo, hi) of a resource of `n` that a class may use, `r` of it kept for class 0: 0 all of it, 1 to 3 what is not kept,
4 and 5 what is kept alone. -/
def roomFor (cls n r : Nat) : Nat × Nat := if cls == 0 then (0, n) else if cls == 4 || cls == 5 then (n - r, n) else (0, n - r)

/-- The same for scratchpad units, which are not among what class 5 is kept from (R357). -/
def unitClass (cls : Nat) : Nat := if cls == 5 then 0 else cls

/-- Free warp slots of a core for a class, lowest first; a core that boot has fenced has none (R397). -/
def Dev.freeWarpSlots (d : Dev) (core cls : Nat) : List Nat :=
  let room := roomFor cls 64 d.hub.rw_
  (List.range 64).filter fun s =>
    decide (room.1 ≤ s) && decide (s < room.2) && d.hub.present.getLsbD core && (d.warp? core s).isNone &&
    !d.groups.any fun g => g.core == core && g.slots.contains s

/-- Ranges of a core's own memory that live copies name, barrier objects among them: held until the copies end (R263, step 5; R178). -/
def Dev.copyRanges (d : Dev) (core : Nat) : List (Nat × Nat) :=
  d.cores.flatMap fun k => k.copies.flatMap fun c =>
    (match c.bobj with | some o => if k.no == core then [(o, 8)] else [] | none => []) ++
    (c.parts k.no false ++ c.parts k.no true).filterMap fun p => if p.1 == core then some p.2 else none

/-- Whether a scratchpad unit of a core is free: nobody holds it, no handoff or live copy names it. -/
def Dev.unitFree (d : Dev) (core u : Nat) : Bool :=
  !(d.groups.any fun g => g.core == core && g.holdsUnits u 1) &&
  !(d.handoffs.any fun h => h.core == core && h.handle.toNat / 2 ^ 62 == 0 &&
      decide ((handleRun h.handle).1 ≤ u) && decide (u < (handleRun h.handle).1 + (handleRun h.handle).2)) &&
  (d.copyRanges core).all fun r => !overlaps (u * 0x1000) 0x1000 r.1 r.2

/-- The lowest free run of scratchpad units for a class. -/
def Dev.freeUnits (d : Dev) (core cls n : Nat) : Option Nat :=
  let room := roomFor (unitClass cls) 128 d.hub.rs
  (List.range (room.2 + 1 - n)).find? fun o => decide (room.1 ≤ o) && (List.range n).all fun i => d.unitFree core (o + i)

/-- Whether an accumulator slot of a core is free; the slots and granules of a core belong to its live walk (R187). -/
def Dev.slotFree (d : Dev) (core s : Nat) : Bool :=
  (d.core core).walk.isNone && !(d.groups.any fun g => g.core == core && g.aslots.contains s) &&
  !(d.handoffs.any fun h => h.core == core && h.handle.toNat / 2 ^ 62 == 1 && bitsOf h.handle.toNat 0 4 == s) &&
  (d.copyRanges core).all fun r => !overlaps (accAt s) 0x4000 r.1 r.2

/-- Free accumulator slots of a core, lowest first. -/
def Dev.freeAccs (d : Dev) (core : Nat) : List Nat := (List.range 16).filter (d.slotFree core)

/-- Whether no live copy touches a core's operand buffer. -/
def Dev.granulesFree (d : Dev) (core : Nat) : Bool :=
  (d.core core).walk.isNone && (d.copyRanges core).all fun r => !overlaps 0x200000 0x80000 r.1 r.2

/-- Windows for a list of home lanes and sizes, each at the lowest free WINBASE of its bank, in order (R356). -/
def Dev.fitWindows (d : Dev) (core cls : Nat) : List (Nat × Nat) → List (Nat × Nat × Nat) → Option (List Nat)
  | [], _ => some []
  | w :: l, used =>
    let mine := (used.filter fun u => u.1 == w.1).map Prod.snd
    match freeWindow (d.bankUsed core w.1 ++ mine ++ d.bankKept cls) w.2 with
    | none => none
    | some b => (d.fitWindows core cls l ((w.1, b, w.2) :: used)).map (b :: ·)

/-- The home lanes in which a warp of `nfib` fibres has a fibre or a helper fibre (R24). -/
def lanesFor (nfib : Nat) : List Nat := List.range (ceilDiv nfib 4 * 4)

/-- The windows a group of a shape needs, in WARPID order (R356). -/
def shapeWindows (warps nfib win : Nat) : List (Nat × Nat) :=
  (List.range warps).flatMap fun _ => (lanesFor nfib).map fun l => (l, win * 8)

/-- Whether a core has the warp slots and the register windows of a group (R265, R356). -/
def Dev.shapeFits (d : Dev) (core cls warps nfib win : Nat) : Bool :=
  decide (warps ≤ (d.freeWarpSlots core cls).length) && (d.fitWindows core cls (shapeWindows warps nfib win) []).isSome

/-! ## Where the groups of a launch may go (R356, R357) -/

/-- Cores a launch with FIXED = 1, or a bin, names from CORE0 on. -/
def Launch.span (l : Launch) : Nat :=
  match l.kind with
  | .launch => l.teams * l.gpt
  | .walk | .bin => l.ncore
  | .recur | .disp => 1

/-- Whether a core is one where groups of a launch may go. -/
def Launch.mayUse (l : Launch) (core : Nat) : Bool :=
  if l.fixed || l.kind == .bin then decide (l.core0 ≤ core) && decide (core < l.core0 + l.span) else decide (core < 512)

/-- Whether a launch still has a team to place. -/
def Launch.open_ (l : Launch) : Bool := !l.finished && decide (l.placed.length < l.teams)

/-- Whether a context's work goes on: it lives, is not being destroyed, and its quota is not exhausted (R266, R366, R386). -/
def Hub.ctxRuns (h : Hub) (ctx : Nat) : Bool := match h.ctx? ctx with | some c => !c.dying && !c.quotaOut | none => false

/-- Whether a launch with teams to place has been passed over for a number of cycles (R357, R365). -/
def Launch.passed (l : Launch) (now n : Nat) : Bool := l.open_ && decide (l.since + n ≤ now)

end Sys2Proof.Machine
end

