-- ==== Sys2Proof/Machine/Preempt.lean ====
section
/-! DEFINITION. Stopping, saving and restoring groups and walks (10: R258, R263 to R269; 08: R221 to R223; 09: R241; 11: R272, R273;
19: R341, R366). -/

namespace Sys2Proof.Machine

/-! ## The save pool (R341) -/

/-- The lowest-addressed free run of `n` pages of a context's save pool. -/
def Ctx.freePages (c : Ctx) (n : Nat) : Option Nat :=
  let starts := sortBy id (0 :: c.areas.map fun a => a.1 + a.2.1)
  starts.find? fun p => decide (p + n ≤ c.savesz / 4096) && c.areas.all fun a => !overlaps p n a.1 a.2.1

/-- The address of a save area of an owner that is large enough. -/
def Ctx.area? (c : Ctx) (owner n : Nat) : Option Nat :=
  (c.areas.find? fun a => a.2.2 == owner && decide (n ≤ a.2.1)).map fun a => c.savep + a.1 * 4096

/-- Takes a save area of `bytes` for an owner that has none so large; nothing changes where the pool has no room. One that holds its
evicted warps stays until their state is in the new one. -/
def Hub.takeArea (h : Hub) (ctx owner bytes : Nat) : Hub :=
  let n := ceilDiv bytes 4096
  h.updCtx ctx fun c =>
    if (c.area? owner n).isSome then c
    else match c.freePages n with
      | some p => { c with areas := c.areas ++ [(p, n, owner)] }
      | none => c

/-- Of the areas of an owner the one at an address stays. -/
def Hub.keepArea (h : Hub) (ctx owner at_ : Nat) : Hub :=
  h.updCtx ctx fun c => { c with areas := c.areas.filter fun a => a.2.2 != owner || c.savep + a.1 * 4096 == at_ }

/-- The save area of an owner. -/
def Dev.area? (d : Dev) (ctx owner bytes : Nat) : Option Nat := (d.hub.ctx? ctx).bind fun c => c.area? owner (ceilDiv bytes 4096)

/-- Takes an area; line 10 where there is no room (R392). -/
def Dev.askArea (d : Dev) (ctx owner bytes : Nat) : Dev :=
  let d := d.updHub fun h => h.takeArea ctx owner bytes
  if (d.area? ctx owner bytes).isSome then d else d.updHub fun h => h.logLine 10 ctx ctx

/-! ## A stop begins (R263, R221, R265) -/

/-- Warps of a group on its core, in WARPID order. -/
def Dev.warpsOf (d : Dev) (gid : Nat) : List Warp := sortBy Warp.warpid (d.warps.filter fun w => w.gid == gid)

/-- Fibres of a warp, by home lane. -/
def Dev.fibresIn (d : Dev) (w : Warp) : List Fibre := sortBy Fibre.lane (d.inSlot w.core w.slot)

/-- Highest image of a walk save area, in bytes (R222). -/
def WalkEng.saveLen (w : WalkEng) : Nat :=
  let g := w.panes.foldl (fun m p => max m (0x43000 + (p.base + p.ngr) * 0x1000)) 0
  max g (w.slots.foldl (fun m s => max m (0x3000 + (s + 1) * 0x4000)) 0x3000)

/-- A walk stops for a pre-emption (R221, step 1). -/
def WalkEng.stopNow (w : WalkEng) : WalkEng :=
  let at_ := match w.openSweeps.head? with | some s => (s.index, s.kdone w.rcd.ks) | none => (0, 0)
  if w.st != .running then w
  else { w with st := .stopping, stopAt := at_, ups := updWhere (fun u => u.st == .queued) (fun u => { u with st := .withdrawn }) w.ups }

/-- The warps that a stop of the warps satisfying `p` on a core takes: a role group's warp widens it to both role groups of the walk, a
warp of a recursion's group to that whole group (R221, R241, R265). -/
def Dev.stopSet (d : Dev) (core : Nat) (p : Warp → Bool) (w : Warp) : Bool :=
  let hit := (d.warps.filter fun w => w.core == core && p w).map Warp.gid
  let c := d.core core
  let roles := match c.walk with | some e => if hit.contains e.prod || hit.contains e.cons then [e.prod, e.cons] else [] | none => []
  let recs := match c.rec_ with | some r => if hit.contains r.gid then [r.gid] else [] | none => []
  w.core == core && (p w || (recs ++ roles).contains w.gid)

/-- Warps of a group that a stop is removing. -/
def Dev.leaving (d : Dev) (gid : Nat) : List Warp := (d.warpsOf gid).filter Warp.stopping

/-- Asks for the save area of what is leaving of a group and what has been evicted of it. -/
def Dev.askGroupArea (d : Dev) (gid : Nat) : Dev :=
  match d.group? gid with
  | none => d
  | some g =>
    let ws := d.leaving gid
    let old := d.evicted? gid
    d.askArea g.ctx gid (saveLen (ws ++ (old.map Saved.warps).getD []) (ws.flatMap d.fibresIn ++ (old.map Saved.fibres).getD []))

/-- Stops the warps of a core that satisfy `p` and those this widens to; `lid` is the launch they make room for, if any. -/
def Dev.stopFor (d : Dev) (core lid : Nat) (p : Warp → Bool) : Dev :=
  let take := d.stopSet core p
  let d := { d with warps := updWhere take (fun w => { w with stopping := true, for_ := max lid w.for_ }) d.warps }
  let gids := dedup ((d.warps.filter take).map Warp.gid)
  let d := gids.foldl Dev.askGroupArea d
  match (d.core core).walk with
  | some w =>
    if gids.contains w.prod || gids.contains w.cons then (d.setWalk core w.stopNow).askArea w.ctx (walkOwner core) w.saveLen else d
  | none => d

/-- Stops the warps of a core that satisfy `p`. -/
def Dev.stopWarps (d : Dev) (core : Nat) (p : Warp → Bool) : Dev := d.stopFor core 0 p

/-- PREEMPTION_REQUEST (R263): a context is pre-empted on a core; a context, b core. -/
def execPreemptionRequest (s : State) : Host.Outcome State Fault Refusal :=
  .next (s.onDev fun d => d.stopWarps d.arg.b fun w => ((d.group? w.gid).map Group.ctx) == some d.arg.a)

/-- Stops every group of a context on every core. -/
def Dev.stopContext (d : Dev) (ctx : Nat) (keep : Warp → Bool) : Dev :=
  let mine (w : Warp) : Bool := ((d.group? w.gid).map Group.ctx) == some ctx && !keep w
  (dedup ((d.warps.filter mine).map Warp.core)).foldl (fun d core => d.stopWarps core mine) d

/-- A device without some warps of a core. -/
def Dev.without (d : Dev) (core : Nat) (vs : List Warp) : Dev :=
  let gone (slot : Nat) : Bool := vs.any fun v => v.slot == slot
  { d with
    warps := d.warps.filter fun w => !(w.core == core && gone w.slot)
    fibres := d.fibres.filter fun f => !(f.core == core && gone f.slot)
    groups := updWhere (fun g => g.core == core) (fun g => { g with slots := g.slots.filter fun s => !gone s }) d.groups }

/-! ## Masks (R258, R264) -/

/-- A fibre of a masked warp saved at its region entry (R264). -/
def Fibre.toRegion (f : Fibre) : Fibre :=
  if f.repc == 0 then f
  else { f with pc := f.repc.setWidth 48, mdone := f.mdone &&& ~~~((1 : W64) <<< 48), wait := .none, outst := [], late := none }

/-- MASK_BUDGET_EXPIRY (R258, R264): the mask ends; a stop that waits for the warp takes it at its region entries; a core, b
slot. -/
def execMaskBudgetExpiry (s : State) : Host.Outcome State Fault Refusal :=
  .next (s.onDev fun d =>
    match d.warp? d.arg.a d.arg.b with
    | none => d
    | some w =>
      if !w.masked || w.budget != 0 then d
      else
        let d := d.updWarp w.core w.slot fun w => { w with masked := false, park := if w.stopping then none else w.park }
        let mine (f : Fibre) : Bool := f.core == w.core && f.slot == w.slot
        if w.stopping then (d.updFibres mine Fibre.toRegion).divide mine false else d)

/-! ## GROUP_SAVE (R263 to R267) -/

/-- Whether a group is a role group of the live walk of its core. -/
def Dev.inLiveWalk (d : Dev) (g : Group) : Bool :=
  match (d.core g.core).walk with | some w => w.prod == g.gid || w.cons == g.gid | none => false

/-- Whether the stopped warps of a group can be saved: all have stopped, none of their atomics is at an engine, the fault path is
done, their walk is saved, and no copy is live into a grant that lapses with them (R263, R284). A grant lapses with the evicted windows it
covers (log 63). -/
def Dev.saveReady (d : Dev) (g : Group) : Bool :=
  let ws := d.leaving g.gid
  let fs := ws.flatMap d.fibresIn
  let whole := decide ((d.warpsOf g.gid).length = ws.length)
  !ws.isEmpty && ws.all d.isStopped && g.stat != .faulting && !d.inLiveWalk g && !d.waits (.ring g.ctx) &&
  (fs.all fun f => f.wait != .atomic) &&
  !(g.grants.any fun r => match r with | some r => (whole || fs.any r.touches) && d.copyInto g r | none => false)

/-- What a stop saves of a group; `old` has been evicted before. -/
def Dev.savedOf (d : Dev) (g : Group) (ws : List Warp) (old : Option Saved) (part : Bool) : Saved :=
  let tidy (w : Warp) : Warp := { w with stopping := false, park := none, for_ := 0 }
  let warps := sortBy Warp.warpid (ws.map tidy ++ ((old.map Saved.warps).getD []))
  let fibres := sortBy (fun f => f.warpid * 32 + f.lane) (ws.flatMap d.fibresIn ++ ((old.map Saved.fibres).getD []))
  let walkArea := match d.walks.find? fun x => x.eng.prod == g.gid || x.eng.cons == g.gid with | some x => x.area | none => 0
  let halt := match (d.hub.ctx? g.ctx).bind Ctx.stopBy with | some m => m != g.gid | none => false
  { group := { g with infl := [], outst := [], grants := List.replicate 8 none }, warps := warps, fibres := fibres, area := 0
    partial_ := part, replay := g.stat == .descheduled, halted := halt && !part, walkArea := walkArea
    recLive := match (d.core g.core).rec_ with | some r => r.gid == g.gid | none => false
    for_ := ws.foldl (fun m w => max m w.for_) ((old.map Saved.for_).getD 0) }

/-- Takes the saved warps off their core, with the grants over their windows; a whole group with its extents, grants and stream entries
(R263, R284, R375). -/
def Dev.takeOff (d : Dev) (g : Group) (ws : List Warp) (s : Saved) : Dev :=
  let d1 := (d.lapseFor (ws.flatMap d.fibresIn)).without g.core ws
  let d2 := { d1 with saved := (d1.saved.filter fun (x : Saved) => x.group.gid != g.gid) ++ [s] }.updHub fun h => h.keepArea g.ctx g.gid s.area
  if s.partial_ then d2
  else
    let d3 := { d2 with groups := dropBy Group.gid g.gid d2.groups }
    d3.updCore g.core fun c => { c with
      shut := c.shut.filter fun e => !(e.kind == 3 && e.owner == g.gid)
      rec_ := c.rec_.map fun r => if r.gid == g.gid then { r with saved := true } else r }

/-- A saved group with its area read back, if it can be read. -/
def Dev.readSaved (d : Dev) (s : Saved) : Except FaultUnit Saved := do
  pure (s.reload (← d.readIpa (d.vfOf s.group.ctx) s.area (saveLen s.warps s.fibres)))

/-- Writes what is leaving of a group to its save area, with what has been evicted of it before; `old` is that. -/
def Dev.writeGroup (d : Dev) (g : Group) (old : Option Saved) : Dev :=
  let ws := d.leaving g.gid
  let s0 := d.savedOf g ws old (decide ((d.warpsOf g.gid).length ≠ ws.length))
  let d := d.updHub fun h => h.takeArea g.ctx g.gid (saveLen s0.warps s0.fibres)
  match d.area? g.ctx g.gid (saveLen s0.warps s0.fibres) with
  | none => d
  | some a =>
    let s := { s0 with area := a }
    match d.writeIpa (d.vfOf g.ctx) a s.bytes with
    | .error u => (d.addCase (.ring g.ctx) g.ctx [u] 0).1
    | .ok d => d.takeOff g ws s

/-- Saves the stopped warps of a group (R263): faults not yet known come first; then the state is written to the save area. -/
def Dev.saveGroup (d : Dev) (gid : Nat) : Dev :=
  match d.group? gid with
  | none => d
  | some g0 =>
    if !d.saveReady g0 then d
    else
      let ws := d.leaving gid
      let mine (f : Fibre) : Bool := f.core == g0.core && ws.any fun w => w.slot == f.slot
      let d := if d.fibres.any fun f => mine f && f.late.isSome then d.lateNow mine else d
      match d.group? gid with
      | none => d
      | some g =>
        if g.stat == .faulting then d
        else
          let d := (d.landGroup gid).release g.core Scope.system
          let d := match (d.core g.core).rec_ with
            | some r => if r.gid == gid then d.recHeader g.core r r.stage 0 else d
            | none => d
          let g := (d.group? gid).getD g
          match (d.evicted? gid).mapM d.readSaved with
          | .error u => (d.addCase (.ring g.ctx) g.ctx [u] 0).1
          | .ok old => d.writeGroup g old

/-- GROUP_SAVE (R263, R404); a group. -/
def execGroupSave (s : State) : Host.Outcome State Fault Refusal :=
  .next (s.onDev fun d => d.saveGroup d.arg.a)

/-! ## The walk save area (R221 to R223) -/

/-- Whether no delivered upcall of a walk is left. -/
def WalkEng.allBack (w : WalkEng) : Bool := w.ups.all fun u => match u.st with | .delivered _ => false | _ => true

/-- Whether a pre-empted walk can be saved: its grace has ended, or it had finished (R221). Where an occupied warp is still masked then
(R264 against R272), DESIGN CHOICE: the walk is saved all the same and the warp issues on until its mask ends; what it does with its upcall
meanwhile finds no walk (log 64). -/
def Dev.walkSaveReady (d : Dev) (core : Nat) : Bool :=
  match (d.core core).walk with
  | none => false
  | some w => !d.waits (.ring w.ctx) &&
    ((w.st == .grace && (decide (w.grace ≤ d.cycle) || w.allBack)) ||
     (w.st == .finished && d.warps.any fun x => x.core == core && x.stopping && (x.gid == w.prod || x.gid == w.cons)))

/-- A pane record (R197). -/
def Pane.word (p : Pane) : Nat :=
  let st := match p.st with | .free => 0 | .reserved => 1 | .filled => 2 | .inUse => 3
  p.fmt + (if p.blk then 2 ^ 4 else 0) + (if p.orient then 2 ^ 5 else 0) + p.hadf * 2 ^ 6 + p.scoff * 2 ^ 16 + p.rows * 2 ^ 32 +
  p.cols * 2 ^ 48 + p.base * 2 ^ 64 + p.ngr * 2 ^ 72 + st * 2 ^ 80

/-- A bitmap. -/
def bitmap (l : List Nat) : Nat := (dedup l).foldl (fun m i => m + 2 ^ i) 0

/-- Units of the current chunk after the current one (R222, CREM): those not begun, and the one whose first sweep has entered the window
behind the current sweep. -/
def WalkEng.unitsLeft (w : WalkEng) : Nat :=
  w.units.length + match w.openSweeps with
    | a :: b :: _ => if a.unit == b.unit then 0 else 1
    | _ => 0

/-- The walk position record (R222). Where no step is current, DESIGN CHOICE: OROW, OCOL, KSTEP, PDONE and SWEEP hold 0 (log 65). -/
def WalkEng.position (w : WalkEng) (launchid : BitVec 32) (area : Nat) : List Byte :=
  let ks := w.rcd.ks
  let cur := w.openSweeps.head?
  let o := match cur with | some s => w.rcd.origin s.index | none => (0, 0)
  let k := match cur with | some s => s.kdone ks | none => 0
  let pdone := match cur with | some s => (s.tiles.filter fun t => decide (k < t.ksteps ks)).length | none => 0
  let entry (p : Upcall → Bool) : Nat := bitmap ((w.ups.filter p).map fun u => u.seq % 64)
  let isDelv (u : Upcall) : Bool := match u.st with | .delivered _ => true | _ => false
  leBytes 4 launchid.toNat ++ leBytes 2 1 ++ leBytes 2 0 ++ leBytes 8 w.recA ++ leBytes 4 o.1 ++ leBytes 4 o.2 ++ leBytes 4 k ++
  leBytes 4 pdone ++ leBytes 4 ((cur.map Sweep.index).getD 0) ++ leBytes 4 w.unitsLeft ++ leBytes 4 w.oldPrev ++
  leBytes 4 w.chunkPrev ++ leBytes 4 w.nseq ++ leBytes 4 0 ++ leBytes 8 (entry isDelv) ++
  leBytes 8 (entry fun u => u.st == .withdrawn) ++ leBytes 16 (bitmap (w.panes.map Pane.base)) ++ leBytes 8 (bitmap w.slots) ++
  leBytes 8 (area + 0x1000) ++ b8 w.stall ++ leBytes 4 (((w.openSweeps[1]?).map Sweep.index).getD 0xFFFFFFFF) ++ leBytes 12 0

/-- The images that follow the record: offset and bytes (R222). -/
def Dev.walkImages (d : Dev) (core : Nat) (w : WalkEng) : List (Nat × List Byte) :=
  let mem (off n : Nat) : List Byte := (List.range n).map fun i => d.ms.avail core (slotBase core + off + i)
  (w.ups.map fun u => (0x1000 + u.seq % 64 * 64, u.args.flatMap b8)) ++
  [(0x2000, (List.range 128).flatMap fun g => leBytes 16 (((w.panes.find? fun p => p.base == g).map Pane.word).getD 0))] ++
  (w.slots.map fun s => (0x3000 + s * 0x4000, mem (accAt s) 0x4000)) ++
  (w.panes.flatMap fun p => (List.range p.ngr).map fun i => (0x43000 + (p.base + i) * 0x1000, mem (p.at_ + i * 0x1000) 0x1000))

/-- Writes the pieces of an area. -/
def Dev.writePieces (vf area : Nat) : List (Nat × List Byte) → Dev → Except FaultUnit Dev
  | [], d => .ok d
  | p :: l, d => do writePieces vf area l (← d.writeIpa vf (area + p.1) p.2)

/-- Saves a pre-empted walk (R221, step 4). -/
def Dev.saveWalk (d : Dev) (core : Nat) : Dev :=
  match (d.core core).walk with
  | none => d
  | some w =>
    if !d.walkSaveReady core then d
    else
      let d := d.updHub fun h => h.takeArea w.ctx (walkOwner core) w.saveLen
      match d.area? w.ctx (walkOwner core) w.saveLen with
      | none => d
      | some a =>
        match Dev.writePieces (d.vfOf w.ctx) a ((0, w.position (d.walkId w) a) :: d.walkImages core w) d with
        | .error u => (d.addCase (.ring w.ctx) w.ctx [u] 0).1
        | .ok d =>
          let eng := { w with st := if w.st == .finished then .finished else .running, busy := none }
          { d.updCore core fun c => { c with walk := none, wstat := 0, wstall := 0 } with
            walks := d.walks ++ [{ core := core, area := a, eng := eng, abrt := none }] }

/-- WALK_GRACE_EXPIRY (R221): the grace is over, the walk is saved; a core. -/
def execWalkGraceExpiry (s : State) : Host.Outcome State Fault Refusal :=
  .next (s.onDev fun d => d.saveWalk d.arg.a)

/-! ## GROUP_RESTORE (R268, R269, R273) -/

/-- Where a restored fibre stands: at a barrier it waits again, everywhere else it issues its instruction again. -/
def Wait.restored : Wait → Wait
  | .bar n => .bar n
  | .tbar n => .tbar n
  | _ => .none

/-- Whether a launch still waits for the room that an eviction makes for it (R365). -/
def Dev.makesRoom (d : Dev) (lid : Nat) : Bool := match d.launch? lid with | some l => l.open_ && d.hub.ctxRuns l.ctx | none => false

/-- Whether nothing but room keeps a saved group from being restored: its context runs, no STOP of the monitor holds it, no fault record
of it waits for the driver, and the launch it was evicted for has been placed (R266, R273, R365, R404). -/
def Dev.eligible (d : Dev) (s : Saved) : Bool :=
  d.hub.ctxRuns s.group.ctx && !s.halted && !d.makesRoom s.for_ &&
  !(d.hub.frecs.any fun r => r.gid == some s.group.gid) &&
  match d.hub.ctx? s.group.ctx with
  | none => false
  | some c => !(c.frecs.any fun r => r.2 == s.group.gid)

/-- The limits of R268 on a core. -/
def Dev.mayRestore (d : Dev) (s : Saved) (core : Nat) : Bool :=
  let g := s.group
  let own := core == g.core
  let mates := d.groups.filter fun x => x.lid == g.lid && x.teamid == g.teamid && x.gid != g.gid
  let walk := d.walks.any fun x => x.eng.prod == g.gid || x.eng.cons == g.gid
  decide (core < 512) && (own || !(g.gwx || s.recLive || walk || s.partial_)) &&
  mates.all fun x => clusterOf x.core == clusterOf core

/-- A live recursion is back on its core (R241): the engine has its state from the arena header again, what the header does not hold stays
(log 66); the fibres that were waiting for it are to join it again. -/
def Dev.recBack (d : Dev) (core slot : Nat) (waiting : List Nat) : Dev :=
  match (d.core core).rec_ with
  | none => d
  | some r =>
    let h := (List.range 0x140).map fun i => d.ms.avail core (slotBase core + r.abase + i)
    d.setRec core { r.reload h with saved := false, slot := slot, away := waiting }

/-- Places the warps and fibres of a saved group on a core: slots lowest first, windows in WARPID order; nothing where the core
lacks room. Extents come back at their old places (log 24). -/
def Dev.putBack (d : Dev) (s : Saved) (core : Nat) : Option Dev :=
  let g := s.group
  let slots := (d.freeWarpSlots core g.cls).take s.warps.length
  let extents := s.partial_ || ((g.spad.all fun e => (List.range e.len).all fun i => d.unitFree core (e.first + i)) &&
    (g.aslots.all (d.slotFree core)) && decide ((d.core core).shut.length + g.holds.length ≤ 32))
  if slots.length != s.warps.length || !extents then none
  else match d.fitWindows core g.cls (s.fibres.map fun f => (f.lane, f.win.length)) [] with
    | none => none
    | some bases =>
      let slotOf (wid : Nat) : Nat := (((s.warps.zip slots).find? fun p => p.1.warpid == wid).map Prod.snd).getD 0
      let back (p : Fibre × Nat) : Fibre :=
        { p.1 with core := core, slot := slotOf p.1.warpid, winbase := p.2, wait := p.1.wait.restored, age := d.cycle
                   ready := d.cycle + 1, infl := [], pace := {} }
      let ws := s.warps.map fun w => { w with core := core, slot := slotOf w.warpid }
      let d := { d with
        fibres := d.fibres ++ (s.fibres.zip bases).map back
        warps := d.warps ++ ws
        saved := d.saved.filter fun x => !(x.group.gid == g.gid && x.partial_ == s.partial_) }
      let windows := (s.fibres.zip bases).map fun p => (p.1.lane, p.2, p.1.win.length)
      let d := (d.updHub fun h => h.freeArea g.ctx g.gid).giveOut core windows
        (if s.partial_ then [] else (g.spad.map fun e => (e.first * 4096, e.len * 4096)) ++ g.aslots.map fun a => (accAt a, 0x4000))
      if s.partial_ then
        some (d.updGroup g.gid fun x => { x with slots := sortBy id (x.slots ++ slots) })
      else
        let streams := g.holds.map fun h => streamShut { g with core := core } h.entry h.page
        let d := d.updCore core fun c => { c with shut := c.shut ++ streams }
        let d := match (d.core core).rec_ with
          | some r =>
            let wid := ((s.warps.find? fun (w : Warp) => w.slot == r.slot).map Warp.warpid).getD 0
            if r.gid == g.gid then d.recBack core (slotOf wid) ((s.fibres.filter fun (f : Fibre) => f.warpid == wid && f.wait == Wait.recur).map Fibre.lane)
            else d
          | none => d
        let g := { g with core := core, slots := slots, stat := if s.replay then .descheduled else .running }
        some (({ d with groups := d.groups ++ [g] }.acquire core Scope.system).tryResume g.gid)

/-- Restores a saved group on a core, without a walk. -/
def Dev.restoreGroup (d : Dev) (s : Saved) (core : Nat) : Option Dev :=
  if !(d.eligible s && d.mayRestore s core) then none
  else match d.readSaved s with
    | .error u => some (d.addCase (.ring s.group.ctx) s.group.ctx [u] 0).1
    | .ok s => d.putBack s core

/-- A pane as the pane directory holds it: filled and in-use panes return as filled (R223). -/
def Pane.reload (p : Pane) (w : Nat) : Pane :=
  { p.install w with st := if bitsOf w 80 2 == 1 then .reserved else .filled }

/-- A walk's engine on resumption (R223): withdrawn upcalls are raised again as they were, delivered ones are bound to the warp
that holds them. -/
def Dev.wakeWalk (d : Dev) (x : SavedWalk) (dir : List Byte) : Dev :=
  let slotOf (seq : Nat) : Nat := ((d.warps.find? fun w => w.core == x.core && w.occ == some seq).map Warp.slot).getD 0
  let up (u : Upcall) : Upcall :=
    match u.st with
    | .withdrawn => { u with st := .queued }
    | .delivered _ => { u with st := .delivered (slotOf u.seq) }
    | .queued => u
  let eng := { x.eng with
    ups := x.eng.ups.map up, offered := [none, none, none]
    panes := x.eng.panes.map fun p => p.reload (fieldOf dir (16 * p.base) 16) }
  { d.setWalk x.core eng with walks := d.walks.erase x }.updHub fun h => h.freeArea eng.ctx (walkOwner x.core)

/-- Reloads the slots and granules of a saved walk from its images. -/
def Dev.reloadImages (d : Dev) (x : SavedWalk) : Except FaultUnit (List Byte × Dev) := do
  let vf := d.vfOf x.eng.ctx
  let dir ← d.readIpa vf (x.area + 0x2000) 0x800
  let ss ← x.eng.slots.mapM fun s => do pure (accAt s, ← d.readIpa vf (x.area + 0x3000 + s * 0x4000) 0x4000)
  let gs ← (x.eng.panes.flatMap fun p => (List.range p.ngr).map (p.base + ·)).mapM fun g => do
    pure (0x200000 + g * 0x1000, ← d.readIpa vf (x.area + 0x43000 + g * 0x1000) 0x1000)
  pure (dir, (ss ++ gs).foldl (fun d p => d.onchipPut x.core p.1 p.2) d)

/-- Restores a saved walk with both its role groups on its core (R223); one that an abort has reached is terminated instead,
which takes no room (R218). -/
def Dev.restoreWalk (d : Dev) (x : SavedWalk) : Dev :=
  if x.abrt.isSome then d.endSaved x (x.abrt.getD 8)
  else if (d.freeAccs x.core).length != 16 || !d.granulesFree x.core then d
  else match d.saved? x.eng.prod, d.saved? x.eng.cons with
    | some p, some c =>
      match (d.restoreGroup p x.core).bind fun e => e.restoreGroup c x.core with
      | none => d
      | some e =>
        if (e.saved? x.eng.prod).isSome || (e.saved? x.eng.cons).isSome then { d with hub := e.hub }
        else match e.reloadImages x with
          | .error u => (d.addCase (.ring x.eng.ctx) x.eng.ctx [u] 0).1
          | .ok r => r.2.wakeWalk x r.1
    | _, _ => d

/-- Restores a saved group, or the evicted warps of one, on a core. -/
def Dev.restore (d : Dev) (gid core : Nat) (part : Bool) : Dev :=
  match d.saved.find? fun s => s.group.gid == gid && s.partial_ == part with
  | none => d
  | some s =>
    match d.walks.find? fun x => x.eng.prod == gid || x.eng.cons == gid with
    | some x => if x.core == core && !part then d.restoreWalk x else d
    | none => (d.restoreGroup s core).getD d

/-- GROUP_RESTORE (R268); a gid, b core, flag: the evicted warps of a group. -/
def execGroupRestore (s : State) : Host.Outcome State Fault Refusal :=
  .next (s.onDev fun d => d.restore d.arg.a d.arg.b d.arg.flag)

/-! ## Energy (R266, R366) -/

/-- ENERGY_QUOTA_EXHAUSTED (R266): every warp of the context stops; a context. -/
def execEnergyQuotaExhausted (s : State) : Host.Outcome State Fault Refusal :=
  .next (s.onDev fun d =>
    match d.hub.ctx? d.arg.a with
    | none => d
    | some c =>
      let d := d.updHub fun h => ((h.updCtx c.no fun c => { c with quotaOut := true }).logLine 9 c.no c.no).note 6 (0x8000 + c.vf) c.no 0
      d.stopContext c.no fun _ => false)

/-- ENERGY_PERIOD_START (R366): the remaining energy is EQ again; a context. -/
def execEnergyPeriodStart (s : State) : Host.Outcome State Fault Refusal :=
  .next (s.onDev fun d => d.updHub fun h => h.updCtx d.arg.a fun c =>
    { c with energy := c.eq, quotaOut := false, period := if c.period ≤ d.cycle then c.period + 1050 * c.eper else c.period })

end Sys2Proof.Machine
end

