-- ==== Sys2Proof/Machine/Queue.lean ====
section
/-! DEFINITION. User queues (19: R342 to R346, R353, R359 to R363): descriptors, the fetcher, mapping, and completion words that
had to wait (R358). -/

namespace Sys2Proof.Machine

/-! ## Reads of the hub (R346, R355) -/

/-- `n` double-words at a virtual address, read by the hub. -/
def Dev.hubWords (d : Dev) (ctx va n : Nat) : Except FaultUnit (List Byte) := do
  let ps ← (List.range n).mapM fun i => do
    let a ← d.translateHub ctx ((va + 8 * i) % 2 ^ 48) 1
    pure (d.ms.readHub a 8)
  pure ps.flatten

/-- 64 bytes at a 64-aligned virtual address: one single-copy read. -/
def Dev.hubHalf (d : Dev) (ctx va : Nat) : Except FaultUnit (List Byte) := do
  let a ← d.translateHub ctx va 1
  pure (d.ms.readHub a 64)

/-- `n` times 64 bytes at a 64-aligned virtual address, each translated by itself (R190). -/
def Dev.hubLines (d : Dev) (ctx va n : Nat) : Except FaultUnit (List Byte) := do
  let ps ← (List.range n).mapM fun i => d.hubHalf ctx ((va + 64 * i) % 2 ^ 48)
  pure ps.flatten

/-! ## Driver resets (R342, R346) -/

/-- The driver resets a queue, whose descriptor is then read again; a queue it first creates is only made known (R342). -/
def Dev.queueReset (d : Dev) (desc : Nat) : Dev :=
  let qid := fieldOf (d.ms.readHub desc 64) 0xC 2
  match d.hub.queue? qid with
  | some q => d.loadQueue qid desc q.live
  | none => d.updHub fun h => h.setQueue { queueOf qid [] desc false [] with fresh := true }

/-- QUEUE_RESET (R342, R346); a the address of the descriptor. -/
def execQueueReset (s : State) : Host.Outcome State Fault Refusal := .next (s.onDev fun d => d.queueReset d.arg.a)

/-! ## The fetcher (R343, R346) -/

/-- The mark of an index (R343). -/
def markOf (i : BitVec 32) (size : Nat) : Nat := 1 - i.toNat / 2 ^ size % 2

/-- The virtual address of the slot of an index. -/
def Queue.slotVa (q : Queue) (i : BitVec 32) : Nat := (q.ring + 128 * (i.toNat % 2 ^ q.size)) % 2 ^ 48

/-- What one look of the fetcher brings. -/
inductive Fetch where
  | packet (b : List Byte)
  /-- Half 1 has been read, half 0 not yet. -/
  | half
  | mismatch
  | nothing
  | unmapped
  | fault
  deriving DecidableEq, Repr

/-- A queue whose ring or RIDXA access cannot be translated stops (R346). -/
def Dev.queueFault (d : Dev) (q : Queue) (va : Nat) : Dev :=
  (d.updHub fun h => h.setQueue { q with stopped := true, half := [] }).addRec (bareRec q.ctx (pfCause 3) (vaOf va) 0)

/-- Half 0 of the packet at F, whose half 1 is read: F advances and goes to RIDXA, with a release at SYSTEM scope. -/
def Dev.fetchRest (d : Dev) (q : Queue) (half1 : List Byte) : Fetch × Dev :=
  match d.hubHalf q.ctx (q.slotVa q.f) with
  | .error _ => (.fault, d.queueFault q (q.slotVa q.f))
  | .ok half0 =>
    let q := { q with f := q.f + 1, half := [] }
    match d.translateHub q.ctx q.ridx 2 with
    | .error _ => (.fault, d.queueFault q q.ridx)
    | .ok a => (.packet (half0 ++ half1), (d.updHub fun h => h.setQueue q).updMs fun ms => ms.poke .hub a (leBytes 4 q.f.toNat))

/-- The fetch of R346, once: half 1 and its mark, then half 0; `part` leaves half 0 to a later look. -/
def Dev.fetchOne (d : Dev) (q : Queue) (part : Bool) : Fetch × Dev :=
  if q.hw.isNone || q.stopped then (.unmapped, d)
  else if !q.behind then (.nothing, d)
  else if !q.half.isEmpty then d.fetchRest q q.half
  else match d.hubHalf q.ctx (q.slotVa q.f + 64) with
    | .error _ => (.fault, d.queueFault q (q.slotVa q.f + 64))
    | .ok half1 =>
      if fieldOf half1 63 1 != markOf q.f q.size then (.mismatch, d.updHub fun h => h.setQueue { q with paused := true })
      else if part then (.half, d.updHub fun h => h.setQueue { q with half := half1 })
      else d.fetchRest q half1

/-- The number of the first KICK write that covered an index (R357), and those that still cover later ones. -/
def coverOf (i : BitVec 32) : List (Nat × BitVec 32) → Nat × List (Nat × BitVec 32)
  | [] => (0, [])
  | k :: l => if 1 ≤ (k.2 - i).toNat ∧ (k.2 - i).toNat < 2 ^ 31 then (k.1, k :: l) else coverOf i l

/-- The fetcher of a queue fetches into its pending list (R346, R353). -/
def Dev.fetchQueue (d : Dev) (qid : Nat) (part : Bool) : Dev :=
  match d.hub.queue? qid with
  | none => d
  | some q =>
    let r := d.fetchOne q part
    match r.1, r.2.hub.queue? qid with
    | .packet b, some x =>
      let c := coverOf q.f x.kicks
      r.2.updHub fun h => h.setQueue { x with kicks := c.2, pend := x.pend ++ [⟨q.f, c.1, b⟩] }
    | _, _ => r.2

/-- Whether the fetcher of a queue has something to look at. -/
def Queue.fetchReady (q : Queue) : Bool := q.hw.isSome && !q.stopped && !q.paused && q.behind

/-- PACKET_FETCH (R346): the fetcher looks, unless it is paused; a queue, flag: half 1 only. -/
def execPacketFetch (s : State) : Host.Outcome State Fault Refusal :=
  .next (s.onDev fun d =>
    match d.hub.queue? d.arg.a with
    | some q => if q.paused then d else d.fetchQueue d.arg.a d.arg.flag
    | none => d)

/-- A paused fetcher looks again (R346). -/
def Dev.fetchRetry (d : Dev) (qid : Nat) : Dev :=
  match d.hub.queue? qid with
  | none => d
  | some q =>
    if q.paused && q.hw.isSome && q.behind then
      (d.updHub fun h => h.setQueue { q with paused := false }).fetchQueue qid false
    else d

/-- FETCHER_RETRY (R346): every 1 µs; a queue. -/
def execFetcherRetry (s : State) : Host.Outcome State Fault Refusal := .next (s.onDev fun d => d.fetchRetry d.arg.a)

/-! ## Mapping (R359 to R362) -/

/-- Effective priority of a class after a waiting time (R361): one more for every 100 µs. -/
def Hub.priority (h : Hub) (cls wait : Nat) : Nat := min (nth h.base cls 0 + wait / 160000) (nth h.ceil cls 0)

/-- 250 µs in hub cycles (R3, R360). -/
def overdueAt : Nat := 400000

/-- Rank of an unmapped queue (R360): overdue, longest first; priority; waiting time; QID. -/
def Hub.rank (h : Hub) (q : Queue) : Nat :=
  let late := decide (overdueAt ≤ q.wait)
  (if late then 2 ^ 40 - q.wait else 2 ^ 41) * 2 ^ 80 + (15 - h.priority q.cls q.wait) * 2 ^ 70 + (2 ^ 40 - q.wait) * 2 ^ 20 + q.qid

/-- The queue an overdue one displaces (R360): lowest class base, then mapped longest, then higher QID. -/
def Hub.victim (h : Hub) : Option Queue :=
  let general (q : Queue) : Bool := match q.hw with | some s => decide (h.rsv0 ≤ s) && decide (1 ≤ q.ticks) | none => false
  minBy (fun q => nth h.base q.cls 0 * 2 ^ 80 + (2 ^ 40 - q.ticks) * 2 ^ 20 + (65536 - q.qid)) (h.queues.filter general)

/-- Maps one ranked queue if it can be (R360). -/
def Hub.mapOne (h : Hub) (q : Queue) : Hub :=
  match ((List.range 256).drop h.rsv0).find? h.slotEmpty with
  | some s => h.mapQueue q s
  | none =>
    if q.wait < overdueAt then h
    else match h.victim with
      | none => h
      | some v => (h.setQueue { v with hw := none, ticks := 0, wait := 0 }).mapQueue q (v.hw.getD 0)

/-- What a tick does to a queue before the ranking (R359): a mapped one without work is unmapped. -/
def Queue.atTick (q : Queue) : Queue :=
  if q.hw.isSome then (if q.hasWork then { q with ticks := q.ticks + 1 } else { q with hw := none, ticks := 0 }) else q

/-- A mapping tick (R360): line 1 rises, and Corgon remaps the general slots. -/
def Hub.mapTick (h : Hub) : Hub :=
  let h := { h.raiseLine 1 with queues := h.queues.map Queue.atTick, mapTicks := h.mapTicks + 1 }
  (sortBy h.rank (h.queues.filter h.wants)).foldl Hub.mapOne h

/-- MAPPING_TICK (R360). -/
def execMappingTick (s : State) : Host.Outcome State Fault Refusal := .next (s.onDev fun d => d.updHub Hub.mapTick)

/-! ## Completion words that waited (R358) -/

/-- Whether a launch's completion word can be written now. -/
def Dev.wordReady (d : Dev) (l : Launch) : Bool := l.finished && l.wordDue && !d.waits (.compl l.lid)

/-- COMPLETION_WORD_WRITE (R358): the page requests of a completion word have succeeded; a launch. -/
def execCompletionWordWrite (s : State) : Host.Outcome State Fault Refusal :=
  .next (s.onDev fun d =>
    match d.launch? d.arg.a with
    | some l => if d.wordReady l then d.writeCompl l else d
    | none => d)

end Sys2Proof.Machine
end

