-- ==== Sys2Proof/Machine/Launch.lean ====
section
/-! DEFINITION. Packets (19: R349 to R355), placing and releasing groups (R356, R357), and the dispatch of walks (08: R187, R190). -/

namespace Sys2Proof.Machine

/-! ## The packet (R349 to R351) -/

/-- Whether a number lies between limits. -/
def inLimits (x lo hi : Nat) : Bool := decide (lo ≤ x) && decide (x ≤ hi)

/-- Whether a team of `gpt` cores from CORE0 on, counted team by team, crosses clusters (R351). -/
def teamCrosses (core0 gpt teams : Nat) : Bool :=
  (List.range teams).any fun t => clusterOf (core0 + t * gpt) != clusterOf (core0 + t * gpt + gpt - 1)

/-- The body checks of a LAUNCH. -/
def badLaunch (b : List Byte) (fixed : Bool) (core0 : Nat) : Bool :=
  let f (o : Nat) : Nat := fieldOf b o 1
  let teams := fieldOf b 0x6C 2
  !goodAddr (fieldOf b 0x60 8) 4 || !inLimits (f 0x68) 1 32 || !inLimits (f 0x69) 1 32 || !inLimits (f 0x6A) 1 16 ||
  !inLimits (f 0x6B) 1 16 || !inLimits teams 1 4096 || 128 < f 0x6E || 16 < f 0x6F || fieldOf b 0x70 15 != 0 ||
  (fixed && (decide (512 < core0 + teams * f 0x6B) || teamCrosses core0 (f 0x6B) teams))

/-- The body checks of a WALK. -/
def badWalkPacket (b : List Byte) (fixed : Bool) (core0 ncore : Nat) : Bool :=
  let f (o : Nat) : Nat := fieldOf b o 1
  !goodAddr (fieldOf b 0x60 8) 1 || !goodAddr (fieldOf b 0x68 8) 4 || !goodAddr (fieldOf b 0x70 8) 4 ||
  !inLimits (f 0x78) 1 32 || !inLimits (f 0x79) 1 16 || !inLimits (f 0x7A) 1 32 || !inLimits (f 0x7B) 1 16 || 128 < f 0x7C ||
  fieldOf b 0x7D 2 != 0 || (fixed && decide (512 < core0 + ncore))

/-- The body checks of a RECUR. -/
def badRecurPacket (b : List Byte) : Bool :=
  let f (o : Nat) : Nat := fieldOf b o 1
  !goodAddr (fieldOf b 0x60 8) 4 || !goodAddr (fieldOf b 0x68 8) 64 || !inLimits (f 0x70) 1 32 || !inLimits (f 0x71) 1 16 ||
  128 < f 0x72 || fieldOf b 0x73 12 != 0

/-- The body checks of an EVENT. -/
def badEventPacket (b : List Byte) : Bool := 8 < fieldOf b 0x68 1 || fieldOf b 0x69 22 != 0

/-- CORE0, NCORE and FIXED of a packet. -/
def packetPlace (b : List Byte) : Nat × Nat × Bool :=
  let p := fieldOf b 0x18 8
  (bitsOf p 0 9, bitsOf p 16 9 + 1, bitsOf p 63 1 == 1)

/-- Whether a packet is rejected on its own bytes (R351). -/
def badPacket (b : List Byte) : Bool :=
  let p := fieldOf b 0x18 8
  let w := packetPlace b
  3 < fieldOf b 1 1 || 16 < fieldOf b 2 1 || 8 < fieldOf b 3 1 || fieldOf b 4 4 != 0 || !goodAddr (fieldOf b 8 8) 8 ||
  !goodAddr (fieldOf b 0x10 8) 8 || bitsOf p 9 7 != 0 || bitsOf p 25 38 != 0 ||
  match fieldOf b 0 1 with
  | 1 => badLaunch b w.2.2 w.1
  | 2 => badWalkPacket b w.2.2 w.1 w.2.1
  | 3 => badRecurPacket b
  | 4 => badEventPacket b
  | _ => true

/-- A 256-bit mask of a packet. -/
def packetMask (b : List Byte) (off : Nat) : EvVec := BitVec.ofNat 256 (fieldOf b off 32)

/-- The launch a packet describes (R350); COMPL counts only where a word can be written. -/
def launchOf (p : Pend) (q : Queue) (lid : Nat) (launchid : BitVec 32) (now : Nat) : Launch :=
  let b := p.bytes
  let f (o : Nat) : Nat := fieldOf b o 1
  let w := packetPlace b
  let compl := fieldOf b 0x10 8
  let l : Launch := { Launch.empty with
    lid := lid, ctx := q.ctx, qid := q.qid, cls := q.cls, launchid := launchid, set := packetMask b 0x40
    compl := if goodAddr compl 8 then compl else 0, fixed := w.2.2, core0 := w.1, ncore := w.2.1, kickOrder := p.order
    since := now }
  match f 0 with
  | 2 => { l with kind := .walk, recA := fieldOf b 0x60 8, entry := BitVec.ofNat 48 (fieldOf b 0x68 8)
                  centry := BitVec.ofNat 48 (fieldOf b 0x70 8), nfib := 32, warps := f 0x78, win := f 0x79, cwarps := f 0x7A
                  cwin := f 0x7B, spad := f 0x7C }
  | 3 => { l with kind := .recur, entry := BitVec.ofNat 48 (fieldOf b 0x60 8), warps := 1, nfib := f 0x70, win := f 0x71
                  spad := f 0x72 }
  | _ => { l with entry := BitVec.ofNat 48 (fieldOf b 0x60 8), warps := f 0x68, nfib := f 0x69, win := f 0x6A, gpt := f 0x6B
                  teams := fieldOf b 0x6C 2, spad := f 0x6E, aslots := f 0x6F }

/-! ## Taking a packet (R353 to R355) -/

/-- Whether the head of a queue's pending list is taken (R353). -/
def Dev.headReady (d : Dev) (q : Queue) : Bool :=
  match q.pend with
  | [] => false
  | p :: _ =>
    let wait := packetMask p.bytes 0x20
    let events := ((d.hub.ctx? q.ctx).map Ctx.events).getD 0
    q.hw.isSome && d.hub.ctxRuns q.ctx && wait &&& events == wait && (bitsOf (fieldOf p.bytes 1 1) 0 1 == 0 || q.live.isEmpty)

/-- A launch completes at once with a status (R351, R354, R355). -/
def Dev.failLaunch (d : Dev) (lid status : Nat) : Dev := (d.updLaunch lid fun l => { l with status := status }).complete lid

/-- Whether a recursion image is rejected (R350, R351): its field checks, LANES, and SPAD too small for object and arena. ABASE counts
from the extent's first byte. -/
def badImage (img : List Byte) (nfib spad : Nat) : Bool :=
  let o := recObj img
  o.badField.isSome || nfib < o.lanes || spad * 4096 < o.abase + o.asize || spad == 0 || overlaps o.abase o.asize 0 64 ||
  o.asize < 0x140 + 64 + o.fsize

/-- 64-bit words of bytes. -/
def words (b : List Byte) (n : Nat) : List W64 := (List.range n).map fun i => BitVec.ofNat 64 (fieldOf b (8 * i) 8)

/-- Clears the listed bits of an EVENT packet (R354). -/
def clrBits (b : List Byte) : EvVec := (List.range (fieldOf b 0x68 1)).foldl (fun m i => m ||| (1 <<< fieldOf b (0x60 + i) 1)) 0

/-- What follows a packet whose own bytes and propagation are in order (R354, step 3): its reads; then it waits for placement. -/
def Dev.readArgs (d : Dev) (l : Launch) (b : List Byte) : Dev :=
  let nk := fieldOf b 2 1
  let nl := fieldOf b 3 1
  let arg := if nk + nl == 0 then .ok [] else d.hubWords l.ctx (fieldOf b 8 8 % 2 ^ 48) (nk + nl)
  let img := if fieldOf b 0 1 == 3 then d.hubHalf l.ctx (fieldOf b 0x68 8 % 2 ^ 48) else .ok []
  match arg, img with
  | .ok a, .ok img =>
    let ws := words a (nk + nl)
    if fieldOf b 0 1 == 3 && badImage img l.nfib l.spad then d.failLaunch l.lid 1
    else if fieldOf b 0 1 == 4 then (d.updHub fun h => h.clrEvents l.ctx (clrBits b)).failLaunch l.lid 0
    else d.updLaunch l.lid fun l => { l with kargs := ws.take nk, largs := ws.drop nk, image := img }
  | _, _ => d.failLaunch l.lid 2

/-- Takes the head of a queue: its LAUNCHID, then the checks of R354 in order. -/
def Dev.takeHead (d : Dev) (q : Queue) (p : Pend) (rest : List Pend) : Dev :=
  match d.hub.ctx? q.ctx with
  | none => d
  | some c =>
    let l := launchOf p q d.hub.nextLid c.nextLaunch d.cycle
    let next := if c.nextLaunch == BitVec.allOnes 32 then 1 else c.nextLaunch + 1
    let d1 := d.updHub fun h =>
      { (h.setCtx { c with nextLaunch := next }).setQueue { q with pend := rest, live := q.live ++ [l.lid] } with
        launches := h.launches ++ [l], nextLid := h.nextLid + 1 }
    if badPacket p.bytes then d1.failLaunch l.lid 1
    else if bitsOf (fieldOf p.bytes 1 1) 1 1 == 1 && packetMask p.bytes 0x20 &&& c.errors != 0 then d1.failLaunch l.lid 4
    else d1.readArgs l p.bytes

/-- Takes the head of a queue if it is ready and its TYPE is one that `ofType` accepts. -/
def Dev.takeIf (d : Dev) (qid : Nat) (ofType : Nat → Bool) : Dev :=
  match d.hub.queue? qid with
  | none => d
  | some q =>
    match q.pend with
    | [] => d
    | p :: rest => if d.headReady q && ofType (fieldOf p.bytes 0 1) then d.takeHead q p rest else d

/-- LAUNCH (R350): the head of a queue is a LAUNCH packet, or of no known TYPE, which is rejected (R351); a queue. -/
def execLaunch (s : State) : Host.Outcome State Fault Refusal :=
  .next (s.onDev fun d => d.takeIf d.arg.a fun t => !(t == 2 || t == 3 || t == 4))

/-- WALK (R187): the head of a queue is a WALK packet; a queue. -/
def execWalk (s : State) : Host.Outcome State Fault Refusal := .next (s.onDev fun d => d.takeIf d.arg.a fun t => t == 2)

/-- RECUR_PACKET (R350); a queue. -/
def execRecurPacket (s : State) : Host.Outcome State Fault Refusal := .next (s.onDev fun d => d.takeIf d.arg.a fun t => t == 3)

/-- EVENT (R354); a queue. -/
def execEvent (s : State) : Host.Outcome State Fault Refusal := .next (s.onDev fun d => d.takeIf d.arg.a fun t => t == 4)

/-! ## Placing one group (R356) -/

/-- A group to place. -/
structure Shape where
  role : Role
  entry : Addr48
  warps : Nat
  nfib : Nat
  win : Nat
  teamid : Nat
  groupid : Nat
  deriving DecidableEq, Repr

/-- The shape of a group of a launch. -/
def Launch.shape (l : Launch) (team n : Nat) : Shape := ⟨.plain, l.entry, l.warps, l.nfib, l.win, team, n⟩
/-- The producer group of a walk on its core number `n`. -/
def Launch.producer (l : Launch) (n : Nat) : Shape := ⟨.producer, l.entry, l.warps, 32, l.win, n, 0⟩
/-- The consumer group of a walk on its core number `n`. -/
def Launch.consumer (l : Launch) (n : Nat) : Shape := ⟨.consumer, l.centry, l.cwarps, 32, l.cwin, n, 1⟩

/-- A fibre at its release (R15, R32): its window holds the lane arguments, everything else is at its reset value. -/
def launchFibre (core slot lane warpid : Nat) (helper : Bool) (entry : Addr48) (base size : Nat) (largs : List W64) (now mark : Nat) :
    Fibre :=
  { core := core, slot := slot, lane := lane, warpid := warpid, helper := helper, pc := entry, winbase := base
    win := (List.range size).map fun i => nth largs i 0, pred := 0, lp0 := {}, lp1 := {}, lp2 := {}, fpctl := 0, trapcause := 0
    trappc := 0, trapaddr := 0, ilenc := 0, ilf0 := 0, ilf1 := 0, ilf2 := 0, ilf3 := 0, rec_ := 0, repc := 0, mdone := 0
    wait := .none, age := now, ready := now + 1, infl := [], outst := [], late := none, trapped := false, units := [], cohort := mark }

/-- A warp at its release. -/
def launchWarp (core slot gid warpid : Nat) : Warp :=
  { core := core, slot := slot, gid := gid, warpid := warpid, kd := List.replicate 9 0, pend := List.replicate 16 none, evmask := 0
    occ := none, masked := false, budget := 0, park := none, stopping := false }

/-- The uniform registers a group starts with (R27, R355, R368); `unit` is the first unit of its extent. -/
def Launch.uniforms (l : Launch) (unit : Nat) : List W64 :=
  let ks := if l.kind == .bin then l.kargs.set 2 (BitVec.ofNat 64 (unit * 4096)) else l.kargs
  (List.range 55).map fun i => nth ks i 0

/-- Puts a group on a core: warp slots, accumulator slots, first unit, window bases in order (R24, R356). -/
def Dev.putGroup (d : Dev) (core : Nat) (l : Launch) (x : Shape) (slots accs : List Nat) (unit : Nat) (bases : List Nat) : Dev :=
  let gid := d.hub.nextGid
  let mark := cohortAt d.free x.entry 3
  let spots := slots.zipIdx.flatMap fun s => (lanesFor x.nfib).map fun l => (s.1, s.2, l)
  let fibre (p : (Nat × Nat × Nat) × Nat) : Fibre :=
    launchFibre core p.1.1 p.1.2.2 p.1.2.1 (decide (x.nfib ≤ p.1.2.2)) x.entry p.2 (x.win * 8) l.largs d.cycle mark
  let g : Group :=
    { Group.none_ with
      gid := gid, ctx := l.ctx, core := core, cls := l.cls, lid := l.lid, launchid := l.launchid, teamid := x.teamid
      groupid := x.groupid, entry := x.entry, role := x.role, slots := slots, ks := l.uniforms unit
      spad := if l.spad == 0 then [] else [⟨unit, l.spad⟩], aslots := accs, born := d.cycle }
  let d := { d with
    fibres := d.fibres ++ (spots.zip bases).map fibre
    warps := d.warps ++ slots.zipIdx.map fun (s : Nat × Nat) => launchWarp core s.1 gid s.2
    groups := d.groups ++ [g], free := d.free + 1 }
  let d := d.updHub fun h => { h with nextGid := h.nextGid + 1 }
  let d := (d.updLaunch l.lid fun l => { l with livegroups := l.livegroups + 1 }).acquire core Scope.system
  let d := d.giveOut core ((spots.zip bases).map fun p => (p.1.2.2, p.2, x.win * 8))
    ((if l.spad == 0 then [] else [(unit * 4096, l.spad * 4096)]) ++ accs.map fun a => (accAt a, 0x4000))
  if l.image.isEmpty then d else d.onchipPut core (unit * 4096) l.image

/-- Places a group on a core if the core has all of its resources free at once (R356); `code` is the class whose room it takes. -/
def Dev.placeGroup (d : Dev) (core code : Nat) (l : Launch) (x : Shape) : Option Dev :=
  let slots := (d.freeWarpSlots core code).take x.warps
  let accs := if l.aslots == 0 then [] else (d.freeAccs core).take l.aslots
  let unit := if l.spad == 0 then some 0 else d.freeUnits core code l.spad
  if slots.length != x.warps || accs.length != l.aslots then none
  else match unit, d.fitWindows core code (shapeWindows x.warps x.nfib x.win) [] with
    | some u, some bases => some (d.putGroup core l x slots accs u bases)
    | _, _ => none

/-! ## Placing the teams of a launch (R356, R357) -/

/-- Whether groups of a launch need accumulator slots. -/
def Launch.needsAccs (l : Launch) : Bool := l.kind == .walk || l.aslots != 0

/-- The class whose room a launch may take on a core, behind the launches that come before it (R357): a packet passed over for 100 µs
leaves a later one nothing there of the kinds it needs but, for class 0, the reserve. Every packet needs warp slots and windows. -/
def codeOn (ahead : List Launch) (l : Launch) (core : Nat) : Option Nat :=
  let bs := ahead.filter fun b => b.blocking && b.mayUse core
  if bs.isEmpty then some l.cls
  else if l.cls == 0 && !(l.needsAccs && bs.any Launch.needsAccs) then some (if bs.all fun b => b.spad == 0 then 5 else 4)
  else none

/-- Places a group of a launch on a core; a RECUR also needs the core's unfolding engine, and its recursion starts (R350). -/
def Dev.placeOn (d : Dev) (ahead : List Launch) (l : Launch) (x : Shape) (core : Nat) : Option Dev :=
  match codeOn ahead l core with
  | none => none
  | some code =>
    if l.kind != .recur then d.placeGroup core code l x
    else if (d.core core).rec_.isSome then none
    else
      let gid := d.hub.nextGid
      (d.placeGroup core code l x).map fun d =>
        match d.group? gid with
        | none => d
        | some g =>
          let at_ := ((g.spad.head?).map Extent.first).getD 0 * 4096
          let o := recObj l.image
          d.recBegin core gid ((g.slots.head?).getD 0) at_ { o with abase := o.abase + at_ } (l.entry - 4)

/-- Places the groups of a team, `cands n` being the cores where group `n` may go (R356); the choice among cores with room is open
(log 18). -/
def Dev.placeGroups (d : Dev) (ahead : List Launch) (l : Launch) (team : Nat) (cands : Nat → List Nat) : Nat → Option Dev
  | 0 => some d
  | n + 1 =>
    (d.placeGroups ahead l team cands n).bind fun d =>
      let fits := (cands n).filter fun c => (d.placeOn ahead l (l.shape team n) c).isSome
      if fits.isEmpty then none
      else
        let ch := d.choose
        ch.2.placeOn ahead l (l.shape team n) (nth fits (ch.1 % fits.length) 0)

/-- Places a team of a launch (R356): with FIXED on its cores; a bin's group in its cluster; else in one cluster. -/
def Dev.placeTeam (d : Dev) (ahead : List Launch) (l : Launch) (team : Nat) : Option Dev :=
  let inCluster (c _ : Nat) : List Nat := (List.range 16).map fun i => c * 16 + i
  if l.fixed then d.placeGroups ahead l team (fun n => [l.core0 + team * l.gpt + n]) l.gpt
  else if l.kind == .bin then d.placeGroups ahead l team (inCluster (clusterOf l.core0)) l.gpt
  else
    let fits := (List.range 32).filter fun c => (d.placeGroups ahead l team (inCluster c) l.gpt).isSome
    if fits.isEmpty then none
    else
      let ch := d.choose
      ch.2.placeGroups ahead l team (inCluster (nth fits (ch.1 % fits.length) 0)) l.gpt

/-- Marks a team of a launch placed; what has been evicted for it may come back (R365). -/
def Dev.markPlaced (d : Dev) (lid team : Nat) : Dev :=
  { d.updLaunch lid fun l => { l with placed := l.placed ++ [team] } with
    saved := updWhere (fun s => s.for_ == lid) (fun s => { s with for_ := 0 }) d.saved }

/-- Places the first team of a launch that fits; the groups of a team are released together (R356). -/
def Dev.placeSome (d : Dev) (ahead : List Launch) (l : Launch) : Option Dev :=
  ((List.range l.teams).filter fun t => !l.placed.contains t).findSome? fun t =>
    (d.placeTeam ahead l t).map fun d => d.markPlaced l.lid t

/-! ## The dispatch of a walk (R187, R189, R190) -/

/-- The fields of a problem record (R189). -/
def walkRec (b : List Byte) : WalkRec :=
  let f (o n : Nat) : Nat := fieldOf b o n
  let bit (i : Nat) : Bool := bitsOf (f 2 2) i 1 == 1
  { absmax := bit 0, acol := bit 1, bcol := bit 2, serp := bit 3, cinit := bit 4, epi := f 4 1, topk := f 5 1
    fmta := f 6 1 / 16, fmtb := f 6 1 % 16, kext := bitsOf (f 7 1) 0 2, had := bitsOf (f 7 1) 2 2, look := bitsOf (f 7 1) 4 2
    m := f 8 4, n := f 0xC 4, k := f 0x10 4, srows := f 0x14 1 % 16, scols := f 0x14 1 / 16, cmin := f 0x15 1, cmax := f 0x16 2
    wctr := f 0x18 8, amax := f 0x20 8, ptok := BitVec.ofNat 32 (f 0x28 4), ctok := BitVec.ofNat 32 (f 0x2C 4)
    ntok := BitVec.ofNat 32 (f 0x30 4), user := BitVec.ofNat 64 (f 0x38 8) }

/-- Whether the dispatcher rejects a record (R190), its address aside. -/
def badWalk (b : List Byte) : Bool :=
  let r := walkRec b
  let toks := [r.ptok, r.ctok] ++ (if r.epi == 1 then [r.ntok] else [])
  fieldOf b 0 2 != 1 || fieldOf b 2 2 / 32 != 0 || fieldOf b 7 1 / 64 != 0 || fieldOf b 0x34 4 != 0 || fieldOf b 0x40 192 != 0 ||
  3 < r.epi || 4 < r.fmta || 4 < r.fmtb || 1 < r.kext || r.had == 3 || r.look == 0 || r.m == 0 || r.n == 0 || r.k == 0 ||
  r.srows == 0 || r.scols == 0 || 8 < r.srows * r.scols || r.cmin == 0 || r.cmax < r.cmin ||
  (if r.isTop then !inLimits r.topk 1 16 else r.topk != 0) || (r.absmax && r.isTop) ||
  (r.had != 0 && (r.fmta < 2 || r.fmtb < 2)) || !goodAddr r.wctr 8 || !goodAddr r.amax 4 ||
  (toks.any fun t => tokKind t != 4) || (dedup toks).length != toks.length || (r.ntok != 0 && r.epi != 1)

/-- Both role groups of a walk on one core (R187): placed when twice their warps in warp slots, every accumulator slot and every granule
are free as well. -/
def Dev.walkOn (d : Dev) (ahead : List Launch) (l : Launch) (n core : Nat) : Option Dev :=
  match codeOn ahead l core with
  | none => none
  | some code =>
    if decide ((d.freeWarpSlots core code).length < 2 * (l.warps + l.cwarps)) || (d.freeAccs core).length != 16 || !d.granulesFree core
    then none
    else (d.placeGroup core code l (l.producer n)).bind fun d => d.placeGroup core code l (l.consumer n)

/-- Chooses the cores of a walk: NCORE different ones with room. -/
def Dev.walkCores (d : Dev) (ahead : List Launch) (l : Launch) : Option (List Nat × Dev) :=
  let fits (c : Nat) : Bool := (d.walkOn ahead l 0 c).isSome
  if l.fixed then
    let cs := (List.range l.ncore).map (l.core0 + ·)
    if cs.all fits then some (cs, d) else none
  else
    let all := (List.range 512).filter fits
    if all.length < l.ncore then none
    else
      let pick (x : List Nat × List Nat × Dev) (_ : Nat) : List Nat × List Nat × Dev :=
        let ch := x.2.2.choose
        let c := nth x.2.1 (ch.1 % x.2.1.length) 0
        (x.1 ++ [c], x.2.1.filter (· != c), ch.2)
      let r := (List.range l.ncore).foldl pick ([], all, d)
      some (r.1, r.2.2)

/-- The engine of a walk on a core at its release (R192). -/
def walkEngine (l : Launch) (r : WalkRec) (cores : List Nat) (prod cons : Nat) : WalkEng :=
  { lid := l.lid, ctx := l.ctx, recA := l.recA, rcd := r, cores := cores, prod := prod, cons := cons, st := .running, first := true
    oldPrev := 0, chunkPrev := 0, noMore := false, drawDue := true, units := [], todo := [], window := [], tops := []
    offered := [none, none, none], panes := [], slots := [], ups := [], nseq := 0, raise := [], busy := none, stopAt := (0, 0)
    grace := 0, stall := 0, started := false }

/-- Releases a walk's groups on all its cores and starts its engines. -/
def Dev.walkStart (d : Dev) (ahead : List Launch) (l : Launch) (r : WalkRec) (cores : List Nat) : Option Dev :=
  let one (x : Option Dev) (c : Nat × Nat) : Option Dev :=
    x.bind fun d =>
      let gid := d.hub.nextGid
      (d.walkOn ahead l c.2 c.1).map fun d =>
        (d.setWalk c.1 (walkEngine l r cores gid (gid + 1))).giveOut c.1 [] [(0x100000, 0x40000), (0x200000, 0x80000)]
  (cores.zipIdx.foldl one (some d)).map fun d => d.markPlaced l.lid 0

/-- A walk completes without a group: status 3, failure code 1 (R190). -/
def Dev.rejectWalk (d : Dev) (l : Launch) : Dev := (d.updLaunch l.lid fun l => { l with status := 3, fail := 1 }).complete l.lid

/-- The dispatch of a walk: once everything it needs is free, its record is read and checked, then its groups are released. -/
def Dev.placeWalk (d : Dev) (ahead : List Launch) (l : Launch) : Option Dev :=
  match d.walkCores ahead l with
  | none => none
  | some cs =>
    if l.recA % 64 != 0 then some (d.rejectWalk l)
    else
      match d.hubLines l.ctx (l.recA % 2 ^ 48) 4 with
      | .error u =>
        let r := d.addCase (.walkRec l.lid) l.ctx [u] u.va
        some (if r.2 then r.1 else r.1.rejectWalk l)
      | .ok b => if badWalk b then some (d.rejectWalk l) else cs.2.walkStart ahead l (walkRec b) cs.1

/-! ## The order of placement (R357) -/

/-- Rank of a launch: class 0 first, then effective priority, then the earlier KICK. -/
def Hub.launchRank (h : Hub) (l : Launch) : Nat :=
  let wait := match h.queue? l.qid with | some q => q.wait | none => 0
  (if l.cls == 0 then 0 else 1) * 2 ^ 80 + (15 - h.priority l.cls wait) * 2 ^ 70 + l.kickOrder

/-- Launches with a team to place, in order. -/
def Dev.waiting (d : Dev) : List Launch :=
  sortBy d.hub.launchRank (d.hub.launches.filter fun l => l.open_ && d.hub.ctxRuns l.ctx && !d.waits (.walkRec l.lid))

/-- The first launch in order of which something can be placed, and the device after it. -/
def Dev.firstPlaced (d : Dev) : List Launch → List Launch → Option (Launch × Dev)
  | _, [] => none
  | ahead, l :: rest =>
    match (if l.kind == .walk then d.placeWalk ahead l else d.placeSome ahead l) with
    | some d2 => some (l, d2)
    | none => d.firstPlaced (ahead ++ [l]) rest

/-- What the dispatcher places next. -/
def Dev.nextPlace (d : Dev) : Option (Launch × Dev) := d.firstPlaced [] d.waiting

/-- GROUP_PLACEMENT (R356): the next team in the order of R357 is placed and released. -/
def execGroupPlacement (s : State) : Host.Outcome State Fault Refusal :=
  .next (s.onDev fun d =>
    match d.nextPlace with
    | some r => if r.1.kind == .walk then d else r.2
    | none => d)

/-- WALK_DISPATCH (R187): the next launch in the order of R357 is a walk, and what it needs is free. -/
def execWalkDispatch (s : State) : Host.Outcome State Fault Refusal :=
  .next (s.onDev fun d =>
    match d.nextPlace with
    | some r => if r.1.kind == .walk then r.2 else d
    | none => d)

/-- Whether a launch begins to block those behind it (R357). -/
def Launch.blocks (l : Launch) (now : Nat) : Bool := !l.blocking && l.passed now 105000

/-- PASSED_OVER_TIMEOUT (R357): a launch has been passed over for 100 µs; a launch. -/
def execPassedOverTimeout (s : State) : Host.Outcome State Fault Refusal :=
  .next (s.onDev fun d => d.updLaunch d.arg.a fun l => { l with blocking := l.blocking || l.blocks d.cycle })

end Sys2Proof.Machine
end

