-- ==== Sys2Proof/Machine/Host.lean ====
section
/-! DEFINITION. The host's side (22: R383 to R390, R392; 19: R340): contexts, the register page, host and peer accesses, links,
sensors, and the rings of the mailboxes (R403, R404). -/

namespace Sys2Proof.Machine

/-! ## Context descriptors (R340) -/

/-- Whether a create or a reread refuses a descriptor for a function. -/
def badCtx (b : List Byte) (vf : Nat) : Bool :=
  let f (o n : Nat) : Nat := fieldOf b o n
  f 8 4 / 2 ^ 20 != 0 || f 0xE 2 != 0 || f 0x34 4 != 0 || f 0x50 176 != 0 ||
  !goodAddr (f 0 8) 4096 || !goodAddr (f 0x40 8) 4096 || !goodAddr (f 0x20 8) 64 || !goodAddr (f 0x38 8) 32 ||
  f 0x48 8 == 0 || f 0x48 8 % 4096 != 0 || 3 < f 0xD 1 || !(f 0x10 4 == 0 || inLimits (f 0x10 4) 1024 1048576) ||
  !([16, 32, 64, 128, 256, 512, 1024, 2048, 4096].contains (f 0x28 4)) || (f 0x14 4 != 0 && f 0x18 8 == 0) || f 0xC 1 != vf

/-- The fields a create or a reread takes from a descriptor. -/
def Ctx.load (c : Ctx) (b : List Byte) (desc : Nat) : Ctx :=
  let f (o n : Nat) : Nat := fieldOf b o n
  { c with
    desc := desc, vf := f 0xC 1, s1root := f 0 8 % 2 ^ 48, pasid := f 8 4, classmin := f 0xD 1, tmb := f 0x10 4, eper := f 0x14 4
    eq := f 0x18 8, fring := f 0x20 8 % 2 ^ 48, frsz := f 0x28 4, wqt := f 0x38 8 % 2 ^ 48, savep := f 0x40 8 % 2 ^ 48
    savesz := f 0x48 8 }

/-- A context as it is created (R353, R355, R366): its vectors 0, its launch counter 1, its energy a whole quota. -/
def Ctx.fresh (no : Nat) (b : List Byte) (desc now : Nat) : Ctx :=
  let c : Ctx :=
    { no := no, desc := 0, vf := 0, s1root := 0, pasid := 0, classmin := 0, tmb := 0, eper := 0, eq := 0, fring := 0, frsz := 16
      frwr := BitVec.ofNat 32 (fieldOf b 0x30 4), wqt := 0, savep := 0, savesz := 0, events := 0, errors := 0, nextLaunch := 1
      perfReq := 0, energy := 0, quotaOut := false, born := now, period := 0, frecs := [], areas := [], stopBy := none, dying := false }
  { c.load b desc with energy := fieldOf b 0x18 8, period := now + 1050 * fieldOf b 0x14 4 }

/-- A context whose descriptor is read again: periods of another length count from its creation too; a quota that is disabled stops
nothing, and one that is enabled begins whole (R366, log 14). -/
def Ctx.reload (c : Ctx) (b : List Byte) (desc now : Nat) : Ctx :=
  let n := c.load b desc
  let len := 1050 * n.eper
  if n.eper == c.eper then n
  else if n.eper == 0 then { n with quotaOut := false }
  else { n with period := c.born + ((now - c.born) / len + 1) * len, energy := if c.eper == 0 then n.eq else c.energy }

/-! ## CTXCMD (R386) -/

/-- Context and OP of a CTXCMD value. -/
def cmdCtx (v : W64) : Nat := bitsOf v.toNat 0 6
/-- OP. -/
def cmdOp (v : W64) : Nat := bitsOf v.toNat 6 2

/-- Writes CTXST (R386). -/
def Hub.setCtxst (h : Hub) (vf : Nat) (v : W64) (err done : Bool) : Hub :=
  h.setFn { h.fn vf with
    ctxst := BitVec.ofNat 64 (v.toNat % 2 ^ 8 + (if done then 2 ^ 8 else 0) + (if err then 2 ^ 9 else 0)) }

/-- The descriptor a CTXCMD names, through stage 2 of its function; nothing where that cannot translate it. -/
def Dev.cmdDesc (d : Dev) (vf : Nat) (v : W64) : Option (List Byte) :=
  let ipa := v.toNat / 256 * 256
  if 2 ^ 48 ≤ ipa then none
  else (okAddr (d.translateIpa vf ipa 1)).map fun a => d.ms.readSystem a 256

/-- Whether a function may command a context: the physical function has allotted it (R386). -/
def Dev.cmdAllowed (d : Dev) (vf : Nat) (v : W64) : Bool := (d.hub.fn vf).allot.getLsbD (cmdCtx v)

/-- CTXCMD with OP 1. -/
def Dev.ctxCreate (d : Dev) (vf : Nat) (v : W64) : Dev :=
  let fail := d.updHub fun h => h.setCtxst vf v true true
  match d.cmdDesc vf v with
  | none => fail
  | some b =>
    if !d.cmdAllowed vf v || (d.hub.ctx? (cmdCtx v)).isSome || badCtx b vf then fail
    else d.updHub fun h => (h.setCtx (Ctx.fresh (cmdCtx v) b (v.toNat / 256 * 256) d.cycle)).setCtxst vf v false true

/-- CTXCMD with OP 2. -/
def Dev.ctxReread (d : Dev) (vf : Nat) (v : W64) : Dev :=
  let fail := d.updHub fun h => h.setCtxst vf v true true
  match d.cmdDesc vf v, d.hub.ctx? (cmdCtx v) with
  | some b, some c =>
    if !d.cmdAllowed vf v || c.dying || badCtx b vf then fail
    else d.updHub fun h => (h.setCtx (c.reload b (v.toNat / 256 * 256) d.cycle)).setCtxst vf v false true
  | _, _ => fail

/-- CTXCMD_CREATE (R340); a function, v the value. -/
def execCtxcmdCreate (s : State) : Host.Outcome State Fault Refusal :=
  .next (s.onDev fun d => if cmdOp d.arg.v == 1 then d.ctxCreate d.arg.a d.arg.v else d)

/-- CTXCMD_REREAD (R340); a function, v the value. -/
def execCtxcmdReread (s : State) : Host.Outcome State Fault Refusal :=
  .next (s.onDev fun d => if cmdOp d.arg.v == 2 then d.ctxReread d.arg.a d.arg.v else d)

/-- Whether a case belongs to a copy of a context: its requests go on, and it with them, since copies run to completion (R386). -/
def Case.ofCopy (ctx : Nat) (c : Case) : Bool := c.ctx == ctx && match c.who with | .chan _ _ _ => true | _ => false

/-- A destroy takes away what waits for a context outside its groups: queues, launches, bins, records, events under way, handoffs, cached
translations, cases and requests not yet sent but for those of its copies. -/
def Dev.forgetCtx (d : Dev) (ctx : Nat) : Dev :=
  let kept (id : Nat) : Bool := d.hub.cases.any fun c => c.ofCopy ctx && c.waiting.contains id
  let lids := (d.hub.launches.filter fun l => l.ctx == ctx).map Launch.lid
  let ofLaunch (w : Waiter) : Bool := match w with
    | .compl l | .walkRec l => lids.contains l
    | _ => false
  let d : Dev := { d with
    tlbs := d.tlbs.filter fun (t : Tlb) => t.ctx != ctx
    arrivals := d.arrivals.filter fun (a : Arrival) => a.ctx != ctx
    posts := d.posts.filter fun (p : Post) => p.ctx != ctx
    handoffs := d.handoffs.filter fun (x : Handoff) => x.ctx != ctx
    clusters := d.clusters.map fun (c : Cluster) => { c with bins := c.bins.filter fun b => b.ctx != ctx } }
  d.updHub fun h => { h with
    queues := h.queues.filter fun q => q.ctx != ctx || q.fresh
    launches := h.launches.filter fun l => l.ctx != ctx
    frecs := h.frecs.filter fun r => r.ctx != ctx
    cases := h.cases.filter fun c => c.ofCopy ctx || c.ctx != ctx && !ofLaunch c.who
    fns := h.fns.map fun f => { f with raised := f.raised.filter fun r => r.ctx != ctx || kept r.id } }

/-- Every live or saved walk of a context aborts without a record (R386). -/
def Dev.abortWalksOf (d : Dev) (ctx : Nat) : Dev :=
  let cores := (d.cores.filter fun c => match c.walk with | some w => w.ctx == ctx | none => false).map Core.no
  let d := cores.foldl (fun d c => d.abortWalk c 6 0 false) d
  (d.walks.filter fun x => x.eng.ctx == ctx).foldl (fun d x => d.endSaved x 6) d

/-- Every group of a context, resident or saved, is terminated (R386). -/
def Dev.endGroupsOf (d : Dev) (ctx : Nat) : Dev :=
  let gids := (d.groups.filter fun g => g.ctx == ctx).map Group.gid ++
    (d.saved.filter fun s => s.group.ctx == ctx && !s.partial_).map fun s => s.group.gid
  gids.foldl Dev.terminate d

/-- CTXCMD with OP 3 (R386): the steps of a destroy. -/
def Dev.ctxDestroy (d : Dev) (vf : Nat) (v : W64) : Dev :=
  match d.hub.ctx? (cmdCtx v) with
  | none => d.updHub fun h => h.setCtxst vf v true true
  | some c =>
    if !d.cmdAllowed vf v || c.dying || c.vf != vf then d.updHub fun h => h.setCtxst vf v true true
    else
      let d := d.updHub fun h => (h.setCtx { c with dying := true, frecs := [] }).setCtxst vf v false false
      let d := (((d.forgetCtx c.no).abortWalksOf c.no).endGroupsOf c.no).forgetCtx c.no
      d.updHub fun h => h.updCtx c.no fun c => { c with areas := [], frecs := [] }

/-- CTXCMD_DESTROY (R386); a function, v the value. -/
def execCtxcmdDestroy (s : State) : Host.Outcome State Fault Refusal :=
  .next (s.onDev fun d => if cmdOp d.arg.v == 3 then d.ctxDestroy d.arg.a d.arg.v else d)

/-- Whether nothing of a destroyed context remains: no copy, no stream hold to release, no page request in a slot. -/
def Dev.ctxGone (d : Dev) (ctx : Nat) : Bool :=
  (d.cores.all fun c => c.chans.all fun x => x.ctx != ctx || x.reqs.isEmpty) &&
  (d.hub.releases.all fun r => r.ctx != ctx) && (d.hub.fns.all fun f => f.reqs.all fun r => r.ctx != ctx) &&
  (d.groups.all fun g => g.ctx != ctx) && d.saved.all fun s => s.group.ctx != ctx

/-- The end of a destroy: CTXST.DONE, if the function's last command is that destroy (R386). -/
def Dev.ctxDone (d : Dev) (ctx : Nat) : Dev :=
  match d.hub.ctx? ctx with
  | none => d
  | some c =>
    if !c.dying || !d.ctxGone ctx then d
    else
      let d := d.forgetCtx ctx
      let keep (x : Chan) : Bool := x.ctx != ctx
      let d : Dev := { d with cores := d.cores.map fun (k : Core) => { k with chans := k.chans.filter keep } }
      d.updHub fun h =>
        let f := h.fn c.vf
        let h := { h with ctxs := dropBy Ctx.no ctx h.ctxs }
        if bitsOf f.ctxst.toNat 0 8 == 3 * 2 ^ 6 + ctx then h.setFn { f with ctxst := f.ctxst ||| 0x100 } else h

/-- CONTEXT_DESTROY_DONE (R386); a context. -/
def execContextDestroyDone (s : State) : Host.Outcome State Fault Refusal := .next (s.onDev fun d => d.ctxDone d.arg.a)

/-! ## S2ROOT (R386, R388) -/

/-- S2ROOT_WRITE: ignored while the function has a context; a function, v the value. -/
def execS2rootWrite (s : State) : Host.Outcome State Fault Refusal :=
  .next (s.onDev fun d =>
    if 64 ≤ d.arg.a || d.hub.ctxs.any fun c => c.vf == d.arg.a then d
    else d.updHub fun h => h.setFn { h.fn d.arg.a with s2root := bitsOf d.arg.v.toNat 12 36 * 4096 })

/-! ## Mailboxes (R403, R404) -/

/-- The byte of a function's debug mailbox at an offset of its register page. -/
def dbgAt (vf off : Nat) : Nat := 0xFE0101000000 + vf * 0x1000 + off

/-- The hub writes a reply to a debug mailbox by itself: the command's CMD and SEQ, and a STATUS. -/
def Dev.dbgStatus (d : Dev) (vf st : Nat) : Dev :=
  let b := d.ms.readSystem (dbgAt vf 0x100) 2
  d.updMs fun ms => ms.poke .hub (dbgAt vf 0x140) (b ++ [BitVec.ofNat 8 st])

/-- The warp that listens for the debug token: of the contexts of a function, the first one on the lowest core and slot. -/
def Dev.monitor (d : Dev) (vf : Nat) : Option Warp :=
  let listens (w : Warp) : Bool :=
    (match d.group? w.gid with | some g => d.vfOf g.ctx == vf && (d.hub.ctx? g.ctx).isSome | none => false) &&
    ((d.wakeIndex w dbgToken).isSome || (w.armedFree dbgToken).isSome)
  minBy (fun w => w.core * 64 + w.slot) (d.warps.filter listens)

/-- A write of DBGDB (R403, R404): line 4; busy, or no monitor, or the token is posted to the monitor's core, which answers a command
that is none of R404's with STATUS 1 at once. -/
def Dev.ringDebug (d : Dev) (vf : Nat) : Dev :=
  let d := d.updHub fun h => h.logLine 4 vf vf
  if (d.hub.fn vf).dbgBusy then d.dbgStatus vf 2
  else match d.monitor vf with
    | none => d.dbgStatus vf 3
    | some w =>
      let ctx := ((d.group? w.gid).map Group.ctx).getD 0
      let known := inLimits (fieldOf (d.ms.readSystem (dbgAt vf 0x100) 1) 0 1) 1 6
      (if known then d.updHub fun h => h.setFn { h.fn vf with dbgBusy := true } else d.dbgStatus vf 1).fire
        { ctx := ctx, core := w.core, token := BitVec.ofNat 32 (normTok w.core dbgToken), payload := BitVec.ofNat 64 (dbgAt vf 0x100)
          gid := none, scope := Scope.device }

/-- Writes the reply of the management mailbox: CMD, SEQ, STATUS. -/
def Hub.cmdStatus (h : Hub) (st : Nat) : Hub :=
  { h with cmdmb := patch h.cmdmb 64 (h.cmdmb.take 2 ++ [BitVec.ofNat 8 st]) }

/-- A write of CMDDB (R403): line 3; busy, a bad command, or a command for Corgon. -/
def Hub.ringCmd (h : Hub) : Hub :=
  let h := h.raiseLine 3
  if h.cmdBusy then h.cmdStatus 2
  else if inLimits (fieldOf h.cmdmb 0 1) 1 6 then { h with cmdBusy := true }
  else h.cmdStatus 1

/-! ## Registers without a row of their own (R386) -/

/-- A write to a register of a function's page that only the hub holds. -/
def Dev.writeReg (d : Dev) (vf off : Nat) (v : W64) : Dev :=
  if off == 0 then (if cmdOp v == 0 then d.updHub fun h => h.setCtxst vf v true true else d)
  else if off == 0x10 then (if bitsOf v.toNat 62 2 == 1 || bitsOf v.toNat 62 2 == 2 then d else d.freply vf v 4 fun d _ => d)
  else if 0x100 ≤ off ∧ off < 0x180 then d.updMs fun ms => ms.poke .outside (dbgAt vf off) (leBytes 8 v.toNat)
  else if off == 0x180 then d.ringDebug vf
  else if vf != 0 then d
  else if 0x200 ≤ off ∧ off < 0x280 then d.updHub fun h => { h with cmdmb := patch h.cmdmb (off - 0x200) (leBytes 8 v.toNat) }
  else if off == 0x300 then d.updHub Hub.ringCmd
  else if off == 0x610 then d.updHub fun h => { h with s2ring := bitsOf v.toNat 5 43 * 32 }
  else if off == 0x618 then
    let size := bitsOf v.toNat 0 8
    d.updHub fun h => { h with s2rd := v.extractLsb' 32 24, s2size := if inLimits size 4 12 then size else h.s2size }
  else d

/-- A write of PLCEILv by the physical function. -/
def State.writePlceil (s : State) (off : Nat) (v : W64) : State :=
  { s with pwr := { s.pwr with plceil := s.pwr.plceil.set ((off - 0xC00) / 8) (bitsOf v.toNat 0 3) } }

/-- REGISTER_WRITE (R386): a function, b offset, c width in bytes, v the value. Only aligned 64-bit writes count; a register with a row
of its own, a read-only one, an unlisted offset, and on a virtual function's page a PF register, ignore it. -/
def execRegisterWrite (s : State) : Host.Outcome State Fault Refusal :=
  let x := s.dev.arg
  if x.c != 8 || x.b % 8 != 0 || 64 ≤ x.a then .next s
  else if x.a == 0 && 0xC00 ≤ x.b && x.b < 0xE00 then .next (s.writePlceil x.b x.v)
  else .next (s.onDev fun d => d.writeReg x.a x.b x.v)

/-! ## Host and peer accesses (R384, R385, R389) -/

/-- Whether a range of device memory, tier 1 or tier 2, holds `n` bytes at an address. -/
def Hub.isDeviceMem (h : Hub) (a n : Nat) : Bool :=
  decide (a + n ≤ tier1Size) || (decide (tier2Base ≤ a) && decide (a + n ≤ tier2Base + h.tier2Bytes))

/-- Whether bytes are one naturally aligned transaction of 64 bytes or less (R385). -/
def oneWrite (a n : Nat) : Bool := [1, 2, 4, 8, 16, 32, 64].contains n && a % n == 0

/-- HOST_WRITE (R385): available to everybody at once; a address, data bytes. A host also writes its own memory. -/
def execHostWrite (s : State) : Host.Outcome State Fault Refusal :=
  .next (s.onDev fun d =>
    let n := d.arg.data.length
    let a := d.arg.a
    let host := decide (0x400000000000 ≤ a) && decide (a < 0x800000000000)
    if oneWrite a n && (d.hub.isDeviceMem a n || host) then d.updMs fun ms => ms.poke .outside a d.arg.data else d)

/-- An access of a peer: 0 a load, which changes nothing here; 1 a store, ordinary or strong, with SYSTEM scope; 2 an atomic, applied
to the co-latest value (R159, R315). -/
def Dev.peerAccess (d : Dev) (a kind op : Nat) (wide : Bool) (x y : W64) (b : List Byte) : Dev :=
  let n := if wide then 8 else 4
  let mem := if kind == 2 then d.hub.isDeviceMem a n && a % n == 0 else d.hub.isDeviceMem a b.length && oneWrite a b.length
  let own := (peerOf a).isSome && kind == 1
  if !(mem || own) then d
  else if kind == 1 then d.updMs fun ms => ms.poke .outside a b
  else if kind == 2 then
    let old := d.ms.atomRead a n
    d.updMs fun ms => ms.poke .outside a (leBytes n (atomVal wide op (BitVec.ofNat 64 old) x y).toNat)
  else d

/-- PEER_ACCESS (R389); a address, b kind, c atomic operation, flag 64 bits, v and w operands, data bytes stored. A store to an aperture
is the peer's own, to its memory. -/
def execPeerAccess (s : State) : Host.Outcome State Fault Refusal :=
  .next (s.onDev fun d => let x := d.arg; d.peerAccess x.a x.b x.c x.flag x.v x.w x.data)

/-! ## Links (R390) -/

/-- A link changes (R390, R392): line 7, an entry of the last-events record. -/
def Hub.linkSet (h : Hub) (p : Nat) (up : Bool) : Hub :=
  if 12 ≤ p then h
  else
    let m : BitVec 12 := 1 <<< p
    let h := { h with links := if up then h.links ||| m else h.links &&& ~~~m }
    (h.logLine 7 p (if up then 1 else 0)).note 3 0x8000 0xFF (BitVec.ofNat 64 (p + if up then 256 else 0))

/-- LINK_UP (R390); a link. -/
def execLinkUp (s : State) : Host.Outcome State Fault Refusal := .next (s.onDev fun d => d.updHub fun h => h.linkSet d.arg.a true)

/-- LINK_DOWN (R390): no translation into the aperture is used any more; an atomic under way completes if the peer has received it;
a link. -/
def execLinkDown (s : State) : Host.Outcome State Fault Refusal :=
  .next (s.onDev fun d =>
    let into (t : Tlb) : Bool := match peerOf t.pa with | some (p, _) => p == d.arg.a | none => false
    let r := Dev.cutFabric d.arg.a d.fabric d
    let d := r.2.failAtoms r.1
    { d with tlbs := d.tlbs.filter fun t => !into t }.updHub fun h => h.linkSet d.arg.a false)

/-! ## Sensors and the core-signal register (R392) -/

/-- TEMPERATURE_THRESHOLD; a die, b temperature in units of 0.125 °C. -/
def execTemperatureThreshold (s : State) : Host.Outcome State Fault Refusal :=
  .next (s.onDev fun d => d.updHub fun h => h.logLine 8 d.arg.a d.arg.b)

/-- UNCORRECTED_ERROR; a die, b error code, flag: it is fatal, and the last-events record freezes (R405). -/
def execUncorrectedError (s : State) : Host.Outcome State Fault Refusal :=
  .next (s.onDev fun d => d.updHub fun h =>
    let h := h.logLine 11 d.arg.a d.arg.b
    if d.arg.flag then h.note 7 0x8000 0xFF (BitVec.ofNat 64 (d.arg.b % 2 ^ 32 + d.arg.a * 2 ^ 32)) else h)

/-- CORE_SIGNAL_WRITE: a store of 0 to 7 raises its line, another value is ignored; v the value. -/
def execCoreSignalWrite (s : State) : Host.Outcome State Fault Refusal :=
  .next (s.onDev fun d => d.updHub fun h => let n := (d.arg.v.setWidth 32).toNat; if n < 8 then h.raiseLine (48 + n) else h)

end Sys2Proof.Machine
end

