-- ==== Sys2Proof/Machine/Power.lean ====
section
/-! DEFINITION. Power (22: R397 to R401): the cap and the floors, the evaluation of grants and pass counts, the charge of energy. -/

namespace Sys2Proof.Machine

/-! ## CAP and FLOOR (R398) -/

/-- The guaranteed watts of every function together. -/
def Power.floorSum (p : Power) : Nat := p.floors.foldl (· + ·) 0

/-- A write of CAP; `fixed`: step 20 was skipped, and the cap is 1,500 W (R397). -/
def Power.writeCap (p : Power) (fixed : Bool) (c : Nat) : Power :=
  if c < p.floorSum then { p with code := 2 }
  else if fixed then { p with code := 1 }
  else if c < p.idlefl then { p with cap := p.idlefl, code := 1 }
  else if 2200 < c then { p with cap := 2200, code := 1 }
  else { p with cap := c, code := 0 }

/-- A write of FLOORv. -/
def Power.writeFloor (p : Power) (v w : Nat) : Power :=
  let q := { p with floors := p.floors.set v w }
  if 64 ≤ v then p else if p.cap < q.floorSum then { p with code := 2 } else { q with code := 0 }

/-- CAPST (R398). -/
def Power.capst (p : Power) : W64 := BitVec.ofNat 64 (p.cap * 2 ^ 16 + p.code)

/-- CAP_WRITE (R398, R405); v the value. -/
def execCapWrite (s : State) : Host.Outcome State Fault Refusal :=
  .next { s with
    pwr := s.pwr.writeCap (s.fw.capFixed) (bitsOf s.dev.arg.v.toNat 0 16)
    dev := s.dev.updHub fun h => h.note 4 0x8000 0xFF s.dev.arg.v }

/-- FLOOR_WRITE (R398, R405); a function, v the value. -/
def execFloorWrite (s : State) : Host.Outcome State Fault Refusal :=
  .next { s with
    pwr := s.pwr.writeFloor s.dev.arg.a (bitsOf s.dev.arg.v.toNat 0 16)
    dev := s.dev.updHub fun h => h.note 4 (0x8000 + s.dev.arg.a % 64) 0xFF s.dev.arg.v }

/-! ## POWER_EVALUATION (R399 to R401) -/

/-- Least PASS of a level (R400). -/
def levelPass (l : Nat) : Nat := if l ≤ 1 then 4 else if l ≤ 3 then 2 else 1

/-- The pass count that cap enforcement and thermal protection need: one of the three counts (log 15). -/
def needPass (free c : Nat) : Nat := 2 ^ (Config.passNeed free c % 3)

/-- The level a cluster's contexts ask for, each clipped to the ceiling of its function; nothing where none has a resident group. -/
def Dev.asked (d : Dev) (plceil : List Nat) (c : Nat) : Option Nat :=
  let ctxs := dedup ((d.groups.filter fun g => clusterOf g.core == c).map Group.ctx)
  let req (n : Nat) : Nat := match d.hub.ctx? n with | some x => min x.perfReq (nth plceil x.vf 7) | none => 0
  if ctxs.isEmpty then none else some ((ctxs.map req).foldl max 0)

/-- The highest grant there is: level 4 when body-bias calibration was skipped (R397). -/
def topLevel (nobias : Bool) : Nat := if nobias then 4 else 7

/-- The controller takes one level from the limit of a cluster with the highest grant, where one is below `hot` first: a cluster with a
context whose function draws more than its FLOOR (R399). Which one of several is open (log 15). -/
def lowerGrant (hot : Nat → Bool) (gs : List Nat) (pick : Nat) : List Nat :=
  let top := gs.foldl max 0
  let cs := (List.range gs.length).filter fun c => nth gs c 0 == top
  let above := cs.filter hot
  let cs := if above.isEmpty then cs else above
  if top == 0 then gs else gs.set (nth cs (pick % cs.length) 0) (top - 1)

/-- Whether a context with a resident group on a cluster has a function that draws more than its FLOOR (R399). -/
def Dev.overFloor (d : Dev) (floors : List Nat) (c : Nat) : Bool :=
  d.groups.any fun g => clusterOf g.core == c && decide (nth floors (d.vfOf g.ctx) 0 < Config.functionDraw d.free (d.vfOf g.ctx))

/-- The grants of the 32 clusters (R399): what their contexts ask for, or 4, lowered until the cap is held. -/
def Dev.grants (d : Dev) (p : Power) (nobias : Bool) : List Nat :=
  let want := (List.range 32).map fun c => min ((d.asked p.plceil c).getD 4) (topLevel nobias)
  ((List.range (Config.capSteps d.free % 225)).map (Config.capPick d.free)).foldl (lowerGrant (d.overFloor p.floors)) want

/-- Whether no lane pipe of a cluster has a fixed-latency result in flight (R71). -/
def Dev.quiet (d : Dev) (c : Nat) : Bool :=
  d.fibres.all fun f => clusterOf f.core != c || f.infl.all fun e => decide (e.ready ≤ f.elapsed d.cycle (d.pass f.core))

/-- A fibre when the pass count of its cluster changes: what is left of its waits is so many slots of the new length (R71, R140). -/
def Fibre.repace (f : Fibre) (now old new : Nat) : Fibre :=
  let left (upto : Nat) : Nat := now + ceilDiv (upto - now) old * new
  { f with
    ready := if f.pace.lane && decide (now < f.ready) then left f.ready else f.ready
    wait := match f.wait with | .yielding n => .yielding (left n) | w => w
    infl := []
    pace := { f.pace with slot := f.elapsed now old, at_ := now } }

/-- PASS takes the wanted count where it can (R71). -/
def Dev.setPass (d : Dev) : Dev :=
  let turn (c : Cluster) : Bool := c.pass != c.want && d.quiet c.no
  let turns (f : Fibre) : Bool := d.clusters.any fun c => c.no == clusterOf f.core && turn c
  { d with
    fibres := updWhere turns (fun f => f.repace d.cycle (d.pass f.core) (d.cluster (clusterOf f.core)).want) d.fibres
    clusters := updWhere turn (fun (c : Cluster) => { c with pass := c.want }) d.clusters }

/-- A cluster with the grant `g`, and its pass count (R400); `slow`: step 21 started in its degraded form. -/
def Dev.evalCluster (d : Dev) (slow : Bool) (g c : Nat) : Cluster :=
  { d.cluster c with grant := g, want := max (max (levelPass g) (needPass d.free c)) (if slow then 2 else 1) }

/-- Contexts with resident warps are charged (R366, R401). -/
def Dev.charge (d : Dev) : Dev :=
  let here (c : Ctx) : Bool := d.groups.any fun g => g.ctx == c.no
  d.updHub fun h => { h with
    ctxs := updWhere (fun c => c.eper != 0 && here c) (fun c => { c with energy := c.energy - Config.energyUse d.free c.no }) h.ctxs }

/-- An evaluation: line 2, every cluster, the charge. -/
def Dev.evaluate (d : Dev) (p : Power) (nobias slow : Bool) : Dev :=
  let cs := (d.grants p nobias).zipIdx.map fun x => d.evalCluster slow x.1 x.2
  let d := ({ d with clusters := cs }.charge).setPass
  { d.updHub fun h => h.raiseLine 2 with free := d.free + 1 }

/-- POWER_EVALUATION (R399). -/
def execPowerEvaluation (s : State) : Host.Outcome State Fault Refusal :=
  .next { s.onDev fun d => d.evaluate s.pwr s.fw.nobias s.fw.degraded with
    pwr := { s.pwr with evals := s.pwr.evals + 1 } }

end Sys2Proof.Machine
end

