-- ==== Sys2Proof/Machine/Registers.lean ====
section
/-! DEFINITION. What the host reads (19: R344; 22: R386, R398, R402): the doorbell pages, the register pages, the capability list. A
read changes nothing, so it is no event of the opcode table and `step` does not use it. -/

namespace Sys2Proof.Machine

/-! ## Doorbell pages (R344) -/

/-- A read of `n` bytes of a queue's doorbell page: KICK reads the held index, FETCH the fetch index, everything else 0. -/
def Hub.doorbellRead (h : Hub) (qid off n : Nat) : W64 :=
  if n != 4 && n != 8 then 0
  else match h.queue? qid with
    | none => 0
    | some q => if off == 0 then q.h.setWidth 64 else if off == 8 then q.f.setWidth 64 else 0

/-! ## The capability list (R402) -/

/-- The bodies of the list for a function, in the order of their IDs (log 58). -/
def State.capBodies (s : State) (vf : Nat) : List (List Byte) :=
  let h := s.dev.hub
  [leBytes 8 ((if h.isX then 1 else 0) + h.tier2Bytes / 256 * 256), leBytes 64 h.present.toNat, leBytes 8 s.fw.capLinks.toNat,
   leBytes 8 1, leBytes 8 (h.fn vf).allot.toNat]

/-- The chain of entries from a page offset on, each with its body after it; `id` is the first one's ID. -/
def capChain : Nat → Nat → List (List Byte) → List Byte
  | _, _, [] => []
  | off, id, b :: l =>
    let next := off + 16 + b.length
    leBytes 2 id ++ leBytes 2 1 ++ leBytes 4 b.length ++ leBytes 4 (if l.isEmpty then 0 else next) ++ leBytes 4 (off + 16) ++ b ++
    capChain next (id + 1) l

/-- The page offset of the first entry. -/
def capBase : Nat := 0xE00

/-- The bytes of the list. -/
def State.capList (s : State) (vf : Nat) : List Byte := capChain capBase 1 (s.capBodies vf)

/-! ## Register pages (R386) -/

/-- S2RCTL (R386). -/
def Hub.s2rctl (h : Hub) : W64 := BitVec.ofNat 64 (h.s2size + h.s2wr.toNat * 2 ^ 8 + h.s2rd.toNat * 2 ^ 32)

/-- A register of the physical function's page that the other pages do not hold. -/
def State.pfRead (s : State) (off : Nat) : W64 :=
  let h := s.dev.hub
  let v (base : Nat) : Nat := (off - base) / 8
  if 0x200 ≤ off ∧ off < 0x280 then BitVec.ofNat 64 (fieldOf h.cmdmb (off - 0x200) 8)
  else if 0x400 ≤ off ∧ off < 0x600 then BitVec.ofNat 64 (h.fn (v 0x400)).s2root
  else if off == 0x608 then (if h.s2busy then 1 else 0)
  else if off == 0x610 then BitVec.ofNat 64 h.s2ring
  else if off == 0x618 then h.s2rctl
  else if off == 0x700 then BitVec.ofNat 64 s.pwr.cap
  else if off == 0x708 then s.pwr.capst
  else if off == 0x710 then BitVec.ofNat 64 s.pwr.idlefl
  else if 0xA00 ≤ off ∧ off < 0xC00 then BitVec.ofNat 64 (nth s.pwr.floors (v 0xA00) 0)
  else if 0xC00 ≤ off ∧ off < 0xE00 then BitVec.ofNat 64 (nth s.pwr.plceil (v 0xC00) 7)
  else 0

/-- A read of `n` bytes at an offset of a function's register page: anything but an aligned 64-bit read, a write-only register and an
unlisted offset read 0. -/
def State.regRead (s : State) (vf off n : Nat) : W64 :=
  if n != 8 || off % 8 != 0 || 63 < vf then 0
  else if off == 8 then (s.dev.hub.fn vf).ctxst
  else if 0x100 ≤ off ∧ off < 0x180 then BitVec.ofNat 64 (leVal (s.dev.ms.readSystem (dbgAt vf off) 8))
  else if off == 0x800 then BitVec.ofNat 64 capBase
  else if capBase ≤ off ∧ off < 0x1000 then BitVec.ofNat 64 (fieldOf (s.capList vf) (off - capBase) 8)
  else if vf == 0 then s.pfRead off
  else 0

end Sys2Proof.Machine
end

