-- ==== Sys2Proof/Machine/Sm.lean ====
section
/-! DEFINITION. SM3 digests and SM2 signatures (22: R394). The spec names the standards, GB/T 32905 and GB/T 32918 with the recommended
curve and the default signer identity; what follows is PRESUMED from them (log 16). -/

namespace Sys2Proof.Machine

/-! ## SM3 -/

/-- The chaining value before the first block. -/
def sm3Init : List W32 :=
  [0x7380166F, 0x4914B2B9, 0x172442D7, 0xDA8A0600, 0xA96F30BC, 0x163138AA, 0xE38DEE4D, 0xB0FB0E4E]

/-- Bytes as a number, the first most significant. -/
def beVal (b : List Byte) : Nat := b.foldl (fun n x => n * 256 + x.toNat) 0

/-- A number as `n` bytes, the first most significant. -/
def beBytes (n v : Nat) : List Byte := (leBytes n v).reverse

/-- The 132 words a block of 64 bytes expands to: W0 to W67, then W'0 to W'63. -/
def sm3Words (b : List Byte) : List W32 :=
  let w0 := (List.range 16).map fun i => BitVec.ofNat 32 (beVal ((b.drop (4 * i)).take 4))
  let more (w : List W32) (j : Nat) : List W32 :=
    let g (i : Nat) : W32 := nth w i 0
    let x := g (j - 16) ^^^ g (j - 9) ^^^ (g (j - 3)).rotateLeft 15
    w ++ [(x ^^^ x.rotateLeft 15 ^^^ x.rotateLeft 23) ^^^ (g (j - 13)).rotateLeft 7 ^^^ g (j - 6)]
  let w := ((List.range 52).map (· + 16)).foldl more w0
  w ++ (List.range 64).map fun j => nth w j 0 ^^^ nth w (j + 4) 0

/-- One of the 64 rounds on the eight words A to H. -/
def sm3Round (ws : List W32) (v : List W32) (j : Nat) : List W32 :=
  let g (i : Nat) : W32 := nth v i 0
  let t : W32 := if j < 16 then 0x79CC4519 else 0x7A879D8A
  let a12 := (g 0).rotateLeft 12
  let ss1 := (a12 + g 4 + t.rotateLeft (j % 32)).rotateLeft 7
  let ss2 := ss1 ^^^ a12
  let ff := if j < 16 then g 0 ^^^ g 1 ^^^ g 2 else (g 0 &&& g 1) ||| (g 0 &&& g 2) ||| (g 1 &&& g 2)
  let gg := if j < 16 then g 4 ^^^ g 5 ^^^ g 6 else (g 4 &&& g 5) ||| (~~~(g 4) &&& g 6)
  let tt1 := ff + g 3 + ss2 + nth ws (68 + j) 0
  let tt2 := gg + g 7 + ss1 + nth ws j 0
  [tt1, g 0, (g 1).rotateLeft 9, g 2, tt2 ^^^ tt2.rotateLeft 9 ^^^ tt2.rotateLeft 17, g 4, (g 5).rotateLeft 19, g 6]

/-- The compression of one block into the chaining value. -/
def sm3Block (v : List W32) (b : List Byte) : List W32 :=
  (((List.range 64).foldl (sm3Round (sm3Words b)) v).zip v).map fun p => p.1 ^^^ p.2

/-- A message with its padding: a one bit, zeros, and the length in bits. -/
def sm3Pad (m : List Byte) : List Byte :=
  m ++ [0x80] ++ List.replicate ((119 - m.length % 64) % 64) 0 ++ beBytes 8 (8 * m.length)

/-- The SM3 digest of a message: 32 bytes. -/
def sm3 (m : List Byte) : List Byte :=
  let p := sm3Pad m
  ((List.range (p.length / 64)).foldl (fun v i => sm3Block v ((p.drop (64 * i)).take 64)) sm3Init).flatMap fun x => beBytes 4 x.toNat

/-! ## The recommended curve of SM2 -/

/-- The prime of the field. -/
def sm2P : Nat := 0xFFFFFFFEFFFFFFFFFFFFFFFFFFFFFFFFFFFFFFFF00000000FFFFFFFFFFFFFFFF
/-- Coefficient a. -/
def sm2A : Nat := 0xFFFFFFFEFFFFFFFFFFFFFFFFFFFFFFFFFFFFFFFF00000000FFFFFFFFFFFFFFFC
/-- Coefficient b. -/
def sm2B : Nat := 0x28E9FA9E9D9F5E344D5A9E4BCF6509A7F39789F515AB8F92DDBCBD414D940E93
/-- The order of the base point. -/
def sm2N : Nat := 0xFFFFFFFEFFFFFFFFFFFFFFFFFFFFFFFF7203DF6B21C6052B53BBF40939D54123
/-- The base point. -/
def sm2G : Nat × Nat :=
  (0x32C4AE2C1F1981195F9904466A39C9948FE30BBFF2660BE1715A4589334C74C7,
   0xBC3736A2F4F6779C59BDCEE36B692153D0A9877CC62A474002DF32E52139F0A0)

/-- `a` to the power `e` modulo `m`, for `n` bits of `e`. -/
def powMod (a m : Nat) : (n : Nat) → (e : Nat) → Nat
  | 0, _ => 1 % m
  | n + 1, e => let h := powMod (a * a % m) m n (e / 2); if e % 2 == 1 then h * a % m else h

/-- The inverse of `a` modulo a prime of 256 bits. -/
def invMod (a m : Nat) : Nat := powMod (a % m) m 256 (m - 2)

/-- The sum of two points of the curve; nothing is the point at infinity. -/
def ecAdd : Option (Nat × Nat) → Option (Nat × Nat) → Option (Nat × Nat)
  | none, q => q
  | p, none => p
  | some p, some q =>
    let p' := sm2P
    if p.1 == q.1 && (p.2 + q.2) % p' == 0 then none
    else
      let l := if p.1 == q.1 then (3 * p.1 * p.1 + sm2A) * invMod (2 * p.2) p' % p'
               else (q.2 + p' - p.2) * invMod (q.1 + p' - p.1) p' % p'
      let x := (l * l + 2 * p' - p.1 - q.1) % p'
      some (x, (l * ((p.1 + p' - x) % p') + p' - p.2) % p')

/-- `k` times a point, for `n` bits of `k`. -/
def ecMul (q : Option (Nat × Nat)) : (n : Nat) → (k : Nat) → Option (Nat × Nat)
  | 0, _ => none
  | n + 1, k => let r := ecMul (ecAdd q q) n (k / 2); if k % 2 == 1 then ecAdd r q else r

/-- Whether a pair lies on the curve. -/
def onCurve (q : Nat × Nat) : Bool :=
  decide (q.1 < sm2P) && decide (q.2 < sm2P) && (q.2 * q.2) % sm2P == (q.1 * q.1 * q.1 + sm2A * q.1 + sm2B) % sm2P

/-! ## SM2 signatures -/

/-- The default signer identity, sixteen bytes: the ASCII digits 1234567812345678. -/
def sm2Id : List Byte := [0x31, 0x32, 0x33, 0x34, 0x35, 0x36, 0x37, 0x38, 0x31, 0x32, 0x33, 0x34, 0x35, 0x36, 0x37, 0x38]

/-- The number that is signed for a message under a public key. -/
def sm2Digest (pub : Nat × Nat) (m : List Byte) : Nat :=
  let z := sm3 (beBytes 2 128 ++ sm2Id ++ beBytes 32 sm2A ++ beBytes 32 sm2B ++ beBytes 32 sm2G.1 ++ beBytes 32 sm2G.2 ++
    beBytes 32 pub.1 ++ beBytes 32 pub.2)
  beVal (sm3 (z ++ m))

/-- The public key of a private one. -/
def sm2Pub (d : Nat) : Nat × Nat := (ecMul (some sm2G) 256 d).getD (0, 0)

/-- One attempt at a signature of the number `e` with the ephemeral number `k`; none where the standard takes another number. -/
def sm2Try (d e k : Nat) : Option (Nat × Nat) :=
  let r := (e + ((ecMul (some sm2G) 256 k).getD (0, 0)).1) % sm2N
  let s := invMod (1 + d) sm2N * ((k + sm2N * sm2N - r * d) % sm2N) % sm2N
  if r == 0 || r + k == sm2N || s == 0 then none else some (r, s)

/-- The signature of a message: the first attempt that holds among those of the ephemeral numbers `ks`. -/
def sm2Sign (d : Nat) (ks : List Nat) (m : List Byte) : List Byte :=
  let e := sm2Digest (sm2Pub d) m
  let q := (ks.findSome? fun k => sm2Try d e (k % (sm2N - 1) + 1)).getD (0, 0)
  beBytes 32 q.1 ++ beBytes 32 q.2

/-- Whether 64 bytes are a signature of a message under a public key, both coordinates first 32 bytes each. -/
def sm2Verify (key sig m : List Byte) : Bool :=
  let pub := (beVal (key.take 32), beVal (key.drop 32))
  let r := beVal (sig.take 32)
  let s := beVal (sig.drop 32)
  let t := (r + s) % sm2N
  let q := ecAdd (ecMul (some sm2G) 256 s) (ecMul (some pub) 256 t)
  key.length == 64 && sig.length == 64 && onCurve pub && r != 0 && decide (r < sm2N) && s != 0 && decide (s < sm2N) && t != 0 &&
  (match q with | some x => (sm2Digest pub m + x.1) % sm2N == r | none => false)

end Sys2Proof.Machine
end

