-- ==== Sys2Proof/Machine/Firmware.lean ====
section
/-! DEFINITION. Boot and resets (22: R396, R397), the management commands (R394, R395, R403, R405) and the debug commands (R404). The
layout of a command's arguments is in log 25. -/

namespace Sys2Proof.Machine

/-! ## The boot record (R396, R397) -/

/-- Optional steps. -/
def optionalStep (n : Nat) : Bool := [11, 13, 16, 20, 23].contains n

/-- Mandatory steps with a degraded form. -/
def hasDegraded (n : Nat) : Bool := [2, 3, 4, 5, 7, 8, 9, 10, 12, 14, 17, 21].contains n

/-- RESULT of the latest entry of a step; 0 where there is none. -/
def lastResult (rec_ : List BootEnt) (n : Nat) : Nat := ((rec_.reverse.find? fun e => e.step == n).map BootEnt.result).getD 0

/-- RESULT of a step that runs now, its attempt succeeding or not. -/
def stepResult (last n : Nat) (good : Bool) : Nat :=
  if optionalStep n then (if last == 1 then 2 else if good then 0 else 1)
  else if hasDegraded n && (last == 1 || last == 3 || last == 4) then (if good then 3 else 4)
  else if good then 0 else 1

/-- Whether a result stops the boot. -/
def stopsBoot (n result : Nat) : Bool := !optionalStep n && (result == 1 || result == 4)

/-- Appends an entry to the ring of 64. -/
def pushEnt (rec_ : List BootEnt) (e : BootEnt) : List BootEnt := (rec_ ++ [e]).drop (rec_.length + 1 - 64)

/-- What an input list says of the attempt of a step, n + 256 k + 512 DETAIL: that it fails (k = 0) or not, and DETAIL. A step it does not
list succeeds with DETAIL 0 (log 17). -/
def stepNote (notes : List Nat) (n : Nat) : Bool × Nat :=
  match notes.find? fun x => x % 256 == n with
  | some x => (x / 256 % 2 == 0, x / 512)
  | none => (false, 0)

/-- A boot under way: the boot record, the step that has stopped it, the hub cycle, the steps that have run. -/
structure Boot where
  rec_ : List BootEnt
  stop : Option Nat
  at_ : Nat
  ran : List Nat

/-- Runs steps in order until one stops the boot; each appends its entry at its own time (R396). -/
def Boot.run (bootno free : Nat) (notes : List Nat) : List Nat → Boot → Boot
  | [], b => b
  | n :: l, b =>
    if b.stop.isSome then b
    else
      let x := stepNote notes n
      let res := stepResult (lastResult b.rec_ n) n !x.1
      let t := b.at_ + Config.stepTime free n
      let e : BootEnt := { bootno := bootno, step := n, result := res, detail := if res == 2 then 0 else BitVec.ofNat 16 x.2, hubt := t }
      run bootno free notes l ⟨pushEnt b.rec_ e, if stopsBoot n res then some n else none, t, b.ran ++ [n]⟩

/-- Steps of a cold reset. -/
def coldSteps : List Nat := (List.range 24).map (· + 1)
/-- Steps of a warm reset. -/
def warmSteps : List Nat := [15, 17, 18, 19, 20, 21, 22, 24]

/-! ## Resets -/

/-- Entries of the last-events record for the boot steps that ran (code 5). -/
def noteSteps (h : Hub) (rec_ : List BootEnt) (ns : List Nat) : Hub :=
  ns.foldl (fun h n => h.note 5 0x8000 0xFF (BitVec.ofNat 64 (n + lastResult rec_ n * 256))) h

/-- The bytes of an entry of the boot record (R396). -/
def BootEnt.bytes (e : BootEnt) : List Byte :=
  leBytes 4 e.bootno ++ leBytes 1 e.step ++ leBytes 1 e.result ++ leBytes 2 e.detail.toNat ++ leBytes 8 e.hubt

/-- Corgon's configuration numbers. -/
def Hub.config (h : Hub) : List Nat := h.base ++ h.ceil ++ [h.rsv0, h.rw_, h.rb, h.rs]

/-- The measurements of step 19 (R395, R396): the digests of the boot ROM, the Corgon image, the hub configuration, the boot record up to
that step, the capability list that the boot builds, the configuration space and the power tables, then 32 zeros. -/
def State.measure (s : State) (rec_ : List BootEnt) : List Byte :=
  let image := if lastResult rec_ 3 == 3 then s.fw.altImage else Config.corgonImage
  ([Config.bootRom, image, Config.hubConfig s.dev.hub.config, rec_.flatMap BootEnt.bytes, s.capList 0, Config.pfConfig s.fw.bootno,
    Config.powerTables].flatMap sm3) ++ leBytes 32 0

/-- A state after a boot, with its measurements where step 19 ran; `early` is the boot before that step. -/
def State.measured (s : State) (early whole : Boot) : State :=
  if whole.ran.contains 19 then { s with fw := { s.fw with digests := s.measure early.rec_ } } else s

/-- Memory of the host and the peers, which a reset of the device leaves. -/
def hostMem (m : Mem) : Mem := m.filter fun c => isHostOrPeer c.1

/-- The cap after a boot: 1,500 W when thermal calibration was skipped (R397). -/
def bootPower (rec_ : List BootEnt) (idle : Nat) : Power :=
  { Power.reset with cap := if lastResult rec_ 20 == 2 then 1500 else 2200, idlefl := idle }

/-- A cold reset (R396, R397). `notes` say how the attempts of the steps end, `present` names the cores not fenced, `links` those that
trained. What step 11 and step 20 leave holds until they run again. -/
def State.cold (s : State) (notes : List Nat) (present : BitVec 512) (links : BitVec 12) (isX : Bool) (tier2 : Nat) : State :=
  let bootno := s.fw.bootno + 1
  let early := Boot.run bootno s.dev.free notes (coldSteps.filter (· < 19)) ⟨s.fw.bootrec, none, 0, []⟩
  let r := early.run bootno s.dev.free notes (coldSteps.filter (19 ≤ ·))
  let links := if lastResult r.rec_ 16 == 0 then links else 0
  let old := s.dev.hub
  let keep := old.frozen && !old.levread && lastResult r.rec_ 23 != 2
  let hub := { Hub.reset with
    present := present, links := links, isX := isX, tier2 := tier2, lastev := if keep then old.lastev else [], frozen := keep, hubt := r.at_ }
  let t : State :=
    { agenda := s.agenda
      dev := { Dev.reset with
        hub := noteSteps hub r.rec_ (r.ran.filter (23 ≤ ·)), free := s.dev.free + 1, ms := { MemSys.empty with mem := hostMem s.dev.ms.mem } }
      pwr := bootPower r.rec_ (Config.idleFloor bootno)
      fw := { Fw.reset with
        bootno := bootno, bootrec := r.rec_, bootFail := r.stop, capLinks := links, altImage := s.fw.altImage, idKey := s.fw.idKey, digests := s.fw.digests
        degraded := lastResult r.rec_ 21 == 3, nobias := lastResult r.rec_ 11 == 2, capFixed := lastResult r.rec_ 20 == 2 } }
  t.measured early r

/-- A warm reset (R396): steps 15, 17 to 22 and 24; the last-events record and its frozen state, memory, and what training found
survive. -/
def State.warm (s : State) (notes : List Nat) : State :=
  let early := Boot.run s.fw.bootno s.dev.free notes (warmSteps.filter (· < 19)) ⟨s.fw.bootrec, none, s.dev.hub.hubt, []⟩
  let r := early.run s.fw.bootno s.dev.free notes (warmSteps.filter (19 ≤ ·))
  let old := s.dev.hub
  let hub := { Hub.reset with
    present := old.present, links := old.links, isX := old.isX, tier2 := old.tier2, lastev := old.lastev, frozen := old.frozen
    levread := old.levread, sram := old.sram, hubt := r.at_ }
  let t : State :=
    { agenda := s.agenda
      dev := { Dev.reset with hub := noteSteps hub r.rec_ r.ran, free := s.dev.free + 1, ms := { MemSys.empty with mem := s.dev.ms.mem } }
      pwr := bootPower r.rec_ s.pwr.idlefl
      fw := { s.fw with bootrec := r.rec_, bootFail := r.stop, capLinks := old.links, degraded := lastResult r.rec_ 21 == 3
                        capFixed := if r.ran.contains 20 then lastResult r.rec_ 20 == 2 else s.fw.capFixed } }
  t.measured early r

/-- COLD_RESET (R396, R397); nums what comes of the steps, data a map of the cores not fenced (none given: all), v the links that trained,
flag the G5120-X form, b its tier-2 bytes divided by 256. -/
def execColdReset (s : State) : Host.Outcome State Fault Refusal :=
  let x := s.dev.arg
  let present : BitVec 512 := if x.data.isEmpty then BitVec.allOnes 512 else BitVec.ofNat 512 (leVal x.data)
  .next (s.cold x.nums present (x.v.setWidth 12) x.flag x.b)

/-- WARM_RESET (R396); nums what comes of the steps. -/
def execWarmReset (s : State) : Host.Outcome State Fault Refusal := .next (s.warm s.dev.arg.nums)

/-! ## Management commands (R403) -/

/-- Whether Corgon has a command with a number to answer. -/
def State.cmdIs (s : State) (n : Nat) : Bool := s.dev.hub.cmdBusy && fieldOf s.dev.hub.cmdmb 0 1 == n

/-- Argument `i` of the command: the double-word at byte 8 + 8i. -/
def State.cmdArg (s : State) (i : Nat) : Nat := fieldOf s.dev.hub.cmdmb (8 + 8 * i) 8

/-- The device address of a host physical address (R384). -/
def hostAt (h : Nat) : Nat := 0x400000000000 + h % 0x400000000000

/-- Writes bytes to a host buffer. -/
def State.toHost (s : State) (h : Nat) (b : List Byte) : State := s.onDev fun d => d.updMs fun ms => ms.poke .hub (hostAt h) b

/-- The reply of a command. -/
def State.cmdDone (s : State) (st : Nat) : State := s.onDev fun d => d.updHub fun h => { h.cmdStatus st with cmdBusy := false }

/-- The report of ATTEST before its signature (R395). -/
def reportBody (f : Fw) (nonce : List Byte) : List Byte := leBytes 2 1 ++ leBytes 2 0 ++ leBytes 4 f.bootno ++ nonce ++ f.digests

/-- The report with its signature by the identity key (R394, R395); the ephemeral numbers of SM2 are free (log 16). -/
def report (f : Fw) (nonce : List Byte) : List Byte :=
  let b := reportBody f nonce
  b ++ sm2Sign f.idKey.toNat ((List.range 8).map (Config.signNonce b)) b

/-- ATTEST (R395): nonce in bytes 8 to 39, report address in bytes 40 to 47. -/
def execAttest (s : State) : Host.Outcome State Fault Refusal :=
  .next (if s.cmdIs 1 then (s.toHost (s.cmdArg 4) (report s.fw ((s.dev.hub.cmdmb.drop 8).take 32))).cmdDone 0 else s)

/-- CERT (R403): buffer and length; no more than the chain is written. -/
def execCert (s : State) : Host.Outcome State Fault Refusal :=
  .next (if s.cmdIs 2 then
    (s.toHost (s.cmdArg 0) ((List.range (min (s.cmdArg 1) Config.certLen)).map Config.certByte)).cmdDone 0 else s)

/-- Clears the boot record's failures, and a frozen last-events record that has been returned (R397, R405). -/
def State.bootClr (s : State) : State :=
  let add (r : List BootEnt) (n : Nat) : List BootEnt :=
    pushEnt r { bootno := s.fw.bootno, step := n, result := 0, detail := 0, hubt := s.dev.hub.hubt }
  { s.onDev fun d => d.updHub fun h => { h with frozen := h.frozen && !h.levread, levread := false } with
    fw := { s.fw with bootrec := coldSteps.foldl add s.fw.bootrec } }

/-- BOOTCLR (R397). -/
def execBootclr (s : State) : Host.Outcome State Fault Refusal := .next (if s.cmdIs 3 then s.bootClr.cmdDone 0 else s)

/-- ALLOT (R403): function and context map; no such function: denied. -/
def execAllot (s : State) : Host.Outcome State Fault Refusal :=
  .next (if !s.cmdIs 4 then s
    else if 64 ≤ s.cmdArg 0 then s.cmdDone 3
    else (s.onDev fun d => d.updHub fun h => h.setFn { h.fn (s.cmdArg 0) with allot := BitVec.ofNat 64 (s.cmdArg 1) }).cmdDone 0)

/-- The bytes of an entry of the last-events record (R405). -/
def LastEv.bytes (e : LastEv) : List Byte :=
  leBytes 8 e.hubt ++ leBytes 2 e.code ++ leBytes 2 e.src ++ leBytes 1 e.ctx ++ leBytes 3 0 ++ leBytes 16 e.detail.toNat

/-- The last-events record, 128 KiB, oldest entry first. -/
def Hub.levBytes (h : Hub) : List Byte := h.lastev.flatMap LastEv.bytes ++ List.replicate (131072 - 32 * h.lastev.length) 0

/-- LEVREAD (R403, R405): a host buffer. -/
def execLevread (s : State) : Host.Outcome State Fault Refusal :=
  .next (if s.cmdIs 5 then
    ((s.toHost (s.cmdArg 0) s.dev.hub.levBytes).onDev fun d => d.updHub fun h => { h with levread := h.frozen }).cmdDone 0 else s)

/-- Whether an image is signed with Slokai's image key, whose public part has the digest that the boot ROM holds (R394). Where an image
holds its key, its signature and what is signed is free (log 16). -/
def imageValid (img : List Byte) : Bool :=
  let x := Config.imageParts img
  sm3 x.1 == Config.imageKeyDigest && sm2Verify x.1 x.2.1 x.2.2

/-- UPDATE (R394, R403): address and length of an image in host memory; one whose signature does not hold is denied. -/
def execUpdate (s : State) : Host.Outcome State Fault Refusal :=
  .next (if !s.cmdIs 6 then s
    else
      let img := s.dev.ms.readSystem (hostAt (s.cmdArg 0)) (s.cmdArg 1)
      if imageValid img then { s with fw := { s.fw with altImage := img } }.cmdDone 0 else s.cmdDone 3)

/-! ## Debug commands (R404): what the monitor does for a function -/

/-- The monitor of a command: its group, its first fibre, its context. -/
structure Monitor where
  vf : Nat
  g : Group
  f : Fibre

/-- A group of a function as its monitor, while a command with a number is in progress. -/
def Dev.monitorOf (d : Dev) (vf gid cmd : Nat) : Option Monitor :=
  match d.group? gid, minBy (fun f => f.slot * 32 + f.lane) (d.fibres.filter fun f => d.isOf gid f && !f.helper) with
  | some g, some f =>
    if (d.hub.fn vf).dbgBusy && d.vfOf g.ctx == vf && fieldOf (d.ms.readSystem (dbgAt vf 0x100) 1) 0 1 == cmd then some ⟨vf, g, f⟩
    else none
  | _, _ => none

/-- The 64-byte command. -/
def Dev.dbgCmd (d : Dev) (vf : Nat) : List Byte := d.ms.readSystem (dbgAt vf 0x100) 64

/-- The monitor's reply (R404): CMD, SEQ, STATUS, data from byte 16 on; released at SYSTEM scope. -/
def Dev.dbgReply (d : Dev) (m : Monitor) (st : Nat) (data : List Byte) : Dev :=
  let b := (d.dbgCmd m.vf).take 2 ++ [BitVec.ofNat 8 st] ++ leBytes 13 0 ++ data
  ((d.release m.g.core Scope.system).updMs fun ms => ms.poke .hub (dbgAt m.vf 0x140) b).updHub fun h =>
    h.setFn { h.fn m.vf with dbgBusy := false }

/-- A trap that the monitor takes: it goes to the fault path (R404). -/
def Dev.monTrap (d : Dev) (m : Monitor) (t : Trap) : Dev :=
  (d.updWarp m.f.core m.f.slot fun w => { w with mon := true }).deliver (fun f => if f.core == m.f.core && f.slot == m.f.slot && f.lane == m.f.lane then some t else none) Fibre.pc

/-- The monitor's access of one element at a `.g` or `.w` address: a trap, or the value read. -/
def Dev.monOne (d : Dev) (m : Monitor) (win store : Bool) (n a : Nat) (v : W64) : Except Trap W64 × Dev :=
  let r := d.accessOne m.g ⟨if win then 4 else 0, n, store, none⟩ m.f v [(0, BitVec.ofNat 64 a)]
  match r.1.trap with
  | some t => (.error t, r.2)
  | none => (.ok r.1.value, r.2)

/-- The monitor reads bytes. -/
def Dev.monRead (m : Monitor) (win : Bool) : Nat → Nat → Dev → Except Trap (List Byte) × Dev
  | 0, _, d => (.ok [], d)
  | n + 1, a, d =>
    match d.monOne m win false 1 a 0 with
    | (.error t, d) => (.error t, d)
    | (.ok v, d) =>
      match monRead m win n (a + 1) d with
      | (.error t, d) => (.error t, d)
      | (.ok l, d) => (.ok (v.setWidth 8 :: l), d)

/-- The monitor writes bytes. -/
def Dev.monWrite (m : Monitor) (win : Bool) : List Byte → Nat → Dev → Option Trap × Dev
  | [], _, d => (none, d)
  | b :: l, a, d =>
    match d.monOne m win true 1 a (b.setWidth 64) with
    | (.error t, d) => (some t, d)
    | (.ok _, d) => monWrite m win l (a + 1) d

/-- Runs a debug command if a monitor has it to answer. -/
def State.debug (s : State) (cmd : Nat) (f : Monitor → List Byte → Dev → Dev) : Host.Outcome State Fault Refusal :=
  .next (s.onDev fun d =>
    match d.monitorOf d.arg.a d.arg.b cmd with
    | some m => f m (d.dbgCmd m.vf) d
    | none => d)

/-- STOP (R404): every group of the context but the monitor's stops, and is saved with HALTED; a function, b the monitor's group. -/
def execStopCmd (s : State) : Host.Outcome State Fault Refusal :=
  s.debug 1 fun m _ d =>
    let d := d.updHub fun h => h.updCtx m.g.ctx fun c => { c with stopBy := some m.g.gid }
    let held (x : Saved) : Bool := x.group.ctx == m.g.ctx && x.group.gid != m.g.gid && !x.partial_
    let d := d.onSaved held (.halt true)
    (d.stopContext m.g.ctx fun w => w.gid == m.g.gid).dbgReply m 0 []

/-- Groups of a context that a HALT instruction holds. -/
def Dev.haltedBy (d : Dev) (ctx : Nat) : List Nat :=
  let at_ (f : Fibre) : Bool := f.trapped && f.trapcause.extractLsb' 0 8 == 18#8
  ((d.groups.filter fun g => g.ctx == ctx && d.fibres.any fun f => d.isOf g.gid f && at_ f).map Group.gid) ++
  (d.saved.filter fun x => x.group.ctx == ctx && x.fibres.any at_).map fun x => x.group.gid

/-- GO (R404): groups saved by STOP are no longer held and come back where there is room; halted groups receive RESUME; a function,
b the monitor's group. -/
def execGoCmd (s : State) : Host.Outcome State Fault Refusal :=
  s.debug 2 fun m _ d =>
    let ctx := m.g.ctx
    let back := (d.saved.filter fun x => x.group.ctx == ctx && x.halted).map fun x => (x.group.gid, x.group.core)
    let d := d.onSaved (fun x => x.group.ctx == ctx && x.halted) (.halt false)
    let halts := d.haltedBy ctx
    let d := d.updHub fun h => h.updCtx ctx fun c => { c with stopBy := none, frecs := c.frecs.filter fun r => !halts.contains r.2 }
    let d := halts.foldl Dev.tryResume d
    (back.foldl (fun d p => d.restore p.1 p.2 false) d).dbgReply m 0 []

/-- RDMEM (R404): byte 2 the length, byte 3 one for a `.w` address, the address at byte 8; a function, b the monitor's group. -/
def execRdmem (s : State) : Host.Outcome State Fault Refusal :=
  s.debug 3 fun m c d =>
    match Dev.monRead m (fieldOf c 3 1 == 1) (min 48 (fieldOf c 2 1)) (fieldOf c 8 8) d with
    | (.error t, d) => d.monTrap m t
    | (.ok b, d) => d.dbgReply m 0 b

/-- WRMEM (R404): as RDMEM, the data at byte 16; a function, b the monitor's group. -/
def execWrmem (s : State) : Host.Outcome State Fault Refusal :=
  s.debug 4 fun m c d =>
    match Dev.monWrite m (fieldOf c 3 1 == 1) ((c.drop 16).take (min 48 (fieldOf c 2 1))) (fieldOf c 8 8) d with
    | (some t, d) => d.monTrap m t
    | (none, d) => d.dbgReply m 0 []

/-- RDSAVE (R404): 48 bytes at an offset of the context's save pool, at byte 8; outside it, or untranslated: denied; a function, b the
monitor's group. -/
def execRdsave (s : State) : Host.Outcome State Fault Refusal :=
  s.debug 5 fun m c d =>
    match d.hub.ctx? m.g.ctx with
    | none => d
    | some x =>
      if x.savesz < fieldOf c 8 8 + 48 then d.dbgReply m 3 []
      else match d.readIpa m.vf (x.savep + fieldOf c 8 8) 48 with
        | .ok b => d.dbgReply m 0 b
        | .error _ => d.dbgReply m 3 []

/-- The word of BKPT. -/
def bkptWord : W32 := 0x98000000

/-- BREAK (R404): the word at the address at byte 8 becomes BKPT, the old word is returned; a function, b the monitor's group. -/
def execBreakCmd (s : State) : Host.Outcome State Fault Refusal :=
  s.debug 6 fun m c d =>
    let win := fieldOf c 3 1 == 1
    match d.monOne m win false 4 (fieldOf c 8 8) 0 with
    | (.error t, d) => d.monTrap m t
    | (.ok v, d) =>
      match d.monOne m win true 4 (fieldOf c 8 8) (bkptWord.setWidth 64) with
      | (.error t, d) => d.monTrap m t
      | (.ok _, d) => d.dbgReply m 0 (leBytes 4 (v.setWidth 32).toNat)

end Sys2Proof.Machine
end

