-- ==== Sys2Proof/Machine/Corgon.lean ====
section
/-! DEFINITION. The Xcorgon instructions (22: R391 to R393). The Corgon core that runs is `Fw.curCorgon`; its RISC-V state and how it takes
an exception are PRESUMED (log 11). -/

namespace Sys2Proof.Machine

/-! ## A Corgon core -/

/-- Register `n`; x0 reads 0. -/
def Corgon.get (c : Corgon) (n : Nat) : W64 := if n == 0 then 0 else nth c.x (n - 1) 0

/-- Writes register `n`; a write of x0 is ignored. -/
def Corgon.put (c : Corgon) (n : Nat) (v : W64) : Corgon := if n == 0 then c else { c with x := c.x.set (n - 1) v }

/-- Takes an exception: mepc, mcause, mtval; MPIE holds MIE, MIE is 0, MPP is machine mode; the handler at mtvec. -/
def Corgon.trap (c : Corgon) (cause : Nat) (tval : W64) : Corgon :=
  let mie := c.mstatus.extractLsb' 3 1
  let st := (c.mstatus &&& ~~~(0x1888 : W64)) ||| 0x1800 ||| (mie.setWidth 64 <<< 7)
  { c with mepc := c.pc, mcause := BitVec.ofNat 64 cause, mtval := tval, mstatus := st, pc := c.mtvec &&& ~~~(3 : W64) }

/-- Writes the result of an instruction and goes on. -/
def Corgon.done (c : Corgon) (rd : Nat) (v : W64) : Corgon := { c.put rd v with pc := c.pc + 4, minstret := c.minstret + 1 }

/-- The Corgon core that runs. -/
def State.cor (s : State) : Corgon := (getBy Corgon.no s.fw.curCorgon s.fw.corgons).getD (Corgon.reset s.fw.curCorgon)

/-- Replaces a Corgon core. -/
def State.setCor (s : State) (c : Corgon) : State := { s with fw := { s.fw with corgons := putBy Corgon.no c s.fw.corgons } }

/-! ## RFETCH -/

/-- RFETCH: the fetch of R346, once, for a hardware slot, into a hub SRAM buffer. -/
def execRfetch (o : XcOp) (s : State) : Host.Outcome State Fault Refusal :=
  let c := s.cor
  let slot := c.get o.rs1.toNat
  let buf := (c.get o.rs2.toNat).toNat
  match s.dev.hub.queues.find? fun q => q.hw == some (slot.toNat % 256) with
  | none => .next (s.setCor (c.done o.rd.toNat 3))
  | some q =>
    if q.stopped then .next (s.setCor (c.done o.rd.toNat 2))
    else
      let r := s.dev.fetchOne q false
      let t : State := { s with dev := r.2 }
      .next (match r.1 with
        | .packet b => (t.onDev fun d => d.updHub fun h => h.sramPut buf b).setCor (c.done o.rd.toNat 0)
        | .mismatch => t.setCor (c.done o.rd.toNat 1)
        | .fault => t.setCor (c.trap 24 slot)
        | _ => t.setCor (c.done o.rd.toNat 2))

/-! ## XBFE -/

/-- Lowest bit and bits of the field; nothing where the operand is refused. -/
def xbfeField (b : W64) : Option (Nat × Nat) :=
  let p := bitsOf b.toNat 0 6
  let n := bitsOf b.toNat 6 6 + 1
  if b.toNat / 2 ^ 12 != 0 || 64 < p + n then none else some (p, n)

/-- A bit-field extract. -/
def xbfe (o : XcOp) (signed : Bool) (s : State) : Host.Outcome State Fault Refusal :=
  let c := s.cor
  let a := c.get o.rs1.toNat
  let b := c.get o.rs2.toNat
  match xbfeField b with
  | none => .next (s.setCor (c.trap 25 b))
  | some (p, n) =>
    let f := a.extractLsb' p n
    .next (s.setCor (c.done o.rd.toNat (if signed then f.signExtend 64 else f.setWidth 64)))

/-- XBFE. -/
def execXbfe (o : XcOp) (s : State) : Host.Outcome State Fault Refusal := xbfe o false s
/-- XBFE.S. -/
def execXbfeS (o : XcOp) (s : State) : Host.Outcome State Fault Refusal := xbfe o true s

/-! ## SWAIT (R392) -/

/-- Returns the pending lines of a mask to a Corgon core and clears them, in one step. -/
def State.takeLines (s : State) (c : Corgon) (m : W64) (rd : Nat) : State :=
  (s.onDev fun d => d.updHub fun h => { h with signals := h.signals &&& ~~~m }).setCor
    ({ c with waiting := none }.done rd (s.dev.hub.signals &&& m))

/-- SWAIT: it returns at once when a line of the mask is pending, else the core waits. -/
def execSwait (o : XcWOp) (s : State) : Host.Outcome State Fault Refusal :=
  let c := s.cor
  let m := c.get o.rs1.toNat
  .next (if m == 0 then s.setCor (c.trap 26 m)
    else if s.dev.hub.signals &&& m != 0 then s.takeLines c m o.rd.toNat
    else s.setCor { c with waiting := some (m, o.rd.toNat) })

/-- Whether a pending line ends a Corgon core's wait. -/
def State.wakes (s : State) (c : Corgon) : Bool := match c.waiting with | some w => s.dev.hub.signals &&& w.1 != 0 | none => false

/-- SWAIT_WAKE: a pending line ends the wait of a Corgon core; a the core. -/
def execSwaitWake (s : State) : Host.Outcome State Fault Refusal :=
  .next (match getBy Corgon.no s.dev.arg.a s.fw.corgons with
    | some c =>
      match c.waiting with
      | some w => if s.wakes c then s.takeLines c w.1 w.2 else s
      | none => s
    | none => s)

/-! ## DISP (R393) -/

/-- Whether DISP faults on a record for a core, its save area aside. -/
def badDisp (h : Hub) (b : List Byte) : Bool :=
  let f (o n : Nat) : Nat := fieldOf b o n
  fieldOf b 0x28 24 != 0 || !goodAddr (f 0 8) 4 || !goodAddr (f 8 8) 8 || !goodAddr (f 0x10 8) 4096 || 3 < f 0x1D 1 ||
  15 < f 0x20 1 || !inLimits (f 0x21 1) 1 32 || !inLimits (f 0x22 1) 1 32 || !inLimits (f 0x23 1) 1 16 || 128 < f 0x24 1 ||
  16 < f 0x25 1 || 16 < f 0x26 1 || 8 < f 0x27 1 || match h.ctx? (f 0x1C 1) with | some c => c.dying | none => true

/-- The launch of a new group that DISP places (log 26). -/
def dispLaunch (b : List Byte) (lid now : Nat) (args : List W64) : Launch :=
  let f (o n : Nat) : Nat := fieldOf b o n
  { Launch.empty with
    lid := lid, kind := .disp, ctx := f 0x1C 1, cls := f 0x1D 1, launchid := BitVec.ofNat 32 (f 0x18 4)
    entry := BitVec.ofNat 48 (f 0 8), warps := f 0x21 1, nfib := f 0x22 1, win := f 0x23 1, spad := f 0x24 1, aslots := f 0x25 1
    kargs := args.take (f 0x26 1), largs := args.drop (f 0x26 1), since := now }

/-- Places a new group on a core; nothing where the core lacks room, or its argument block cannot be translated. -/
def Dev.dispNew (d : Dev) (b : List Byte) (core : Nat) : Option Dev :=
  let n := fieldOf b 0x26 1 + fieldOf b 0x27 1
  let ctx := fieldOf b 0x1C 1
  let args := if fieldOf b 8 8 == 0 || n == 0 then .ok [] else d.hubWords ctx (fieldOf b 8 8 % 2 ^ 48) n
  match args with
  | .error _ => none
  | .ok a =>
    let l := dispLaunch b d.hub.nextLid d.cycle (words a n)
    let d := d.updHub fun h => { h with launches := h.launches ++ [l], nextLid := h.nextLid + 1 }
    (d.placeOn [] l (l.shape (fieldOf b 0x1E 2) (fieldOf b 0x20 1)) core).map fun d => d.markPlaced l.lid 0

/-- The saved group that a record names. -/
def Dev.dispSaved (d : Dev) (b : List Byte) : Option Saved :=
  d.saved.find? fun s => s.group.ctx == fieldOf b 0x1C 1 && s.area == fieldOf b 0x10 8 % 2 ^ 48

/-- What DISP does: a fault, room or none, and the device after it. -/
def Dev.dispRun (d : Dev) (b : List Byte) (core : Nat) : Option (Option Dev) :=
  if badDisp d.hub b || 511 < core then none
  else if fieldOf b 0x10 8 == 0 then some (d.dispNew b core)
  else match d.dispSaved b with
    | none => none
    | some s =>
      if s.warps.length != fieldOf b 0x21 1 || !d.mayRestore s core then none
      else
        let d2 := d.restore s.group.gid core s.partial_
        let left := d2.saved.any fun x => x.group.gid == s.group.gid && x.partial_ == s.partial_
        some (if left then none else some d2)

/-- DISP (R393). -/
def execDisp (o : XcOp) (s : State) : Host.Outcome State Fault Refusal :=
  let c := s.cor
  let at_ := c.get o.rs1.toNat
  let core := c.get o.rs2.toNat
  .next (match s.dev.dispRun (s.dev.hub.sram.read at_.toNat 64) core.toNat with
    | none => s.setCor (c.trap 27 (if 511 < core.toNat then core else at_))
    | some none => s.setCor (c.done o.rd.toNat 1)
    | some (some d) => { s with dev := d }.setCor (c.done o.rd.toNat 0))

end Sys2Proof.Machine
end

