-- ==== Sys2Proof/Machine/Evict.lean ====
section
/-! DEFINITION. Partial eviction (10: R265; 19: R356, R357, R365): which warps leave so that a team of a launch can be placed. -/

namespace Sys2Proof.Machine

/-! ## Trials -/

/-- A device as the save of some warps of a core leaves it: a group without a warp is gone with its extents and stream entries, and a walk
with its role groups. -/
def Dev.vacate (d : Dev) (core : Nat) (ws : List Warp) : Dev :=
  let d1 := d.without core ws
  let stays (gid : Nat) : Bool := d1.warps.any fun w => w.gid == gid
  let d2 := { d1 with groups := d1.groups.filter fun g => g.core != core || stays g.gid }
  d2.updCore core fun c => { c with
    walk := c.walk.filter fun w => stays w.prod && stays w.cons
    shut := c.shut.filter fun e => e.kind != 3 || stays e.owner }

/-- A device as the stops under way will leave it. -/
def Dev.settled (d : Dev) : Dev :=
  (dedup ((d.warps.filter Warp.stopping).map Warp.core)).foldl
    (fun d core => d.vacate core (d.warps.filter fun w => w.core == core && w.stopping)) d

/-! ## Victims (R265, R365) -/

/-- Release cycle of a warp's group. -/
def Dev.bornOf (d : Dev) (w : Warp) : Nat := ((d.group? w.gid).map Group.born).getD 0

/-- Warps that a group of a class may evict on a core, youngest first. -/
def Dev.victims (d : Dev) (core cls : Nat) : List Warp :=
  let ok (w : Warp) : Bool := w.core == core && !w.stopping && match d.group? w.gid with | some g => decide (cls < g.cls) | none => false
  (sortBy (fun w => d.bornOf w * 32 + w.warpid) (d.warps.filter ok)).reverse

/-- The warps that leave a core when the youngest victims are taken one at a time, each with what its choice widens to, until the
incoming group fits; none where it would not fit without any of them. -/
def Dev.evictees (d : Dev) (core cls : Nat) (fits : Dev → Bool) : Option (List Warp) :=
  let vs := d.victims core cls
  let take (n : Nat) : List Warp := d.warps.filter (d.stopSet core fun w => (vs.take n).contains w)
  ((List.range (vs.length + 1)).find? fun n => fits (d.vacate core (take n))).map take

/-! ## The plan for a launch -/

/-- Core and slot of the warps to evict so that every group of a team has room, and the device with the team placed: a core with room is
preferred, then the first where an eviction makes room (log 62). -/
def Dev.planGroups (ahead : List Launch) (l : Launch) (team : Nat) (cands : Nat → List Nat) : Nat → Dev → Option (List (Nat × Nat) × Dev)
  | 0, d => some ([], d)
  | n + 1, d =>
    (planGroups ahead l team cands n d).bind fun x =>
      let put (c : Nat) (e : Dev) : Option Dev := e.placeOn ahead l (l.shape team n) c
      match (cands n).findSome? fun c => put c x.2 with
      | some e => some (x.1, e)
      | none => (cands n).findSome? fun c =>
          (x.2.evictees c l.cls fun e => (put c e).isSome).bind fun ws =>
            (put c (x.2.vacate c ws)).map fun e => (x.1 ++ ws.map fun w => (c, w.slot), e)

/-- The same for a team of a launch, in the clusters where it may go. -/
def Dev.planTeam (d : Dev) (ahead : List Launch) (l : Launch) (team : Nat) : Option (List (Nat × Nat)) :=
  let inCluster (c _ : Nat) : List Nat := (List.range 16).map fun i => c * 16 + i
  let plan (cands : Nat → List Nat) : Option (List (Nat × Nat)) := (Dev.planGroups ahead l team cands l.gpt d).map Prod.fst
  if l.fixed then plan fun n => [l.core0 + team * l.gpt + n]
  else if l.kind == .bin then plan (inCluster (clusterOf l.core0))
  else (List.range 32).findSome? fun c => plan (inCluster c)

/-- The same for a walk, on NCORE cores. -/
def Dev.planWalk (d : Dev) (ahead : List Launch) (l : Launch) : Option (List (Nat × Nat)) :=
  let cs := if l.fixed then (List.range l.ncore).map (l.core0 + ·) else List.range 512
  let free := cs.filter fun c => (d.walkOn ahead l 0 c).isSome
  let more := (cs.filter fun c => !free.contains c).filterMap fun c =>
    (d.evictees c l.cls fun e => (e.walkOn ahead l 0 c).isSome).map fun ws => ws.map fun w => (c, w.slot)
  if free.length + more.length < l.ncore then none else some (more.take (l.ncore - free.length)).flatten

/-- Core and slot of the warps that are to leave so that the next team of a launch can be placed: none where nothing of lower priority
that may be evicted would make room for it. -/
def Dev.evictPlan (d : Dev) (l : Launch) : List (Nat × Nat) :=
  let e := d.settled
  let ahead := d.waiting.takeWhile fun x => x.lid != l.lid
  match (List.range l.teams).find? fun t => !l.placed.contains t with
  | none => []
  | some t => ((if l.kind == .walk then e.planWalk ahead l else e.planTeam ahead l t)).getD []

/-- Whether a launch may evict (R365): class 0 or 1, passed over for 20 µs. -/
def Launch.mayEvict (l : Launch) (now : Nat) : Bool := decide (l.cls ≤ 1) && l.passed now 21000

/-- PARTIAL_EVICTION (R265, R365): the part, on one core, of what a launch evicts; a launch, b core. -/
def execPartialEviction (s : State) : Host.Outcome State Fault Refusal :=
  .next (s.onDev fun d =>
    match d.launch? d.arg.a with
    | none => d
    | some l =>
      let slots := ((d.evictPlan l).filter fun p => p.1 == d.arg.b).map Prod.snd
      if !l.mayEvict d.cycle || slots.isEmpty then d else d.stopFor d.arg.b l.lid fun w => slots.contains w.slot)

end Sys2Proof.Machine
end

