-- ==== Sys2Proof/Machine/Latency.lean ====
section
/-! DEFINITION. What happens by itself in a core: variable-latency results that arrive (R68), the end of YIELD's wait (R140),
compatibility-mode stores that become available (R320). -/

namespace Sys2Proof.Machine

/-! ## VARIABLE_LATENCY_ARRIVAL (R68) -/

/-- The outstanding writes of a lane register arrive; none does while an earlier fault of the fibre is not yet known (R244). -/
def Dev.arriveV (d : Dev) (core slot lane n : Nat) : Dev :=
  d.updFibre core slot lane fun f => if f.late.isSome then f else landV f (.v n)

/-- The outstanding writes of a uniform register of the group in a slot arrive: of k0 to k54 in the group, of k55 to k63 in the
copy of the warp in that slot (R27). -/
def Dev.arriveK (d : Dev) (core slot n : Nat) : Dev :=
  match (d.warp? core slot).bind fun w => d.group? w.gid with
  | none => d
  | some g =>
    let mine (o : Outst) : Bool := o.reg == .k n && (decide (n < 55) || o.slot == slot)
    let d := (g.outst.filter mine).foldl (fun d o => d.setK g.gid core o.slot n o.value) d
    d.updGroup g.gid fun g => { g with outst := g.outst.filter fun o => !mine o }

/-- VARIABLE_LATENCY_ARRIVAL (R68); a core, b slot, c lane, d register, flag: a uniform register. -/
def execVariableLatencyArrival (s : State) : Host.Outcome State Fault Refusal :=
  .next (s.onDev fun d =>
    if d.arg.flag then d.arriveK d.arg.a d.arg.b d.arg.d else d.arriveV d.arg.a d.arg.b d.arg.c d.arg.d)

/-! ## YIELD_WAIT_END (R140) -/

/-- Whether the wait of YIELD is over. -/
def Fibre.yieldOver (f : Fibre) (now : Nat) : Bool := match f.wait with | .yielding n => decide (n ≤ now) | _ => false

/-- A fibre whose wait is over is ready again; its age starts anew (R21, R140). -/
def Fibre.endYield (f : Fibre) (now : Nat) : Fibre := if f.yieldOver now then { f with wait := .none, age := now } else f

/-- YIELD_WAIT_END (R140); a core, b slot, c lane. -/
def execYieldWaitEnd (s : State) : Host.Outcome State Fault Refusal :=
  .next (s.onDev fun d => d.updFibre d.arg.a d.arg.b d.arg.c fun f => f.endYield d.cycle)

/-! ## STORE_BECOMES_AVAILABLE (R320) -/

/-- STORE_BECOMES_AVAILABLE (R320, R322): a pending compatibility-mode store of a core becomes available, after those of its fibre
that must come before it; a core, b index among the core's pending stores. -/
def execStoreBecomesAvailable (s : State) : Host.Outcome State Fault Refusal :=
  .next (s.onDev fun d => d.onMs [] fun ms => ms.compatAvail d.arg.a d.arg.b)

end Sys2Proof.Machine
end

