-- ==== Sys2Proof/Machine/Uniform.lean ====
section
/-! DEFINITION. Uniform arithmetic, memory and flow (07: R183 to R186). -/

namespace Sys2Proof.Machine

/-! ## Arithmetic (R183, R184) -/

/-- A uniform operation with an immediate (R183). -/
def kImm (i : Instr) (o : KImmOp) (f : W64 → W64 → W64) (s : State) : Host.Outcome State Fault Refusal :=
  s.run i fun d => (d.putK o.kd.toNat (f (d.readK o.ka.toNat) (kimm o.imm))).advUni o.stl

/-- A uniform operation on registers (R183). -/
def kReg (i : Instr) (o : K3Op) (f : W64 → W64 → W64) (s : State) : Host.Outcome State Fault Refusal :=
  s.run i fun d => (d.putK o.kd.toNat (f (d.readK o.ka.toNat) (d.readK o.kb.toNat))).advUni o.stl

/-- MOVK merges into the register as it stands after every earlier write (R184). -/
def movk (i : Instr) (o : KHalfOp) (h : Nat) (s : State) : Host.Outcome State Fault Refusal :=
  s.run i fun d =>
    let d := d.landK o.kd.toNat
    (d.putK o.kd.toNat (putBytes (d.kreg o.kd.toNat) (2 * h) 2 (o.imm.setWidth 64))).advUni o.stl

/-- KADD with an immediate (R183). -/
def execKaddImm (o : KImmOp) (s : State) : Host.Outcome State Fault Refusal := kImm (.kaddImm o) o (fun a b => a + b) s
/-- KADD (R183). -/
def execKaddReg (o : K3Op) (s : State) : Host.Outcome State Fault Refusal := kReg (.kaddReg o) o (fun a b => a + b) s
/-- KSUB with an immediate (R183). -/
def execKsubImm (o : KImmOp) (s : State) : Host.Outcome State Fault Refusal := kImm (.ksubImm o) o (fun a b => a - b) s
/-- KSUB (R183). -/
def execKsubReg (o : K3Op) (s : State) : Host.Outcome State Fault Refusal := kReg (.ksubReg o) o (fun a b => a - b) s
/-- KMUL with an immediate (R183). -/
def execKmulImm (o : KImmOp) (s : State) : Host.Outcome State Fault Refusal := kImm (.kmulImm o) o (fun a b => a * b) s
/-- KMUL (R183). -/
def execKmulReg (o : K3Op) (s : State) : Host.Outcome State Fault Refusal := kReg (.kmulReg o) o (fun a b => a * b) s
/-- KAND with an immediate (R183). -/
def execKandImm (o : KImmOp) (s : State) : Host.Outcome State Fault Refusal := kImm (.kandImm o) o (fun a b => a &&& b) s
/-- KAND (R183). -/
def execKandReg (o : K3Op) (s : State) : Host.Outcome State Fault Refusal := kReg (.kandReg o) o (fun a b => a &&& b) s
/-- KOR with an immediate (R183). -/
def execKorImm (o : KImmOp) (s : State) : Host.Outcome State Fault Refusal := kImm (.korImm o) o (fun a b => a ||| b) s
/-- KOR (R183). -/
def execKorReg (o : K3Op) (s : State) : Host.Outcome State Fault Refusal := kReg (.korReg o) o (fun a b => a ||| b) s
/-- KXOR with an immediate (R183). -/
def execKxorImm (o : KImmOp) (s : State) : Host.Outcome State Fault Refusal := kImm (.kxorImm o) o (fun a b => a ^^^ b) s
/-- KXOR (R183). -/
def execKxorReg (o : K3Op) (s : State) : Host.Outcome State Fault Refusal := kReg (.kxorReg o) o (fun a b => a ^^^ b) s
/-- KSHL with an immediate count, below 64 (R183). -/
def execKshlImm (o : KImmOp) (s : State) : Host.Outcome State Fault Refusal := kImm (.kshlImm o) o (fun a b => a <<< (b.toNat % 64)) s
/-- KSHL by kB[5:0] (R183). -/
def execKshlReg (o : K3Op) (s : State) : Host.Outcome State Fault Refusal := kReg (.kshlReg o) o (fun a b => a <<< (b.toNat % 64)) s
/-- KSHR with an immediate count, below 64 (R183). -/
def execKshrImm (o : KImmOp) (s : State) : Host.Outcome State Fault Refusal := kImm (.kshrImm o) o (fun a b => a >>> (b.toNat % 64)) s
/-- KSHR by kB[5:0] (R183). -/
def execKshrReg (o : K3Op) (s : State) : Host.Outcome State Fault Refusal := kReg (.kshrReg o) o (fun a b => a >>> (b.toNat % 64)) s

/-- KCMP (R184). -/
def execKcmp (o : KCcOp) (s : State) : Host.Outcome State Fault Refusal :=
  s.run (.kcmp o) fun d =>
    (d.putK o.kd.toNat (if condK o.cc.toNat (d.readK o.ka.toNat) (d.readK o.kb.toNat) then 1 else 0)).advUni o.stl

/-- KSEL: with kB = 0 the register keeps its value (R184). -/
def execKsel (o : K3Op) (s : State) : Host.Outcome State Fault Refusal :=
  s.run (.ksel o) fun d =>
    (if d.readK o.kb.toNat != 0 then d.putK o.kd.toNat (d.readK o.ka.toNat) else d.putK o.kd.toNat (d.readK o.kd.toNat)).advUni o.stl

/-- KMOV (R184). -/
def execKmov (o : K2Op) (s : State) : Host.Outcome State Fault Refusal :=
  s.run (.kmov o) fun d => (d.putK o.kd.toNat (d.readK o.ka.toNat)).advUni o.stl

/-- MOVK.h0 (R184). -/
def execMovkH0 (o : KHalfOp) (s : State) : Host.Outcome State Fault Refusal := movk (.movkH0 o) o 0 s
/-- MOVK.h1 (R184). -/
def execMovkH1 (o : KHalfOp) (s : State) : Host.Outcome State Fault Refusal := movk (.movkH1 o) o 1 s
/-- MOVK.h2 (R184). -/
def execMovkH2 (o : KHalfOp) (s : State) : Host.Outcome State Fault Refusal := movk (.movkH2 o) o 2 s
/-- MOVK.h3 (R184). -/
def execMovkH3 (o : KHalfOp) (s : State) : Host.Outcome State Fault Refusal := movk (.movkH3 o) o 3 s

/-! ## Memory (R185) -/

/-- A fault of a uniform access in the fibres of the batch: precise, or noted late where REPC is nonzero (R244). -/
def Dev.kFault (d : Dev) (stl : BitVec 2) (t : Trap) : Dev :=
  (d.updActive fun f => if f.imprecise t then f.noteLate t else f).split
    (fun f => if f.imprecise t then none else some t) fun d => d.advUni stl

/-- A uniform access of 8 bytes (R185): checks and place, or the trap. -/
def Dev.kPlace (d : Dev) (q : Acc) (a v : W64) : Except Trap Place × Dev :=
  let g := d.grp
  match d.accTrap g q v [(0, a)] with
  | some t => (.error t, d)
  | none =>
    let r := d.resolve g q [(0, a)]
    match r.1.ok, pfTrap (if q.store then 1 else 0) r.1.bad none with
    | p :: _, _ => (.ok p.2, r.2)
    | [], some t => (.error t, r.2)
    | [], none => (.error (tGrant a), r.2)

/-- KLD (R185). -/
def kld (i : Instr) (o : KImmOp) (sp : Nat) (s : State) : Host.Outcome State Fault Refusal :=
  s.run i fun d =>
    let q : Acc := ⟨sp, 8, false, none⟩
    match d.kPlace q (d.readK o.ka.toNat + simm o.imm * 8) 0 with
    | (.error t, d1) => if d.allHelpers then (d1.oweK o.kd.toNat 0).advUni o.stl else d1.kFault o.stl t
    | (.ok p, d1) =>
      let r := d1.readPlace d1.grp q 8 p
      (r.2.oweK o.kd.toNat (BitVec.ofNat 64 r.1)).advUni o.stl

/-- KST (R185): a batch of helper fibres alone stores nothing. -/
def kst (i : Instr) (o : KImmOp) (sp : Nat) (s : State) : Host.Outcome State Fault Refusal :=
  s.run i fun d =>
    let q : Acc := ⟨sp, 8, true, none⟩
    let v := d.readK o.kd.toNat
    if d.allHelpers then d.advUni o.stl
    else match d.kPlace q (d.readK o.ka.toNat + simm o.imm * 8) v with
      | (.error t, d1) => d1.kFault o.stl t
      | (.ok p, d1) =>
        let m := (d.cur.members.head?).getD (0, 0)
        (d1.writePlace d1.grp q m.1 m.2 8 v p).advUni o.stl

/-- KLD.g (R185). -/
def execKldG (o : KImmOp) (s : State) : Host.Outcome State Fault Refusal := kld (.kldG o) o 0 s
/-- KLD.s (R185). -/
def execKldS (o : KImmOp) (s : State) : Host.Outcome State Fault Refusal := kld (.kldS o) o 1 s
/-- KST.g (R185). -/
def execKstG (o : KImmOp) (s : State) : Host.Outcome State Fault Refusal := kst (.kstG o) o 0 s
/-- KST.s (R185). -/
def execKstS (o : KImmOp) (s : State) : Host.Outcome State Fault Refusal := kst (.kstS o) o 1 s

/-! ## Flow (R186) -/

/-- KBR (R186). -/
def execKbr (o : KBrOp) (s : State) : Host.Outcome State Fault Refusal :=
  s.run (.kbr o) fun d =>
    let taken := condZ o.cc.toNat (d.readK o.ka.toNat)
    d.transfer o.stl false fun f => if taken then some (target f.pc o.off) else none

/-- KJMP (R186). -/
def execKjmp (o : JmpOp) (s : State) : Host.Outcome State Fault Refusal :=
  s.run (.kjmp o) fun d => d.transfer o.stl false fun f => some (target f.pc o.off)

/-- KCALL (R186). -/
def execKcall (o : CallOp) (s : State) : Host.Outcome State Fault Refusal :=
  s.run (.kcall o) fun d => (d.oweK o.vd.toNat (linkOf d.cur.pc)).transfer o.stl false fun f => some (target f.pc o.off)

/-- KRET (R186). -/
def execKret (o : K1Op) (s : State) : Host.Outcome State Fault Refusal :=
  s.run (.kret o) fun d =>
    let a := d.readK o.ka.toNat
    if badTarget a then d.trapAll (tAlign a) else d.transfer o.stl false fun _ => some (a.setWidth 48)

/-! ## Words that are no instruction (R72, R73) -/

/-- ILLEGAL_WORD: ILLEGAL in every active fibre, without effect (R73). -/
def execIllegalWord (w : BitVec 32) (s : State) : Host.Outcome State Fault Refusal :=
  .next (s.onDev fun d => d.trapAll (illTrap w (match decode w with | .error r => r | .ok _ => ⟨1, 22, 7⟩)))

end Sys2Proof.Machine
end

