-- ==== Sys2Proof/Machine/Dispatch.lean ====
section
/-! DEFINITION. The meaning of every instruction and event: one arm per constructor, each one call of its meaning. -/

namespace Sys2Proof.Machine

/-- The meaning of an instruction (R1 to R406). -/
def exec (i : Instr) (s : State) : Host.Outcome State Fault Refusal :=
  match i with
  | .add o => Sys2Proof.Machine.execAdd o s
  | .sub o => Sys2Proof.Machine.execSub o s
  | .mul o => Sys2Proof.Machine.execMul o s
  | .mulhiI o => Sys2Proof.Machine.execMulhiI o s
  | .mulhiN o => Sys2Proof.Machine.execMulhiN o s
  | .mad o => Sys2Proof.Machine.execMad o s
  | .and o => Sys2Proof.Machine.execAnd o s
  | .or o => Sys2Proof.Machine.execOr o s
  | .xor o => Sys2Proof.Machine.execXor o s
  | .andn o => Sys2Proof.Machine.execAndn o s
  | .shl o => Sys2Proof.Machine.execShl o s
  | .shr o => Sys2Proof.Machine.execShr o s
  | .sar o => Sys2Proof.Machine.execSar o s
  | .rot o => Sys2Proof.Machine.execRot o s
  | .minI o => Sys2Proof.Machine.execMinI o s
  | .minN o => Sys2Proof.Machine.execMinN o s
  | .maxI o => Sys2Proof.Machine.execMaxI o s
  | .maxN o => Sys2Proof.Machine.execMaxN o s
  | .addsatI o => Sys2Proof.Machine.execAddsatI o s
  | .addsatN o => Sys2Proof.Machine.execAddsatN o s
  | .subsatI o => Sys2Proof.Machine.execSubsatI o s
  | .subsatN o => Sys2Proof.Machine.execSubsatN o s
  | .avgI o => Sys2Proof.Machine.execAvgI o s
  | .avgN o => Sys2Proof.Machine.execAvgN o s
  | .sadI o => Sys2Proof.Machine.execSadI o s
  | .sadN o => Sys2Proof.Machine.execSadN o s
  | .dot4I o => Sys2Proof.Machine.execDot4I o s
  | .dot4N o => Sys2Proof.Machine.execDot4N o s
  | .cmpI o => Sys2Proof.Machine.execCmpI o s
  | .cmpN o => Sys2Proof.Machine.execCmpN o s
  | .sel o => Sys2Proof.Machine.execSel o s
  | .movReg o => Sys2Proof.Machine.execMovReg o s
  | .movUniform o => Sys2Proof.Machine.execMovUniform o s
  | .neg o => Sys2Proof.Machine.execNeg o s
  | .abs o => Sys2Proof.Machine.execAbs o s
  | .not o => Sys2Proof.Machine.execNot o s
  | .popc o => Sys2Proof.Machine.execPopc o s
  | .clz o => Sys2Proof.Machine.execClz o s
  | .ctz o => Sys2Proof.Machine.execCtz o s
  | .brev o => Sys2Proof.Machine.execBrev o s
  | .bfx o => Sys2Proof.Machine.execBfx o s
  | .bfi o => Sys2Proof.Machine.execBfi o s
  | .permb o => Sys2Proof.Machine.execPermb o s
  | .lea o => Sys2Proof.Machine.execLea o s
  | .addi o => Sys2Proof.Machine.execAddi o s
  | .shli o => Sys2Proof.Machine.execShli o s
  | .shri o => Sys2Proof.Machine.execShri o s
  | .sari o => Sys2Proof.Machine.execSari o s
  | .roti o => Sys2Proof.Machine.execRoti o s
  | .movi o => Sys2Proof.Machine.execMovi o s
  | .fadd o => Sys2Proof.Machine.execFadd o s
  | .fsub o => Sys2Proof.Machine.execFsub o s
  | .fmul o => Sys2Proof.Machine.execFmul o s
  | .fma o => Sys2Proof.Machine.execFma o s
  | .fms o => Sys2Proof.Machine.execFms o s
  | .fmin o => Sys2Proof.Machine.execFmin o s
  | .fmax o => Sys2Proof.Machine.execFmax o s
  | .fcmp o => Sys2Proof.Machine.execFcmp o s
  | .fscale o => Sys2Proof.Machine.execFscale o s
  | .fabs o => Sys2Proof.Machine.execFabs o s
  | .fneg o => Sys2Proof.Machine.execFneg o s
  | .fclass o => Sys2Proof.Machine.execFclass o s
  | .frnd o => Sys2Proof.Machine.execFrnd o s
  | .frndRn o => Sys2Proof.Machine.execFrndRn o s
  | .frndRz o => Sys2Proof.Machine.execFrndRz o s
  | .frndRu o => Sys2Proof.Machine.execFrndRu o s
  | .frndRd o => Sys2Proof.Machine.execFrndRd o s
  | .rcp o => Sys2Proof.Machine.execRcp o s
  | .rsq o => Sys2Proof.Machine.execRsq o s
  | .sqrt o => Sys2Proof.Machine.execSqrt o s
  | .ex2 o => Sys2Proof.Machine.execEx2 o s
  | .lg2 o => Sys2Proof.Machine.execLg2 o s
  | .sinp o => Sys2Proof.Machine.execSinp o s
  | .cosp o => Sys2Proof.Machine.execCosp o s
  | .tanh o => Sys2Proof.Machine.execTanh o s
  | .cvt o => Sys2Proof.Machine.execCvt o s
  | .cvtnb o => Sys2Proof.Machine.execCvtnb o s
  | .cvtnbx o => Sys2Proof.Machine.execCvtnbx o s
  | .had o => Sys2Proof.Machine.execHad o s
  | .pack o => Sys2Proof.Machine.execPack o s
  | .unpack o => Sys2Proof.Machine.execUnpack o s
  | .shflIdx o => Sys2Proof.Machine.execShflIdx o s
  | .shflXor o => Sys2Proof.Machine.execShflXor o s
  | .shflUp o => Sys2Proof.Machine.execShflUp o s
  | .shflDn o => Sys2Proof.Machine.execShflDn o s
  | .bcast o => Sys2Proof.Machine.execBcast o s
  | .shflXorConst o => Sys2Proof.Machine.execShflXorConst o s
  | .shflUpConst o => Sys2Proof.Machine.execShflUpConst o s
  | .shflDnConst o => Sys2Proof.Machine.execShflDnConst o s
  | .qxch o => Sys2Proof.Machine.execQxch o s
  | .vote o => Sys2Proof.Machine.execVote o s
  | .matchLanes o => Sys2Proof.Machine.execMatchLanes o s
  | .wred o => Sys2Proof.Machine.execWred o s
  | .wscan o => Sys2Proof.Machine.execWscan o s
  | .br o => Sys2Proof.Machine.execBr o s
  | .jmp o => Sys2Proof.Machine.execJmp o s
  | .ji o => Sys2Proof.Machine.execJi o s
  | .call o => Sys2Proof.Machine.execCall o s
  | .calli o => Sys2Proof.Machine.execCalli o s
  | .ret o => Sys2Proof.Machine.execRet o s
  | .fork o => Sys2Proof.Machine.execFork o s
  | .rejoin o => Sys2Proof.Machine.execRejoin o s
  | .loopImm o => Sys2Proof.Machine.execLoopImm o s
  | .loopUniform o => Sys2Proof.Machine.execLoopUniform o s
  | .nop o => Sys2Proof.Machine.execNop o s
  | .yield o => Sys2Proof.Machine.execYield o s
  | .endFibre o => Sys2Proof.Machine.execEndFibre o s
  | .setperfL o => Sys2Proof.Machine.execSetperfL o s
  | .ldG o => Sys2Proof.Machine.execLdG o s
  | .ldS o => Sys2Proof.Machine.execLdS o s
  | .ldA o => Sys2Proof.Machine.execLdA o s
  | .ldO o => Sys2Proof.Machine.execLdO o s
  | .ldW o => Sys2Proof.Machine.execLdW o s
  | .stG o => Sys2Proof.Machine.execStG o s
  | .stS o => Sys2Proof.Machine.execStS o s
  | .stA o => Sys2Proof.Machine.execStA o s
  | .stO o => Sys2Proof.Machine.execStO o s
  | .stW o => Sys2Proof.Machine.execStW o s
  | .ldStrong o => Sys2Proof.Machine.execLdStrong o s
  | .stStrong o => Sys2Proof.Machine.execStStrong o s
  | .atomG32 o => Sys2Proof.Machine.execAtomG32 o s
  | .atomG64 o => Sys2Proof.Machine.execAtomG64 o s
  | .atomS32 o => Sys2Proof.Machine.execAtomS32 o s
  | .atomS64 o => Sys2Proof.Machine.execAtomS64 o s
  | .atomW32 o => Sys2Proof.Machine.execAtomW32 o s
  | .atomW64 o => Sys2Proof.Machine.execAtomW64 o s
  | .fence o => Sys2Proof.Machine.execFence o s
  | .phase o => Sys2Proof.Machine.execPhase o s
  | .pref o => Sys2Proof.Machine.execPref o s
  | .kvldRead o => Sys2Proof.Machine.execKvldRead o s
  | .kvldOpen o => Sys2Proof.Machine.execKvldOpen o s
  | .kvldClose o => Sys2Proof.Machine.execKvldClose o s
  | .kvappAppend o => Sys2Proof.Machine.execKvappAppend o s
  | .kvappUnref o => Sys2Proof.Machine.execKvappUnref o s
  | .kvappPagein o => Sys2Proof.Machine.execKvappPagein o s
  | .kvappCommit o => Sys2Proof.Machine.execKvappCommit o s
  | .kvappRetain o => Sys2Proof.Machine.execKvappRetain o s
  | .illegalWord w => Sys2Proof.Machine.execIllegalWord w s
  | .kaddImm o => Sys2Proof.Machine.execKaddImm o s
  | .ksubImm o => Sys2Proof.Machine.execKsubImm o s
  | .kmulImm o => Sys2Proof.Machine.execKmulImm o s
  | .kandImm o => Sys2Proof.Machine.execKandImm o s
  | .korImm o => Sys2Proof.Machine.execKorImm o s
  | .kxorImm o => Sys2Proof.Machine.execKxorImm o s
  | .kshlImm o => Sys2Proof.Machine.execKshlImm o s
  | .kshrImm o => Sys2Proof.Machine.execKshrImm o s
  | .kaddReg o => Sys2Proof.Machine.execKaddReg o s
  | .ksubReg o => Sys2Proof.Machine.execKsubReg o s
  | .kmulReg o => Sys2Proof.Machine.execKmulReg o s
  | .kandReg o => Sys2Proof.Machine.execKandReg o s
  | .korReg o => Sys2Proof.Machine.execKorReg o s
  | .kxorReg o => Sys2Proof.Machine.execKxorReg o s
  | .kshlReg o => Sys2Proof.Machine.execKshlReg o s
  | .kshrReg o => Sys2Proof.Machine.execKshrReg o s
  | .kcmp o => Sys2Proof.Machine.execKcmp o s
  | .ksel o => Sys2Proof.Machine.execKsel o s
  | .kmov o => Sys2Proof.Machine.execKmov o s
  | .movkH0 o => Sys2Proof.Machine.execMovkH0 o s
  | .movkH1 o => Sys2Proof.Machine.execMovkH1 o s
  | .movkH2 o => Sys2Proof.Machine.execMovkH2 o s
  | .movkH3 o => Sys2Proof.Machine.execMovkH3 o s
  | .kldG o => Sys2Proof.Machine.execKldG o s
  | .kldS o => Sys2Proof.Machine.execKldS o s
  | .kstG o => Sys2Proof.Machine.execKstG o s
  | .kstS o => Sys2Proof.Machine.execKstS o s
  | .kbr o => Sys2Proof.Machine.execKbr o s
  | .kjmp o => Sys2Proof.Machine.execKjmp o s
  | .kcall o => Sys2Proof.Machine.execKcall o s
  | .kret o => Sys2Proof.Machine.execKret o s
  | .bar o => Sys2Proof.Machine.execBar o s
  | .tbar o => Sys2Proof.Machine.execTbar o s
  | .waitany o => Sys2Proof.Machine.execWaitany o s
  | .arm o => Sys2Proof.Machine.execArm o s
  | .disarm o => Sys2Proof.Machine.execDisarm o s
  | .post o => Sys2Proof.Machine.execPost o s
  | .evset o => Sys2Proof.Machine.execEvset o s
  | .evclr o => Sys2Proof.Machine.execEvclr o s
  | .cpyk o => Sys2Proof.Machine.execCpyk o s
  | .handoff o => Sys2Proof.Machine.execHandoff o s
  | .qpull o => Sys2Proof.Machine.execQpull o s
  | .enq o => Sys2Proof.Machine.execEnq o s
  | .kick o => Sys2Proof.Machine.execKick o s
  | .pres o => Sys2Proof.Machine.execPres o s
  | .prel o => Sys2Proof.Machine.execPrel o s
  | .pscl o => Sys2Proof.Machine.execPscl o s
  | .upret o => Sys2Proof.Machine.execUpret o s
  | .upfail o => Sys2Proof.Machine.execUpfail o s
  | .recur o => Sys2Proof.Machine.execRecur o s
  | .rchild o => Sys2Proof.Machine.execRchild o s
  | .rbase o => Sys2Proof.Machine.execRbase o s
  | .rres o => Sys2Proof.Machine.execRres o s
  | .rarg o => Sys2Proof.Machine.execRarg o s
  | .srd o => Sys2Proof.Machine.execSrd o s
  | .swr o => Sys2Proof.Machine.execSwr o s
  | .trap o => Sys2Proof.Machine.execTrap o s
  | .tret o => Sys2Proof.Machine.execTret o s
  | .tmask o => Sys2Proof.Machine.execTmask o s
  | .tunmask o => Sys2Proof.Machine.execTunmask o s
  | .rgn o => Sys2Proof.Machine.execRgn o s
  | .setperf o => Sys2Proof.Machine.execSetperf o s
  | .bkpt o => Sys2Proof.Machine.execBkpt o s
  | .halt o => Sys2Proof.Machine.execHalt o s
  | .rfetch o => Sys2Proof.Machine.execRfetch o s
  | .xbfe o => Sys2Proof.Machine.execXbfe o s
  | .xbfeS o => Sys2Proof.Machine.execXbfeS o s
  | .swait o => Sys2Proof.Machine.execSwait o s
  | .disp o => Sys2Proof.Machine.execDisp o s
  | .variableLatencyArrival => Sys2Proof.Machine.execVariableLatencyArrival s
  | .yieldWaitEnd => Sys2Proof.Machine.execYieldWaitEnd s
  | .rejoinRelease => Sys2Proof.Machine.execRejoinRelease s
  | .rejoindl => Sys2Proof.Machine.execRejoindl s
  | .eventDelivery => Sys2Proof.Machine.execEventDelivery s
  | .mailboxArrival => Sys2Proof.Machine.execMailboxArrival s
  | .faultPath => Sys2Proof.Machine.execFaultPath s
  | .pageRequestIssue => Sys2Proof.Machine.execPageRequestIssue s
  | .stage2RequestRecord => Sys2Proof.Machine.execStage2RequestRecord s
  | .faultRecord => Sys2Proof.Machine.execFaultRecord s
  | .faultRingPoll => Sys2Proof.Machine.execFaultRingPoll s
  | .prgResponseSuccess => Sys2Proof.Machine.execPrgResponseSuccess s
  | .prgResponseInvalidRequest => Sys2Proof.Machine.execPrgResponseInvalidRequest s
  | .prgResponseFailure => Sys2Proof.Machine.execPrgResponseFailure s
  | .s2replySuccess => Sys2Proof.Machine.execS2replySuccess s
  | .s2replyInvalidRequest => Sys2Proof.Machine.execS2replyInvalidRequest s
  | .s2replyResponseFailure => Sys2Proof.Machine.execS2replyResponseFailure s
  | .freplyResume => Sys2Proof.Machine.execFreplyResume s
  | .freplyTerminate => Sys2Proof.Machine.execFreplyTerminate s
  | .translationWalk => Sys2Proof.Machine.execTranslationWalk s
  | .atsInvalidationRequest => Sys2Proof.Machine.execAtsInvalidationRequest s
  | .s2invRange => Sys2Proof.Machine.execS2invRange s
  | .s2invAll => Sys2Proof.Machine.execS2invAll s
  | .invalidationComplete => Sys2Proof.Machine.execInvalidationComplete s
  | .maskBudgetExpiry => Sys2Proof.Machine.execMaskBudgetExpiry s
  | .preemptionRequest => Sys2Proof.Machine.execPreemptionRequest s
  | .groupSave => Sys2Proof.Machine.execGroupSave s
  | .groupRestore => Sys2Proof.Machine.execGroupRestore s
  | .partialEviction => Sys2Proof.Machine.execPartialEviction s
  | .energyQuotaExhausted => Sys2Proof.Machine.execEnergyQuotaExhausted s
  | .energyPeriodStart => Sys2Proof.Machine.execEnergyPeriodStart s
  | .walkDispatch => Sys2Proof.Machine.execWalkDispatch s
  | .walkDraw => Sys2Proof.Machine.execWalkDraw s
  | .walkStepAdmit => Sys2Proof.Machine.execWalkStepAdmit s
  | .upcallDelivery => Sys2Proof.Machine.execUpcallDelivery s
  | .tileProduct => Sys2Proof.Machine.execTileProduct s
  | .walkAbortRemote => Sys2Proof.Machine.execWalkAbortRemote s
  | .walkGraceExpiry => Sys2Proof.Machine.execWalkGraceExpiry s
  | .routineStart => Sys2Proof.Machine.execRoutineStart s
  | .copyElement => Sys2Proof.Machine.execCopyElement s
  | .atomicEngineApply => Sys2Proof.Machine.execAtomicEngineApply s
  | .gopenWrite => Sys2Proof.Machine.execGopenWrite s
  | .gcloseWrite => Sys2Proof.Machine.execGcloseWrite s
  | .grantLapse => Sys2Proof.Machine.execGrantLapse s
  | .streamRelease => Sys2Proof.Machine.execStreamRelease s
  | .kickWrite => Sys2Proof.Machine.execKickWrite s
  | .packetFetch => Sys2Proof.Machine.execPacketFetch s
  | .fetcherRetry => Sys2Proof.Machine.execFetcherRetry s
  | .launch => Sys2Proof.Machine.execLaunch s
  | .walk => Sys2Proof.Machine.execWalk s
  | .recurPacket => Sys2Proof.Machine.execRecurPacket s
  | .event => Sys2Proof.Machine.execEvent s
  | .groupPlacement => Sys2Proof.Machine.execGroupPlacement s
  | .passedOverTimeout => Sys2Proof.Machine.execPassedOverTimeout s
  | .completionWordWrite => Sys2Proof.Machine.execCompletionWordWrite s
  | .mappingTick => Sys2Proof.Machine.execMappingTick s
  | .binCountdownExpiry => Sys2Proof.Machine.execBinCountdownExpiry s
  | .ctxcmdCreate => Sys2Proof.Machine.execCtxcmdCreate s
  | .ctxcmdReread => Sys2Proof.Machine.execCtxcmdReread s
  | .ctxcmdDestroy => Sys2Proof.Machine.execCtxcmdDestroy s
  | .contextDestroyDone => Sys2Proof.Machine.execContextDestroyDone s
  | .s2rootWrite => Sys2Proof.Machine.execS2rootWrite s
  | .capWrite => Sys2Proof.Machine.execCapWrite s
  | .floorWrite => Sys2Proof.Machine.execFloorWrite s
  | .registerWrite => Sys2Proof.Machine.execRegisterWrite s
  | .powerEvaluation => Sys2Proof.Machine.execPowerEvaluation s
  | .hostWrite => Sys2Proof.Machine.execHostWrite s
  | .peerAccess => Sys2Proof.Machine.execPeerAccess s
  | .linkUp => Sys2Proof.Machine.execLinkUp s
  | .linkDown => Sys2Proof.Machine.execLinkDown s
  | .temperatureThreshold => Sys2Proof.Machine.execTemperatureThreshold s
  | .uncorrectedError => Sys2Proof.Machine.execUncorrectedError s
  | .coreSignalWrite => Sys2Proof.Machine.execCoreSignalWrite s
  | .swaitWake => Sys2Proof.Machine.execSwaitWake s
  | .attest => Sys2Proof.Machine.execAttest s
  | .cert => Sys2Proof.Machine.execCert s
  | .bootclr => Sys2Proof.Machine.execBootclr s
  | .allot => Sys2Proof.Machine.execAllot s
  | .levread => Sys2Proof.Machine.execLevread s
  | .update => Sys2Proof.Machine.execUpdate s
  | .stopCmd => Sys2Proof.Machine.execStopCmd s
  | .goCmd => Sys2Proof.Machine.execGoCmd s
  | .rdmem => Sys2Proof.Machine.execRdmem s
  | .wrmem => Sys2Proof.Machine.execWrmem s
  | .rdsave => Sys2Proof.Machine.execRdsave s
  | .breakCmd => Sys2Proof.Machine.execBreakCmd s
  | .coldReset => Sys2Proof.Machine.execColdReset s
  | .warmReset => Sys2Proof.Machine.execWarmReset s
  | .queueReset => Sys2Proof.Machine.execQueueReset s
  | .priReenable => Sys2Proof.Machine.execPriReenable s
  | .nodeBinConfiguration => Sys2Proof.Machine.execNodeBinConfiguration s
  | .storeBecomesAvailable => Sys2Proof.Machine.execStoreBecomesAvailable s

end Sys2Proof.Machine
end

