-- ==== Sys2Proof/Machine/Fetch.lean ====
section
/-! DEFINITION. Fetching, ready fibres, the batches they can form and the one a lane pipe issues (01: R16 to R23, 03: R67, R68, R71,
06: R136, 12: R274, R275). -/

namespace Sys2Proof.Machine

/-! ## Fetching -/

/-- The word at a PC of a context, through the core's view (R327: a fetch is an execute access). -/
def Dev.fetch (d : Dev) (core ctx : Nat) (pc : Addr48) : Except FaultUnit W32 × Dev :=
  let t := d.translate core ctx pc.toNat 4
  match t.1 with
  | .ok a => (.ok (BitVec.ofNat 32 (leVal (t.2.ms.peeks core a 4))), t.2)
  | .error u => (.error u, t.2)

/-! ## Ready fibres (R16, R67, R68) -/

/-- Whether only its operands and its cohort can hold a fibre of a running group. -/
def Dev.idle (d : Dev) (f : Fibre) : Bool :=
  f.wait == .none && !f.trapped && decide (f.ready ≤ d.cycle) && d.isRunning f &&
  match d.warp? f.core f.slot with | some w => !d.isStopped w | none => false

/-- Whether every variable-latency operand has arrived (R68). -/
def Group.arrivedFor (g : Group) (us : List Use) (f : Fibre) : Bool :=
  us.all fun u => !u.waits || match u.reg with
    | .k n => g.outst.all fun o => !(o.reg == .k n && (decide (n < 55) || o.slot == f.slot))
    | r => f.outst.all fun o => o.reg != r

/-- Whether an instruction issues only from a batch that holds exactly the unretired fibres of one slot (R169, R206, R236). -/
def wholeOnly : Instr → Bool
  | .waitany _ | .pres _ | .prel _ | .upret _ | .recur _ => true
  | _ => false

/-! ## Cohorts (R274) -/

/-- The members of a cohort of a group's fibres. -/
def cohortOf (all : List Fibre) (c : Nat) : List Fibre := all.filter fun f => f.cohort == c

/-- Whether a cohort issues slot by slot: a member is in an occupied warp, or two share a home lane (R17, R18). -/
def splitCohort (all : List Fibre) (occ : Nat → Bool) (c : Nat) : Bool :=
  let m := cohortOf all c
  (m.any fun f => occ f.slot) || (dedup (m.map Fibre.lane)).length != m.length

/-- The fibres that a fibre issues with: its cohort, or the part of it in its slot. -/
def withFibre (all : List Fibre) (bySlot : Fibre → Bool) (f : Fibre) : List Fibre :=
  if f.cohort == 0 then [f] else all.filter fun x => x.cohort == f.cohort && (!bySlot f || x.slot == f.slot)

/-- Whether a list holds a fibre of one group. -/
def hasFibre (l : List Fibre) (f : Fibre) : Bool := l.any fun x => x.warpid == f.warpid && x.lane == f.lane

/-- The batch of fibres that may share one (R17, R274): the lowest slot of each home lane, without cohorts taken in part; where that
leaves nothing, what issues with the lowest FIBREID. -/
def jointBatch (unit : Fibre → List Fibre) (js : List Fibre) : List Fibre :=
  let lowest (f : Fibre) : Bool := js.all fun x => x.lane != f.lane || decide (f.slot ≤ x.slot)
  let taken := js.filter lowest
  let kept := taken.filter fun f => (unit f).all (hasFibre taken)
  if !kept.isEmpty then kept
  else match minBy (fun f => f.slot * 32 + f.lane) js with
    | some f => unit f
    | none => []

/-- The batches that the ready fibres of a group at one PC form; `all`: every fibre of the group, `occ`: occupied slots, `alone`: the
instruction issues slot by slot. -/
def batchesOf (all rs : List Fibre) (occ : Nat → Bool) (alone : Bool) : List (List Fibre) :=
  let bySlot (f : Fibre) : Bool := alone || occ f.slot || (f.cohort != 0 && splitCohort all occ f.cohort)
  let ok := rs.filter fun f => (withFibre all bySlot f).all (hasFibre rs)
  let slots := dedup ((ok.filter bySlot).map Fibre.slot)
  let own := slots.map fun s => ok.filter fun f => bySlot f && f.slot == s
  let joint := jointBatch (withFibre all bySlot) (ok.filter fun f => !bySlot f)
  if joint.isEmpty then own else joint :: own

/-! ## Candidates (R21) -/

/-- A batch that can issue; no word where the fetch faults. -/
structure Cand where
  core : Nat
  gid : Nat
  ctx : Nat
  pc : Addr48
  word : Option W32
  members : List (Nat × Nat)
  anchor : Nat
  /-- What R21 and R136 order by, after the pipe: occupied, class 0, age, anchor slot, lowest home lane. -/
  key : List Nat
  /-- Its pipe can take it in this cycle. -/
  takes : Bool
  /-- Issue opportunities of its anchor slot in a row that have passed it over (R22). -/
  passed : Nat
  deriving DecidableEq, Repr

/-- The lane pipe of a batch, counted over the device. -/
def Cand.pipe (c : Cand) : Nat := c.core * 4 + c.anchor % 4

/-- A batch of fibres as a candidate. -/
def candOf (g : Group) (pc : Addr48) (word : Option W32) (takes : Bool) (occ : Nat → Bool) (fs : List Fibre) : Option Cand :=
  match minBy (fun f => f.slot * 32 + f.lane) fs, minBy Fibre.lane fs with
  | some a, some l =>
    let age := ((minBy Fibre.age fs).map Fibre.age).getD 0
    some { core := g.core, gid := g.gid, ctx := g.ctx, pc := pc, word := word
           members := (sortBy Fibre.lane fs).map fun f => (f.slot, f.lane), anchor := a.slot
           key := [if occ a.slot then 0 else 1, if g.cls == 0 then 0 else 1, age, a.slot, l.lane], takes := takes
           passed := ((fs.filter fun f => f.pace.anchor == a.slot).map fun f => f.pace.passed).foldl max 0 }
  | _, _ => none

/-- Whether a lane pipe of a core can take a word in this cycle (R71): none while the pass count is to change, a lane instruction every
PASS cycles. -/
def Dev.pipeTakes (d : Dev) (core : Nat) (word : Option W32) : Bool :=
  let c := d.cluster (clusterOf core)
  c.want == c.pass &&
  match word with
  | some w => w.getLsbD 31 || d.cycle % c.pass == 0
  | none => true

/-- The candidates of a group at one PC. -/
def Dev.candsAt (d : Dev) (g : Group) (mine all : List Fibre) (pc : Addr48) : List Cand :=
  let word := match (d.fetch g.core g.ctx pc).1 with | .ok w => some w | .error _ => none
  let i := word.map decodeTotal
  let us := (i.map usesOf).getD []
  let alone := match i with | some i => wholeOnly i || namesDelivery i | none => false
  let rs := mine.filter fun f => f.pc == pc && d.idle f && g.arrivedFor us f
  let occ (s : Nat) : Bool := match d.warp? g.core s with | some w => w.occ.isSome | none => false
  (batchesOf all rs occ alone).filterMap (candOf g pc word (d.pipeTakes g.core word) occ)

/-- The candidates of a group. -/
def Dev.candsOf (d : Dev) (g : Group) : List Cand :=
  let mine := d.fibres.filter (d.isOf g.gid)
  let away := match d.evicted? g.gid with | some s => s.fibres | none => []
  (dedup ((mine.filter d.idle).map Fibre.pc)).flatMap fun pc => d.candsAt g mine (mine ++ away) pc

/-- Whether one list of numbers comes before another. -/
def lexLt : List Nat → List Nat → Bool
  | [], _ :: _ => true
  | _, [] => false
  | a :: l, b :: m => decide (a < b) || (a == b && lexLt l m)

/-- Whether a candidate is chosen before another: by pipe, then as R21 and R136 say. -/
def Cand.before (a b : Cand) : Bool := lexLt (a.pipe :: a.key) (b.pipe :: b.key)

/-- The candidate chosen first. -/
def bestCand : List Cand → Option Cand
  | [] => none
  | c :: l =>
    match bestCand l with
    | none => some c
    | some b => if b.before c then some b else some c

/-- The ready batches. -/
def Dev.readyBatches (d : Dev) : List Cand := (d.groups.filter fun g => g.stat == .running).flatMap d.candsOf

/-- The ready batches of the pipes not served yet in this cycle. -/
def Dev.cands (d : Dev) : List Cand := d.readyBatches.filter fun c => decide (d.pipe ≤ c.pipe)

/-! ## The rotation (R22) -/

/-- Whether two batches are anchored in one slot. -/
def Cand.beside (a b : Cand) : Bool := a.core == b.core && a.anchor == b.anchor

/-- Distinct PCs among the unparked fibres of a slot (R22). -/
def Dev.slotPcs (d : Dev) (core slot : Nat) : Nat :=
  (dedup ((d.fibres.filter fun f => f.core == core && f.slot == slot && f.wait != .parked).map Fibre.pc)).length

/-- Of the batches anchored in one slot, those of which one must issue at its present opportunity so that each issues within `limit`
opportunities; none where no batch is that late. A batch that can be passed over `n` times more is late with `n` others before it. -/
def overdue (limit : Nat) (cs : List Cand) : List Cand :=
  let left (c : Cand) : Nat := limit - 1 - c.passed
  let l := sortBy left cs
  match l.zipIdx.findIdx? fun x => decide (left x.1 ≤ x.2) with
  | some n => l.take (n + 1)
  | none => []

/-- The batch that issues next (R21): rules 1 to 4 choose the slot, and within it an overdue batch comes first (log 60). A slot whose
overdue batches its pipe cannot take in this cycle issues none; `n` bounds the slots that are tried. -/
def Dev.pick (d : Dev) : Nat → List Cand → Option Cand
  | 0, _ => none
  | n + 1, cs =>
    match bestCand (cs.filter Cand.takes) with
    | none => none
    | some b =>
      let late := overdue (2 * d.slotPcs b.core b.anchor) (cs.filter b.beside)
      if late.isEmpty then some b
      else match bestCand (late.filter Cand.takes) with
        | some c => some c
        | none => pick d n (cs.filter fun c => !b.beside c)

/-- The batch that issues next among some. -/
def Dev.choice (d : Dev) (cs : List Cand) : Option Cand := d.pick (cs.length + 1) cs

/-- What a batch becomes when it issues, ahead of the other ready batches of its slot. -/
def Cand.batch (c : Cand) (w : W32) (rivals : List (Nat × Nat)) : Batch :=
  { core := c.core, gid := c.gid, pc := c.pc, word := w, members := c.members, anchor := c.anchor, rivals := rivals }

/-- The members of the other ready batches anchored in a batch's slot. -/
def Cand.rivals (c : Cand) (cs : List Cand) : List (Nat × Nat) :=
  ((cs.filter fun x => c.beside x && x.members != c.members).flatMap Cand.members)

/-- An opportunity of a slot: its batch issues, and the other batches anchored there are passed over (R22). -/
def Fibre.turn (b : Batch) (f : Fibre) : Fibre :=
  if f.core != b.core then f
  else if b.rivals.contains (f.slot, f.lane) then
    { f with pace := { f.pace with anchor := b.anchor, passed := if f.pace.anchor == b.anchor then f.pace.passed + 1 else 1 } }
  else if b.has f || f.pace.anchor == b.anchor then { f with pace := { f.pace with passed := 0 } }
  else f

/-- A cohort that issues slot by slot has divided: its members outside the batch are cohorts by slot from then on (R274). -/
def Dev.partCohorts (d : Dev) : Dev :=
  let cs := (dedup (d.active.map Fibre.cohort)).filter (· != 0)
  let rest (f : Fibre) : Bool := cs.contains f.cohort && !d.cur.has f
  if !d.fibres.any rest then d
  else
    let part (f : Fibre) : Fibre := match cs.findIdx? (· == f.cohort) with
      | some i => { f with cohort := cohortAt (d.free + i) (BitVec.ofNat 48 f.slot) 6 }
      | none => f
    { d with fibres := updWhere rest part d.fibres, free := d.free + cs.length }

/-- A ready batch that is ready no longer counts its opportunities anew (R22). -/
def Dev.tickTurns (d : Dev) : Dev :=
  if !(d.fibres.any fun f => f.pace.passed != 0) then d
  else
    let rs := d.readyBatches.map fun c => (c.core, c.members)
    let still (f : Fibre) : Bool := rs.any fun x => x.1 == f.core && x.2.contains (f.slot, f.lane)
    d.updFibres (fun f => f.pace.passed != 0 && !still f) fun f => { f with pace := { f.pace with passed := 0 } }

/-- A page fault of a fetch (R242, R243). -/
def fetchTrap (pc : Addr48) (u : FaultUnit) : Trap := { cause := 5, acc := 2, addr := sext48 pc, units := [u] }

/-- A batch issues on its pipe ahead of the ready batches `cs`. -/
def Dev.begin_ (d : Dev) (cs : List Cand) (c : Cand) (w : W32) : Dev :=
  let b := c.batch w (c.rivals cs)
  ({ d with cur := b, pipe := c.pipe + 1 }.updFibres (fun _ => true) (Fibre.turn b)).partCohorts

/-- A batch issues on its pipe: its word is fetched; `none`: the fetch faulted, and the trap has been taken. -/
def Dev.issue (d : Dev) (cs : List Cand) (c : Cand) : Option W32 × Dev :=
  let f := d.fetch c.core c.ctx c.pc
  match f.1 with
  | .ok w => (some w, f.2.begin_ cs c w)
  | .error u => (none, (f.2.begin_ cs c 0).trapAll (fetchTrap c.pc u))

end Sys2Proof.Machine
end

