-- ==== Sys2Proof/Machine/Riscv.lean ====
section
/-! DEFINITION. The base instructions of a Corgon core: RV64IMAC with Zicsr and Zifencei (22: R391). The spec names the standard and gives
only the custom instructions; what follows is PRESUMED from the RISC-V manuals, for a hart with machine mode alone (log 11). -/

namespace Sys2Proof.Machine

/-! ## Instructions -/

/-- Operations of the register-register and register-immediate forms. -/
inductive RvOp where
  | add | sub | sll | slt | sltu | xor | srl | sra | or | and | mul | mulh | mulhsu | mulhu | div | divu | rem | remu
  deriving DecidableEq, Repr

/-- Operations of the atomic memory forms. -/
inductive RvAmo where
  | swap | add | xor | and | or | min | max | minu | maxu
  deriving DecidableEq, Repr

/-- A base instruction; `word` marks the 32-bit forms, immediates are extended already. -/
inductive Rv where
  | lui (rd : Nat) (imm : W64)
  | auipc (rd : Nat) (imm : W64)
  | jal (rd : Nat) (off : W64)
  | jalr (rd rs1 : Nat) (off : W64)
  | branch (f3 rs1 rs2 : Nat) (off : W64)
  /-- log2 of the bytes; zero-extended. -/
  | load (log : Nat) (unsigned : Bool) (rd rs1 : Nat) (off : W64)
  | store (log rs1 rs2 : Nat) (off : W64)
  | opImm (op : RvOp) (word : Bool) (rd rs1 : Nat) (imm : W64)
  | op (op : RvOp) (word : Bool) (rd rs1 rs2 : Nat)
  /-- FENCE, FENCE.I and WFI: one core runs at a time, on one memory. -/
  | nop
  | ecall
  | ebreak
  | mret
  /-- funct3, and rs1 or the immediate. -/
  | csr (f3 rd src csr : Nat)
  | lr (log rd rs1 : Nat)
  | sc (log rd rs1 rs2 : Nat)
  | amo (op : RvAmo) (log rd rs1 rs2 : Nat)
  deriving DecidableEq, Repr

/-! ## Decoding -/

/-- Bits of a word as a number. -/
def rvBits (w : W32) (lo n : Nat) : Nat := bitsOf w.toNat lo n

/-- A number of `n` bits, sign-extended. -/
def rvSext (n v : Nat) : W64 := (BitVec.ofNat n v).signExtend 64

/-- The immediate of the I format. -/
def immI (w : W32) : W64 := rvSext 12 (rvBits w 20 12)
/-- The immediate of the S format. -/
def immS (w : W32) : W64 := rvSext 12 (rvBits w 7 5 + rvBits w 25 7 * 32)
/-- The immediate of the B format. -/
def immB (w : W32) : W64 := rvSext 13 (rvBits w 8 4 * 2 + rvBits w 25 6 * 32 + rvBits w 7 1 * 2048 + rvBits w 31 1 * 4096)
/-- The immediate of the U format. -/
def immU (w : W32) : W64 := rvSext 32 (rvBits w 12 20 * 4096)
/-- The immediate of the J format. -/
def immJ (w : W32) : W64 := rvSext 21 (rvBits w 21 10 * 2 + rvBits w 20 1 * 2048 + rvBits w 12 8 * 4096 + rvBits w 31 1 * 1048576)

/-- The operation of funct3 with funct7 = 0. -/
def rvBase (f3 : Nat) : RvOp := nth [.add, .sll, .slt, .sltu, .xor, .srl, .or, .and] f3 .add
/-- The operation of funct3 with funct7 = 1. -/
def rvMul (f3 : Nat) : RvOp := nth [.mul, .mulh, .mulhsu, .mulhu, .div, .divu, .rem, .remu] f3 .mul

/-- The atomic operation of funct5. -/
def rvAmo (f5 : Nat) : Option RvAmo :=
  match f5 with
  | 0 => some .add | 1 => some .swap | 4 => some .xor | 8 => some .or | 12 => some .and | 16 => some .min | 20 => some .max
  | 24 => some .minu | 28 => some .maxu | _ => none

/-- A register-register word. -/
def rvReg (word : Bool) (f7 f3 rd rs1 rs2 : Nat) : Option Rv :=
  if f7 == 1 then (if word && 1 ≤ f3 && f3 ≤ 3 then none else some (.op (rvMul f3) word rd rs1 rs2))
  else if word && !([0, 1, 5].contains f3) then none
  else if f7 == 0 then some (.op (rvBase f3) word rd rs1 rs2)
  else if f7 == 32 && f3 == 0 then some (.op .sub word rd rs1 rs2)
  else if f7 == 32 && f3 == 5 then some (.op .sra word rd rs1 rs2)
  else none

/-- A register-immediate word. -/
def rvImm (w : W32) (word : Bool) : Option Rv :=
  let f3 := rvBits w 12 3
  let rd := rvBits w 7 5
  let rs1 := rvBits w 15 5
  let sh := rvBits w 20 (if word then 5 else 6)
  let top := if word then rvBits w 25 7 else rvBits w 26 6 * 2
  if f3 == 1 then (if top == 0 then some (.opImm .sll word rd rs1 (BitVec.ofNat 64 sh)) else none)
  else if f3 == 5 then
    (if top == 0 then some (.opImm .srl word rd rs1 (BitVec.ofNat 64 sh))
     else if top == 32 then some (.opImm .sra word rd rs1 (BitVec.ofNat 64 sh)) else none)
  else if word && f3 != 0 then none
  else some (.opImm (rvBase f3) word rd rs1 (immI w))

/-- A 32-bit word; nothing for one that is no instruction. -/
def decodeRv (w : W32) : Option Rv :=
  let f3 := rvBits w 12 3
  let f7 := rvBits w 25 7
  let rd := rvBits w 7 5
  let rs1 := rvBits w 15 5
  let rs2 := rvBits w 20 5
  match rvBits w 0 7 with
  | 0x37 => some (.lui rd (immU w))
  | 0x17 => some (.auipc rd (immU w))
  | 0x6F => some (.jal rd (immJ w))
  | 0x67 => if f3 == 0 then some (.jalr rd rs1 (immI w)) else none
  | 0x63 => if f3 == 2 || f3 == 3 then none else some (.branch f3 rs1 rs2 (immB w))
  | 0x03 => if f3 == 7 then none else some (.load (f3 % 4) (4 ≤ f3) rd rs1 (immI w))
  | 0x23 => if 4 ≤ f3 then none else some (.store f3 rs1 rs2 (immS w))
  | 0x13 => rvImm w false
  | 0x1B => rvImm w true
  | 0x33 => rvReg false f7 f3 rd rs1 rs2
  | 0x3B => rvReg true f7 f3 rd rs1 rs2
  | 0x0F => if f3 ≤ 1 then some .nop else none
  | 0x73 =>
    if f3 == 0 then
      (if w == 0x73 then some .ecall else if w == 0x100073 then some .ebreak else if w == 0x30200073 then some .mret
       else if w == 0x10500073 then some .nop else none)
    else if f3 == 4 then none
    else some (.csr f3 rd rs1 (rvBits w 20 12))
  | 0x2F =>
    if f3 != 2 && f3 != 3 then none
    else match f7 / 4 with
      | 2 => if rs2 == 0 then some (.lr f3 rd rs1) else none
      | 3 => some (.sc f3 rd rs1 rs2)
      | f5 => (rvAmo f5).map fun o => .amo o f3 rd rs1 rs2
  | _ => none

/-- A compressed word; nothing for a reserved one, or one of a floating-point extension. -/
def decodeRvc (h : W32) : Option Rv :=
  let b (lo n : Nat) : Nat := rvBits h lo n
  let rd := b 7 5
  let rs2 := b 2 5
  let rdc := b 7 3 + 8
  let rs2c := b 2 3 + 8
  let imm6 : W64 := rvSext 6 (b 2 5 + b 12 1 * 32)
  let sh : W64 := BitVec.ofNat 64 (b 2 5 + b 12 1 * 32)
  let uw := b 6 1 * 4 + b 10 3 * 8 + b 5 1 * 64
  let ud := b 10 3 * 8 + b 5 2 * 64
  let n (v : Nat) : W64 := BitVec.ofNat 64 v
  match b 0 2, b 13 3 with
  | 0, 0 =>
    let imm := b 6 1 * 4 + b 5 1 * 8 + b 11 2 * 16 + b 7 4 * 64
    if imm == 0 then none else some (.opImm .add false rs2c 2 (n imm))
  | 0, 2 => some (.load 2 false rs2c rdc (n uw))
  | 0, 3 => some (.load 3 false rs2c rdc (n ud))
  | 0, 6 => some (.store 2 rdc rs2c (n uw))
  | 0, 7 => some (.store 3 rdc rs2c (n ud))
  | 1, 0 => some (.opImm .add false rd rd imm6)
  | 1, 1 => if rd == 0 then none else some (.opImm .add true rd rd imm6)
  | 1, 2 => some (.opImm .add false rd 0 imm6)
  | 1, 3 =>
    if b 2 5 + b 12 1 == 0 then none
    else if rd == 2 then
      some (.opImm .add false 2 2 (rvSext 10 (b 6 1 * 16 + b 2 1 * 32 + b 5 1 * 64 + b 3 2 * 128 + b 12 1 * 512)))
    else some (.lui rd (rvSext 18 (b 2 5 * 4096 + b 12 1 * 131072)))
  | 1, 4 =>
    match b 10 2 with
    | 0 => some (.opImm .srl false rdc rdc sh)
    | 1 => some (.opImm .sra false rdc rdc sh)
    | 2 => some (.opImm .and false rdc rdc imm6)
    | _ =>
      if b 12 1 == 0 then some (.op (nth [.sub, .xor, .or, .and] (b 5 2) .sub) false rdc rdc rs2c)
      else if b 5 2 ≤ 1 then some (.op (if b 5 2 == 0 then .sub else .add) true rdc rdc rs2c) else none
  | 1, 5 => some (.jal 0 (rvSext 12 (b 3 3 * 2 + b 11 1 * 16 + b 2 1 * 32 + b 7 1 * 64 + b 6 1 * 128 + b 9 2 * 256 + b 8 1 * 1024 +
      b 12 1 * 2048)))
  | 1, c =>
    let off := rvSext 9 (b 3 2 * 2 + b 10 2 * 8 + b 2 1 * 32 + b 5 2 * 64 + b 12 1 * 256)
    some (.branch (if c == 6 then 0 else 1) rdc 0 off)
  | 2, 0 => some (.opImm .sll false rd rd sh)
  | 2, 2 => if rd == 0 then none else some (.load 2 false rd 2 (n (b 4 3 * 4 + b 12 1 * 32 + b 2 2 * 64)))
  | 2, 3 => if rd == 0 then none else some (.load 3 false rd 2 (n (b 5 2 * 8 + b 12 1 * 32 + b 2 3 * 64)))
  | 2, 4 =>
    if b 12 1 == 0 then
      (if rs2 == 0 then (if rd == 0 then none else some (.jalr 0 rd 0)) else some (.op .add false rd 0 rs2))
    else if rs2 == 0 then (if rd == 0 then some .ebreak else some (.jalr 1 rd 0))
    else some (.op .add false rd rd rs2)
  | 2, 6 => some (.store 2 2 rs2 (n (b 9 4 * 4 + b 7 2 * 64)))
  | 2, 7 => some (.store 3 2 rs2 (n (b 10 3 * 8 + b 7 3 * 64)))
  | _, _ => none

/-- The instruction of the 32 bits at a pc, with its bytes: two where the two low bits are not both set. -/
def fetchRv (w : W32) : Option Rv × Nat :=
  if rvBits w 0 2 == 3 then (decodeRv w, 4) else (decodeRvc (w &&& 0xFFFF), 2)

/-! ## Arithmetic -/

/-- An operation on numbers of `n` bits; a division by zero and the overflow of a division as the M extension has them. -/
def RvOp.on (o : RvOp) (a b : BitVec n) : BitVec n :=
  let s := b.toNat % n
  let high (x y : Int) : BitVec n := BitVec.ofInt n (x * y / 2 ^ n)
  match o with
  | .add => a + b
  | .sub => a - b
  | .sll => a <<< s
  | .slt => if a.slt b then 1 else 0
  | .sltu => if a.ult b then 1 else 0
  | .xor => a ^^^ b
  | .srl => a >>> s
  | .sra => a.sshiftRight s
  | .or => a ||| b
  | .and => a &&& b
  | .mul => a * b
  | .mulh => high a.toInt b.toInt
  | .mulhsu => high a.toInt b.toNat
  | .mulhu => high a.toNat b.toNat
  | .div => if b == 0 then BitVec.allOnes n else BitVec.ofInt n (a.toInt.tdiv b.toInt)
  | .divu => if b == 0 then BitVec.allOnes n else a / b
  | .rem => if b == 0 then a else BitVec.ofInt n (a.toInt.tmod b.toInt)
  | .remu => if b == 0 then a else a % b

/-- An operation on registers: on their low words with the result sign-extended, or on the whole. -/
def RvOp.run (o : RvOp) (word : Bool) (a b : W64) : W64 :=
  if word then (o.on (a.setWidth 32) (b.setWidth 32)).signExtend 64 else o.on a b

/-- An atomic operation on numbers of `n` bits. -/
def RvAmo.on (o : RvAmo) (a b : BitVec n) : BitVec n :=
  match o with
  | .swap => b
  | .add => a + b
  | .xor => a ^^^ b
  | .and => a &&& b
  | .or => a ||| b
  | .min => if a.slt b then a else b
  | .max => if a.slt b then b else a
  | .minu => if a.ult b then a else b
  | .maxu => if a.ult b then b else a

/-- Whether a branch is taken. -/
def rvTaken (f3 : Nat) (a b : W64) : Bool :=
  match f3 with
  | 0 => a == b
  | 1 => a != b
  | 4 => a.slt b
  | 5 => !a.slt b
  | 6 => a.ult b
  | _ => !a.ult b

/-! ## Control and status registers -/

/-- A control and status register; nothing for one that the core does not have. -/
def Corgon.csr (c : Corgon) (hubt n : Nat) : Option W64 :=
  match n with
  | 0x300 => some (c.mstatus ||| 0x1800)
  | 0x301 => some 0x8000000000001105
  | 0x304 => some c.mie
  | 0x305 => some c.mtvec
  | 0x340 => some c.mscratch
  | 0x341 => some c.mepc
  | 0x342 => some c.mcause
  | 0x343 => some c.mtval
  | 0x344 => some 0
  | 0xB00 => some (BitVec.ofNat 64 hubt + c.mcycle)
  | 0xB02 => some c.minstret
  | 0xF14 => some (BitVec.ofNat 64 c.no)
  | _ =>
    if inLimits n 0xF11 0xF13 || n == 0xF15 || n == 0x320 || inLimits n 0x323 0x33F || inLimits n 0xB03 0xB1F then some 0 else none

/-- Writes a control and status register; fields that are fixed keep their values. minstret counts the writing instruction after it. -/
def Corgon.setCsr (c : Corgon) (hubt n : Nat) (v : W64) : Corgon :=
  match n with
  | 0x300 => { c with mstatus := (v &&& 0x88) ||| 0x1800 }
  | 0x304 => { c with mie := v &&& 0x888 }
  | 0x305 => { c with mtvec := v &&& ~~~(2 : W64) }
  | 0x340 => { c with mscratch := v }
  | 0x341 => { c with mepc := v &&& ~~~(1 : W64) }
  | 0x342 => { c with mcause := v }
  | 0x343 => { c with mtval := v }
  | 0xB00 => { c with mcycle := v - BitVec.ofNat 64 hubt }
  | 0xB02 => { c with minstret := v - 1 }
  | _ => c

/-- A CSR instruction: what it leaves, or nothing where it is illegal. -/
def Corgon.csrOp (c : Corgon) (hubt f3 rd src n : Nat) : Option Corgon :=
  let x := if f3 < 4 then c.get src else BitVec.ofNat 64 src
  let writes := f3 % 4 == 1 || src != 0
  match c.csr hubt n with
  | none => none
  | some old =>
    if writes && n / 1024 == 3 then none
    else
      let new := match f3 % 4 with | 1 => x | 2 => old ||| x | _ => old &&& ~~~x
      some ((if writes then c.setCsr hubt n new else c).put rd old)

/-! ## Memory -/

/-- A store of a Corgon core to hub SRAM; one to the core-signal register raises its line (R392). -/
def State.rvStore (s : State) (a n : Nat) (v : W64) : State :=
  s.onDev fun d => d.updHub fun h =>
    let x := v.toNat % 2 ^ (8 * n)
    let h := h.sramPut a (leBytes n x)
    if a == 0x84010 && x < 8 then h.raiseLine (48 + x) else h

/-- A load of a Corgon core, extended. -/
def State.rvLoad (s : State) (a log : Nat) (unsigned : Bool) : W64 :=
  let v := leVal (s.dev.hub.sram.read a (2 ^ log))
  if unsigned then BitVec.ofNat 64 v else rvSext (8 * 2 ^ log) v

/-- The result of an instruction of `len` bytes that goes on. -/
def State.rvDone (s : State) (c : Corgon) (len rd : Nat) (v : W64) : State :=
  s.setCor { c.put rd v with pc := c.pc + BitVec.ofNat 64 len, minstret := c.minstret + 1 }

/-- A jump: the register written holds the address after it. -/
def State.rvJump (s : State) (c : Corgon) (len rd : Nat) (target : W64) : State :=
  s.setCor { c.put rd (c.pc + BitVec.ofNat 64 len) with pc := target &&& ~~~(1 : W64), minstret := c.minstret + 1 }

/-- The reservation of a Corgon core covers exactly the bytes named. -/
def Hub.reserved (h : Hub) (core a n : Nat) : Bool := h.resv.contains ⟨core, a, n⟩

/-- Takes away the reservation of a Corgon core. -/
def Hub.unreserve (h : Hub) (core : Nat) : Hub := { h with resv := h.resv.filter fun r => r.core != core }

/-! ## Running an instruction -/

/-- A base instruction of the Corgon core that runs, `len` bytes long; `w` is its word. -/
def State.runRv (s : State) (i : Rv) (len : Nat) (w : W64) : State :=
  let c := s.cor
  let at_ (rs1 : Nat) (off : W64) : Nat := (c.get rs1 + off).toNat
  match i with
  | .lui rd imm => s.rvDone c len rd imm
  | .auipc rd imm => s.rvDone c len rd (c.pc + imm)
  | .jal rd off => s.rvJump c len rd (c.pc + off)
  | .jalr rd rs1 off => s.rvJump c len rd (c.get rs1 + off)
  | .branch f3 rs1 rs2 off =>
    if rvTaken f3 (c.get rs1) (c.get rs2) then s.rvJump c len 0 (c.pc + off) else s.rvDone c len 0 0
  | .load log u rd rs1 off => s.rvDone c len rd (s.rvLoad (at_ rs1 off) log u)
  | .store log rs1 rs2 off => (s.rvStore (at_ rs1 off) (2 ^ log) (c.get rs2)).rvDone c len 0 0
  | .opImm o word rd rs1 imm => s.rvDone c len rd (o.run word (c.get rs1) imm)
  | .op o word rd rs1 rs2 => s.rvDone c len rd (o.run word (c.get rs1) (c.get rs2))
  | .nop => s.rvDone c len 0 0
  | .ecall => s.setCor (c.trap 11 0)
  | .ebreak => s.setCor (c.trap 3 c.pc)
  | .mret =>
    let mpie := c.mstatus.extractLsb' 7 1
    s.setCor { c with pc := c.mepc, mstatus := 0x1880 ||| (mpie.setWidth 64 <<< 3), minstret := c.minstret + 1 }
  | .csr f3 rd src n =>
    match c.csrOp s.dev.hub.hubt f3 rd src n with
    | some c' => s.rvDone c' len 0 0
    | none => s.setCor (c.trap 2 w)
  | .lr log rd rs1 =>
    let a := (c.get rs1).toNat
    if a % 2 ^ log != 0 then s.setCor (c.trap 4 (c.get rs1))
    else (s.onDev fun d => d.updHub fun h => { h.unreserve c.no with resv := ⟨c.no, a, 2 ^ log⟩ :: (h.unreserve c.no).resv }).rvDone c len rd
      (s.rvLoad a log false)
  | .sc log rd rs1 rs2 =>
    let a := (c.get rs1).toNat
    if a % 2 ^ log != 0 then s.setCor (c.trap 6 (c.get rs1))
    else if s.dev.hub.reserved c.no a (2 ^ log) then
      ((s.rvStore a (2 ^ log) (c.get rs2)).onDev fun d => d.updHub fun h => h.unreserve c.no).rvDone c len rd 0
    else (s.onDev fun d => d.updHub fun h => h.unreserve c.no).rvDone c len rd 1
  | .amo o log rd rs1 rs2 =>
    let a := (c.get rs1).toNat
    let old := s.rvLoad a log false
    let new := if log == 2 then (o.on (old.setWidth 32) ((c.get rs2).setWidth 32)).setWidth 64 else o.on old (c.get rs2)
    if a % 2 ^ log != 0 then s.setCor (c.trap 6 (c.get rs1)) else (s.rvStore a (2 ^ log) new).rvDone c len rd old

end Sys2Proof.Machine
end

