-- ==== Sys2Proof/Machine/Due.lean ====
section
/-! DEFINITION. What happens next (log 1): inputs and choices that the agenda lists come first, then what is due by itself, then a batch
issues, then a cycle passes. -/

namespace Sys2Proof.Machine

/-- What a step does. -/
inductive Act where
  /-- A meaning is run in a state. -/
  | run (i : Instr) (s : State)
  /-- Something happens that is no row of the opcode table. -/
  | move (s : State)
  | stop (f : Fault)

/-- An event with its operands. -/
abbrev Happening := Instr × EvArg

/-- The state in which an event runs. -/
def State.withArg (s : State) (a : EvArg) : State := s.onDev fun d => { d with arg := a }

/-! ## In the cores -/

/-- Rejoin masks that fibres wait with: core, slot, mask. -/
def Dev.rejoins (d : Dev) : List (Nat × Nat × LaneMap) :=
  let free (f : Fibre) : Bool := d.isRunning f && match d.warp? f.core f.slot with | some w => !d.isStopped w | none => false
  d.fibres.filterMap fun f => if free f then f.rejoinMask.map fun m => (f.core, f.slot, m) else none

/-- Events of warps: upcalls, arrivals, posts, rejoins, waits, results (R68, R140 to R142, R166, R169, R171, R203). -/
def Dev.dueWarp (d : Dev) : Option Happening :=
  let ups := d.cores.findSome? fun c =>
    if c.walk.isNone then none else ([0, 1, 2].find? fun r => (d.upcallTaker c.no r).isSome).map fun r => (c.no, r)
  let js := d.rejoins
  match ups, js.find? (fun x => d.rejoinDone x.1 x.2.1 x.2.2), js.find? (fun x => !(d.deadlock x.1 x.2.1).isEmpty) with
  | some u, _, _ => some (.upcallDelivery, { a := u.1, b := u.2 })
  | none, some x, _ => some (.rejoinRelease, { a := x.1, b := x.2.1, v := x.2.2.setWidth 64 })
  | none, none, some x => some (.rejoindl, { a := x.1, b := x.2.1 })
  | none, none, none =>
    match d.arrivals.head?, d.posts.isEmpty, d.fibres.find? (fun f => f.yieldOver d.cycle) with
    | some a, _, _ => some (.eventDelivery, { a := a.core, b := 0, c := 0 })
    | none, false, _ => some (.mailboxArrival, { a := 0 })
    | none, true, some f => some (.yieldWaitEnd, { a := f.core, b := f.slot, c := f.lane })
    | none, true, none => none

/-- Results that are outstanding arrive (R68). -/
def Dev.dueResult (d : Dev) : Option Happening :=
  let lane := d.fibres.findSome? fun f =>
    if f.late.isSome then none else f.outst.findSome? fun o => match o.reg with
      | .v n => some (.variableLatencyArrival, { a := f.core, b := f.slot, c := f.lane, d := n })
      | _ => none
  lane.or (d.groups.findSome? fun g => g.outst.findSome? fun o => match o.reg with
    | .k n =>
      let slot := if n < 55 then (g.slots.head?).getD 0 else o.slot
      if ((d.warp? g.core slot).map Warp.gid) == some g.gid then
        some (.variableLatencyArrival, { a := g.core, b := slot, d := n, flag := true })
      else none
    | _ => none)

/-- Handoffs and queue items that a listener takes (R166, R178, R179), masks whose budget is over (R258), and pending stores: every
microsecond, and before an invalidation (R320, R331). -/
def Dev.dueOffer (d : Dev) : Option Happening :=
  match d.handoffs.findIdx? (fun x => (d.hearOne x.event).2.isSome), d.itemListeners.find? d.itemReady,
      d.warps.find? (fun w => w.masked && w.budget == 0), d.ms.compat.head? with
  | some i, _, _, _ => some (.eventDelivery, { b := i, c := 6 })
  | none, some l, _, _ => some (.eventDelivery, { a := l.1, b := l.2.2, c := 5, d := l.2.1 })
  | none, none, some w, _ => some (.maskBudgetExpiry, { a := w.core, b := w.slot })
  | none, none, none, some c =>
    if d.cycle % 1050 == 0 || !d.hub.invals.isEmpty then some (.storeBecomesAvailable, { a := c.core, b := 0 }) else none
  | none, none, none, none => none

/-- Events of the engines: grants, copies, atomics, recursions (R233, R284, R288, R299). -/
def Dev.dueEngine (d : Dev) : Option Happening :=
  let lapse := d.groups.findSome? fun g => ((List.range 8).find? (d.lapseDue g)).map fun e => (g.gid, e)
  let copy := d.cores.findSome? fun c => (c.chans.reverse.find? (d.chanReady c.no)).map fun ch => (c.no, ch)
  let atoms (l : List AtomReq) : Bool := !(atomHeads l d.cycle).isEmpty
  let atom := ((d.clusters.find? fun c => atoms c.queue).map Cluster.no).or
    (((List.range 12).find? fun p => atoms (d.fabric.filter fun r => (peerOf r.addr).map Prod.fst == some p)).map (64 + ·))
  match lapse, copy, atom, d.fibres.find? d.startReady with
  | some x, _, _, _ => some (.grantLapse, { a := x.1, b := x.2 })
  | none, some x, _, _ => some (.copyElement, { a := x.1, b := x.2.ctx, c := x.2.chan })
  | none, none, some c, _ => some (.atomicEngineApply, { a := c })
  | none, none, none, some f => some (.routineStart, { a := f.core, b := f.lane })
  | none, none, none, none => none

/-- Whether a core's walk has come to its end there (R216). -/
def Core.walkEnds (c : Core) : Bool := match c.walk with | some w => w.st == .running && w.isDone | none => false

/-- Events of a walk engine (R192, R193, R195, R216, R218). -/
def Dev.dueWalk (d : Dev) : Option Happening :=
  d.cores.findSome? fun c =>
    if d.abortDue c.no || (d.abortSavedDue c.no).isSome then some (.walkAbortRemote, { a := c.no })
    else if c.walk.isNone then none
    else if d.productReady c.no then some (.tileProduct, { a := c.no })
    else if d.admitReady c.no || c.walkEnds then some (.walkStepAdmit, { a := c.no })
    else if d.drawReady c.no then some (.walkDraw, { a := c.no })
    else none

/-! ## Faults, stops, saves and restores -/

/-- Events of the fault path (R249, R331, R333, R334, R341). -/
def Dev.dueFault (d : Dev) : Option Happening :=
  match d.groups.find? d.faultReady, d.recReady, d.hub.fns.find? Fn.canIssue with
  | some g, _, _ => some (.faultPath, { a := g.gid })
  | none, some i, _ => some (.faultRecord, { a := i })
  | none, none, some f => some (.pageRequestIssue, { a := f.no })
  | none, none, none =>
    if !d.hub.s2recs.isEmpty && d.hub.s2room then some (.stage2RequestRecord, {})
    else if !d.hub.invals.isEmpty && d.invalReady then some (.invalidationComplete, { a := 0 })
    else none

/-- Whether a save or a restore has come about, or has raised page requests. -/
def Dev.movedTo (d e : Dev) : Bool :=
  e.warps.length != d.warps.length || e.hub.cases.length != d.hub.cases.length || e.walks.length != d.walks.length ||
  (e.fibres.filter fun f => f.late.isSome).length != (d.fibres.filter fun f => f.late.isSome).length

/-- Saves that can be made (R221, R263). -/
def Dev.dueSave (d : Dev) : Option Happening :=
  match d.cores.find? (fun c => d.walkSaveReady c.no && d.movedTo (d.saveWalk c.no)),
      d.groups.find? (fun g => d.saveReady g && d.movedTo (d.saveGroup g.gid)) with
  | some c, _ => some (.walkGraceExpiry, { a := c.no })
  | none, some g => some (.groupSave, { a := g.gid })
  | none, none => none

/-- The cores on which a saved group may come back, its own first. -/
def Dev.homes (d : Dev) (s : Saved) : List Nat :=
  let free (c : Nat) : Bool := d.mayRestore s c && !(d.warps.any fun w => w.core == c && w.stopping)
  ((s.group.core :: (List.range 512).filter (· != s.group.core)).filter free)

/-- Restores that can be made (R268). -/
def Dev.dueRestore (d : Dev) : Option Happening :=
  d.saved.findSome? fun s =>
    if !d.eligible s || d.waits (.ring s.group.ctx) then none
    else ((d.homes s).find? fun c => d.movedTo (d.restore s.group.gid c s.partial_)).map fun c =>
      (.groupRestore, { a := s.group.gid, b := c, flag := s.partial_ })

/-- Evictions for a launch that has been passed over (R365). -/
def Dev.dueEvict (d : Dev) : Option Happening :=
  (d.waiting.filter fun l => l.mayEvict d.cycle).findSome? fun l =>
    ((d.evictPlan l).head?).map fun p => (.partialEviction, { a := l.lid, b := p.1 })

/-! ## In the hub -/

/-- The row that takes a packet, by its TYPE (R349). -/
def packetRow (b : List Byte) : Instr :=
  match fieldOf b 0 1 with
  | 2 => .walk
  | 3 => .recurPacket
  | 4 => .event
  | _ => .launch

/-- Events of queues and launches (R346, R350, R353, R356 to R358). -/
def Dev.dueQueue (d : Dev) : Option Happening :=
  match d.hub.queues.find? Queue.fetchReady, d.hub.queues.find? d.headReady with
  | some q, _ => some (.packetFetch, { a := q.qid })
  | none, some q => some (packetRow (((q.pend.head?).map Pend.bytes).getD []), { a := q.qid })
  | none, none =>
    match d.nextPlace, d.hub.launches.find? (fun l => l.blocks d.cycle), d.hub.launches.find? d.wordReady with
    | some r, _, _ => some (if r.1.kind == .walk then .walkDispatch else .groupPlacement, {})
    | none, some l, _ => some (.passedOverTimeout, { a := l.lid })
    | none, none, some l => some (.completionWordWrite, { a := l.lid })
    | none, none, none => none

/-- Clocks of the hub: bins, mapping, energy, and what a destroyed context and an ended group leave (R360, R366, R368, R375, R386). -/
def Dev.dueClock (d : Dev) : Option Happening :=
  let bin := d.clusters.findSome? fun c => (c.bins.find? fun b => b.over d.cycle).map fun b => (c.no, b.no)
  let ctx (p : Ctx → Bool) : Option Nat := (d.hub.ctxs.find? p).map Ctx.no
  match bin, ctx (fun c => c.dying && d.ctxGone c.no), ctx (fun c => c.eper != 0 && decide (c.period ≤ d.cycle)),
      ctx (fun c => c.eper != 0 && c.energy == 0 && !c.quotaOut) with
  | some x, _, _, _ => some (.binCountdownExpiry, { a := x.1, b := x.2 })
  | none, some c, _, _ => some (.contextDestroyDone, { a := c })
  | none, none, some c, _ => some (.energyPeriodStart, { a := c })
  | none, none, none, some c => some (.energyQuotaExhausted, { a := c })
  | none, none, none, none =>
    match d.hub.releases.findIdx? (fun r => !d.waits (.stream r.id)) with
    | some i => some (.streamRelease, { a := i })
    | none => if d.hub.mapTicks < d.cycle / 5250 then some (.mappingTick, {}) else none

/-- The row of the management command in progress (R403). -/
def State.dueCmd (s : State) : Option Happening :=
  if !s.dev.hub.cmdBusy then none
  else match fieldOf s.dev.hub.cmdmb 0 1 with
    | 1 => some (.attest, {})
    | 2 => some (.cert, {})
    | 3 => some (.bootclr, {})
    | 4 => some (.allot, {})
    | 5 => some (.levread, {})
    | 6 => some (.update, {})
    | _ => none

/-- Firmware's part: commands, Corgon cores that wake, power evaluations (R392, R399, R403). -/
def State.dueFirmware (s : State) : Option Happening :=
  match s.dueCmd, s.fw.corgons.find? s.wakes with
  | some h, _ => some h
  | none, some c => some (.swaitWake, { a := c.no })
  | none, none => if s.pwr.evals < s.dev.cycle / 10500 then some (.powerEvaluation, {}) else none

/-- The event that is due. -/
def State.due (s : State) : Option Happening :=
  let d := s.dev
  [Dev.dueWarp, Dev.dueOffer, Dev.dueEngine, Dev.dueWalk, Dev.dueFault, Dev.dueSave, Dev.dueResult, Dev.dueQueue, Dev.dueClock,
    Dev.dueEvict, Dev.dueRestore].findSome? (fun f => f d) |>.or s.dueFirmware

/-- Barriers whose arrivals are to be recorded, or that are complete (R173, R174, R269). -/
def Dev.dueBar (d : Dev) : Option Dev :=
  d.groups.findSome? fun g => (List.range 8).findSome? fun n =>
    if d.barDue g n then some (d.barSync g.gid n) else if d.tbarDue g n then some (d.tbarSync g.gid n) else none

/-! ## A cycle -/

/-- Waits that last a cycle end; budgets of masks count down (R258). -/
def Dev.tickCores (d : Dev) : Dev :=
  let stalled (c : Core) : Core :=
    { c with walk := c.walk.map fun (w : WalkEng) => if w.stalls then { w with stall := w.stall + 1 } else w }
  { d with
    fibres := updWhere (fun f => f.wait == .held || f.wait == .fork && (d.forkPlace f).isSome) (fun f => { f with wait := .none }) d.fibres
    warps := updWhere (fun w => w.masked) (fun w => { w with budget := w.budget - 1 }) d.warps
    cores := d.cores.map stalled }

/-- Page faults of idempotent regions become known (R244), unless the next choice keeps them back for this cycle (log 7). -/
def Dev.tickLate (d : Dev) : Dev :=
  if !(d.fibres.any fun f => f.late.isSome) then d
  else
    let ch := d.choose
    if ch.1 == 0 then ch.2.lateNow fun _ => true else ch.2

/-- What the hub does every microsecond: paused fetchers and full fault rings are looked at, and items whose access faulted (R341,
R346). -/
def Dev.tickMicro (d : Dev) : Dev :=
  if d.cycle % 1050 != 0 then d
  else
    let d := (dedup (d.hub.frecs.map FRec.ctx)).foldl Dev.pollRing d
    let d := (d.hub.queues.map Queue.qid).foldl Dev.fetchRetry d
    (d.itemListeners.filter d.itemFaults).foldl (fun d l => d.offerItem l.1 l.2.1 l.2.2) d

/-- A core clock cycle passes; the hub's clock runs at 32/21 of it (log 14). -/
def Dev.tick (d : Dev) : Dev :=
  let d := { d with cycle := d.cycle + 1, pipe := 0 }
  let dt := d.cycle * 32 / 21 - (d.cycle - 1) * 32 / 21
  let d := d.updHub fun h => { h with hubt := h.hubt + dt, queues := h.queues.map (Queue.age dt) }
  d.tickCores.tickLate.tickMicro.setPass.tickTurns

/-! ## Corgon (R391) -/

/-- What a Corgon core does with the word at its pc in hub SRAM: an Xcorgon instruction, a base instruction, or an illegal one. -/
def State.corgonStep (s : State) (n : Nat) : Act :=
  match getBy Corgon.no n s.fw.corgons with
  | none => .move s
  | some c =>
    if c.waiting.isSome then .move s
    else
      let w : W32 := BitVec.ofNat 32 (s.dev.hub.sram32 c.pc.toNat)
      let s : State := { s with fw := { s.fw with curCorgon := n } }
      match decodeCorgon w with
      | some i => .run i s
      | none =>
        let r := fetchRv w
        let word : W64 := if r.2 == 2 then (w &&& 0xFFFF).setWidth 64 else w.setWidth 64
        match r.1 with
        | some i => .move (s.runRv i r.2 word)
        | none => .move (s.setCor (c.trap 2 word))

/-! ## The plan -/

/-- Whether a row of the opcode table is an event. -/
def isEvent (i : Instr) : Bool := (encode i).isNone && match i with | .illegalWord _ => false | _ => true

/-- A batch issues, ahead of the ready batches `cs`. -/
def State.issue (s : State) (cs : List Cand) (c : Cand) : Act :=
  let r := s.dev.issue cs c
  match r.1 with
  | some w => .run (decodeTotal w) { s with dev := r.2 }
  | none => .move { s with dev := r.2 }

/-- The head of the agenda, already taken off. -/
def State.doTodo (s : State) : Todo → Act
  | .event i a => if isEvent i then .run i (s.withArg a) else .move s
  | .issue core pipe =>
    let cs := s.dev.cands.filter fun c => c.pipe == core * 4 + pipe
    match s.dev.choice cs with
    | some c => s.issue cs c
    | none => .move s
  | .late core slot lane => .move (s.onDev fun d => d.lateNow fun f => f.core == core && f.slot == slot && f.lane == lane)
  | .tick => .move (s.onDev Dev.tick)
  | .corgon n => s.corgonStep n

/-- What happens by itself: an event that is due, a barrier, a batch, or the passing of a cycle. -/
def State.byItself (s : State) : Act :=
  match s.due with
  | some h => .run h.1 (s.withArg h.2)
  | none =>
    match s.dev.dueBar with
    | some d => .move { s with dev := d }
    | none =>
      let cs := s.dev.cands
      match s.dev.choice cs with
      | some c => s.issue cs c
      | none => .move (s.onDev Dev.tick)

/-- A device whose boot has stopped (R397) takes nothing but a cold reset. -/
def State.stopped (s : State) (n : Nat) : Act :=
  match s.agenda with
  | [] => .stop (.bootStopped n)
  | .event .coldReset a :: rest => .run .coldReset ({ s with agenda := rest }.withArg a)
  | _ :: rest => .move { s with agenda := rest }

/-- What the next step does. -/
def State.plan (s : State) : Act :=
  match s.fw.bootFail with
  | some n => s.stopped n
  | none =>
    match s.agenda with
    | t :: rest => { s with agenda := rest }.doTodo t
    | [] => s.byItself

end Sys2Proof.Machine
end

