-- ==== Sys2Proof/Machine/Loader.lean ====
section
/-! DEFINITION. How a word comes to be the next instruction (log 12): the load of a program that the host, the driver and a launch do
over many steps, done at once. -/

namespace Sys2Proof.Machine

/-- Physical bytes of the loaded tables: stage 2 maps the first GiB of IPAs onto itself, stage 1 the first GiB of virtual addresses onto
the same IPAs (R324, R325). -/
def loadTables : List (Nat × Nat) := [(0x1000, 0x2003), (0x2000, 0xD), (0x3000, 0x4003), (0x4000, 0xD)]

/-- Where the loaded word lies. -/
def loadPc : Nat := 0x10000

/-- Writes the tables and a word for everybody, past what core 0 holds back of those bytes. -/
def MemSys.loadWord (ms : MemSys) (w : Nat) : MemSys :=
  let ms := ms.setOwn 0 ((ms.ownMem 0).filter fun c => c.1 < 0x1000 || loadPc + 4 ≤ c.1)
  (loadTables.foldl (fun ms p => ms.poke .outside p.1 (leBytes 8 p.2)) ms).poke .outside loadPc (leBytes 4 w)

/-- The context of a loaded program: function 0, stage-1 root 0x3000. -/
def loadCtx (now : Nat) : Ctx := { Ctx.fresh 0 [] 0 now with s1root := 0x3000 }

/-- A group of one warp and one fibre, with a window of 128 registers, on slot 0 of core 0. -/
def loadGroup (gid now : Nat) : Group := { Group.none_ with gid := gid, entry := BitVec.ofNat 48 loadPc, slots := [0], born := now }

/-- Its fibre. -/
def loadFibre (now : Nat) : Fibre :=
  { launchFibre 0 0 0 0 false (BitVec.ofNat 48 loadPc) 0 128 [] now 0 with ready := now }

/-- A device whose core 0 runs nothing but a loaded word. -/
def Dev.loadWord (d : Dev) (w : Nat) : Dev :=
  let gid := d.hub.nextGid
  let h := d.hub.setCtx (loadCtx d.cycle)
  { d with
    fibres := loadFibre d.cycle :: d.fibres.filter fun f => f.core != 0
    warps := launchWarp 0 0 gid 0 :: d.warps.filter fun x => x.core != 0
    groups := loadGroup gid d.cycle :: d.groups.filter fun g => g.core != 0
    clusters := updWhere (fun c => c.no == 0) (fun (c : Cluster) => { c with pass := 1, want := 1 }) d.clusters
    tlbs := d.tlbs.filter fun t => t.ctx != 0
    pipe := 0
    ms := d.ms.loadWord w
    hub := { h.setFn { h.fn 0 with s2root := 0x1000 } with nextGid := gid + 1 } }

/-- A state whose next step runs a word of a Neroz core. -/
def State.loadNeroz (s : State) (w : Nat) : State :=
  { s with agenda := [.issue 0 0], dev := s.dev.loadWord w, fw := { s.fw with bootFail := none } }

/-- A state whose next step runs a word of Corgon core 0. -/
def State.loadCorgon (s : State) (w : Nat) : State :=
  let c := { (getBy Corgon.no 0 s.fw.corgons).getD (Corgon.reset 0) with waiting := none }
  { s with
    agenda := [.corgon 0]
    dev := s.dev.updHub fun h => h.sramPut c.pc.toNat (leBytes 4 w)
    fw := { s.fw with bootFail := none, corgons := putBy Corgon.no c s.fw.corgons } }

/-- A word of the opcode table's numbering, placed where the next step fetches. -/
def State.loadWord (s : State) (nbits w : Nat) : State :=
  if nbits != 32 then s
  else if (decodeCorgon (BitVec.ofNat 32 w)).isSome then s.loadCorgon w else s.loadNeroz w

end Sys2Proof.Machine
end

