-- ==== Sys2Proof/Machine/Step.lean ====
section
/-! DEFINITION. One step of the device. -/

namespace Sys2Proof.Machine

/-- One step: what the plan names is done. -/
def step (s : State) : Host.Outcome State Fault Refusal :=
  match s.plan with
  | .run i t => exec i t
  | .move t => .next t
  | .stop f => .fault f

/-- A state whose next step runs the instruction whose bits are `w` (log 12). -/
def State.withFetchWord (s : State) (nbits w : Nat) : State := s.loadWord nbits w

end Sys2Proof.Machine
end

