-- ==== Sys2Proof/Certificates/Slice0/Obligations.lean ====
section
/-! DEFINITION. The statements for the provers: each `Obligations.<Name>` formalises the rules its docstring names. -/

namespace Sys2Proof.Stmt

open Machine

/-! ## What a statement about an instruction of a batch says -/

/-- The instruction passes its checks in every fibre of the batch (R14, R70), and no fibre of the batch has trapped. -/
def Ready (s : State) (i : Instr) : Prop := s.dev.passes i = true ∧ ∀ f ∈ s.dev.active, f.trapped = false

/-- Nothing outside the device's fibres changes but the counter of free values. -/
def OnlyFibres (s t : State) : Prop :=
  t.agenda = s.agenda ∧ t.pwr = s.pwr ∧ t.fw = s.fw ∧ { t.dev with fibres := s.dev.fibres, free := s.dev.free } = s.dev

/-- The fibres that are not in the batch are unchanged. -/
def OthersKept (d e : Dev) : Prop :=
  ∀ c n l, ¬(c = d.cur.core ∧ (n, l) ∈ d.cur.members) → e.fibre? c n l = d.fibre? c n l

/-- A fibre goes on sequentially: PC + 4 and the loop-end step (R131, R144). -/
def WentOn (f g : Fibre) : Prop := g.pc = f.goOn.pc ∧ g.lp0 = f.goOn.lp0 ∧ g.lp1 = f.goOn.lp1 ∧ g.lp2 = f.goOn.lp2

/-- A fibre keeps everything but its lane and mask registers, its place in the program, and when it may issue next. -/
def KeepsRest (f g : Fibre) : Prop :=
  { g with win := f.win, pred := f.pred, infl := f.infl, outst := f.outst, pc := f.pc, lp0 := f.lp0, lp1 := f.lp1, lp2 := f.lp2,
           age := f.age, ready := f.ready, cohort := f.cohort, pace := f.pace } = f

/-- The results in flight to registers other than `r`. -/
def inflBut (f : Fibre) (r : Reg) : List InFlight := f.infl.filter fun e => !(e.reg == r)
/-- The results outstanding for registers other than `r`. -/
def outstBut (f : Fibre) (r : Reg) : List Outst := f.outst.filter fun o => !(o.reg == r)
/-- Of the pending results of a fibre only those to `r` change: nothing is outstanding for it any more, and what is in flight or
outstanding for other registers stays (R67 to R69). -/
def KeepsPending (f g : Fibre) (r : Reg) : Prop := g.outst = outstBut f r ∧ inflBut g r = inflBut f r

/-- The lane registers other than `vd`, and every mask register, are unchanged. -/
def KeepsLanes (f g : Fibre) (vd : Nat) : Prop :=
  g.win.length = f.win.length ∧ g.pred = f.pred ∧ ∀ n, n ≠ vd → g.vreg n = f.vreg n

/-- The instruction completes; in every active fibre lane register `vd` then holds a value of which `val` holds, the fibre goes on, and
nothing else changes. -/
def LaneResult (i : Instr) (vd : Nat) (val : Dev → Fibre → W64 → Prop) : Prop :=
  ∀ s : State, Ready s i → ∃ t, exec i s = .next t ∧ OnlyFibres s t ∧ OthersKept s.dev t.dev ∧
    ∀ f ∈ s.dev.active, ∃ g, t.dev.fibre? f.core f.slot f.lane = some g ∧ val s.dev f (g.vreg vd) ∧
      KeepsLanes f g vd ∧ KeepsPending f g (.v vd) ∧ WentOn f g ∧ KeepsRest f g

/-- The values an instruction of the register form reads: vA, vB or kB, and the old vD. -/
def ArgA (d : Dev) (f : Fibre) (o : R3Op) : W64 := d.readV f (laneNo o.hv o.va)
/-- vB, or with KB = 1 kB (R58). -/
def ArgB (d : Dev) (f : Fibre) (o : R3Op) : W64 := d.readB f o.kb o.hv o.vb
/-- The old vD. -/
def ArgD (d : Dev) (f : Fibre) (o : R3Op) : W64 := d.readV f (laneNo o.hv o.vd)

/-- Each sub-element of the result is the low bits of an exact value of the sub-elements read (R77). -/
def Exact (o : R3Op) (rule : (w : Nat) → (a b d : BitVec w) → Int) (d : Dev) (f : Fibre) (v : W64) : Prop :=
  ∀ j < 64 / widthOf o.ty,
    elem (widthOf o.ty) v j =
      BitVec.ofInt _ (rule (widthOf o.ty) (elem _ (ArgA d f o) j) (elem _ (ArgB d f o) j) (elem _ (ArgD d f o) j))

/-- Each bit of each sub-element of the result, from the sub-elements read. -/
def Bits (o : R3Op) (rule : (w : Nat) → (a b d : BitVec w) → Nat → Bool) (d : Dev) (f : Fibre) (v : W64) : Prop :=
  ∀ j < 64 / widthOf o.ty, ∀ i < widthOf o.ty,
    (elem (widthOf o.ty) v j).getLsbD i =
      rule (widthOf o.ty) (elem _ (ArgA d f o) j) (elem _ (ArgB d f o) j) (elem _ (ArgD d f o) j) i

/-- The same for a unary form. -/
def BitsU (o : UnOp) (rule : (w : Nat) → (a : BitVec w) → Nat → Bool) (d : Dev) (f : Fibre) (v : W64) : Prop :=
  ∀ j < 64 / widthOf o.ty, ∀ i < widthOf o.ty,
    (elem (widthOf o.ty) v j).getLsbD i = rule (widthOf o.ty) (elem _ (d.readV f (laneNo o.hv o.va)) j) i

/-- The sub-elements of a unary form's result and of its operand stand in a relation. -/
def EachU (o : UnOp) (rule : (w : Nat) → (a r : BitVec w) → Prop) (d : Dev) (f : Fibre) (v : W64) : Prop :=
  ∀ j < 64 / widthOf o.ty, rule (widthOf o.ty) (elem _ (d.readV f (laneNo o.hv o.va)) j) (elem _ v j)

/-! ## Results of other kinds -/

/-- The instruction completes; in every active fibre mask register `md` then holds a byte of which `val` holds (a write of m0 is
ignored), the other mask registers and every lane register are as before, the fibre goes on, and nothing else changes. -/
def MaskResult (i : Instr) (md : Nat) (val : Dev → Fibre → Byte → Prop) : Prop :=
  ∀ s : State, Ready s i → ∃ t, exec i s = .next t ∧ OnlyFibres s t ∧ OthersKept s.dev t.dev ∧
    ∀ f ∈ s.dev.active, ∃ g, t.dev.fibre? f.core f.slot f.lane = some g ∧
      (if md = 0 then g.pred = f.pred else val s.dev f (g.mask md)) ∧ (∀ n, n ≠ md → g.mask n = f.mask n) ∧
      g.win = f.win ∧ g.outst = f.outst ∧ inflBut g (.m md) = inflBut f (.m md) ∧ WentOn f g ∧ KeepsRest f g

/-- The instruction completes; in every active fibre a value of which `val` holds is then outstanding for lane register `vd`, after
those that were outstanding for other registers; the other lane registers and the mask registers are as before, the fibre goes on, and
nothing else changes. -/
def LaterResult (i : Instr) (vd : Nat) (val : Dev → Fibre → W64 → Prop) : Prop :=
  ∀ s : State, Ready s i → ∃ t, exec i s = .next t ∧ OnlyFibres s t ∧ OthersKept s.dev t.dev ∧
    ∀ f ∈ s.dev.active, ∃ g v, t.dev.fibre? f.core f.slot f.lane = some g ∧ val s.dev f v ∧
      g.outst = outstBut f (.v vd) ++ [⟨.v vd, 0, v, BitVec.allOnes 64⟩] ∧ g.infl = inflBut f (.v vd) ∧
      KeepsLanes f g vd ∧ WentOn f g ∧ KeepsRest f g

/-- Bit `j` of the mask written, from the sub-elements compared; the bits past the last sub-element are 0 (R89). -/
def MaskBits (o : CmpOp) (n : Nat) (rule : Fibre → (a b : W64) → Nat → Prop) (d : Dev) (f : Fibre) (m : Byte) : Prop :=
  ∀ j, m.getLsbD j = true ↔ j < n ∧ rule f (d.readV f (laneNo o.hv o.va)) (d.readB f o.kb o.hv o.vb) j

/-! ## Floating-point codes, independently of the machine's arithmetic -/

/-- A NaN of either kind (R102). -/
abbrev IsNaN (f : FFmt) (c : Nat) : Prop := f.infCode < c % f.signBit
/-- An infinity. -/
abbrev IsInf (f : FFmt) (c : Nat) : Prop := c % f.signBit = f.infCode
/-- The sign bit is set. -/
abbrev IsNeg (f : FFmt) (c : Nat) : Prop := c / f.signBit % 2 = 1
/-- A zero. -/
abbrev IsZero (f : FFmt) (c : Nat) : Prop := c % f.signBit = 0
/-- Neither NaN nor infinity. -/
abbrev IsFin (f : FFmt) (c : Nat) : Prop := c % f.signBit < f.infCode

/-- A magnitude code as a multiple of the least subnormal; the code of infinity stands for the value that would follow the largest. -/
def mag (f : FFmt) (q : Nat) : Nat := if q < 2 ^ f.fb then q else (2 ^ f.fb + q % 2 ^ f.fb) * 2 ^ (q / 2 ^ f.fb - 1)

/-- The value of a finite code as a multiple of the least subnormal. -/
def units (f : FFmt) (c : Nat) : Int := if c / f.signBit % 2 = 1 then -(mag f (c % f.signBit) : Int) else mag f (c % f.signBit)

/-- The exponent of the least subnormal, negated: the value of a code is its units over 2 to this power. -/
def lowest (f : FFmt) : Nat := 2 ^ (f.eb - 1) - 2 + f.fb

/-- A code with its subnormals read as zero where FTZ is set (R92). -/
def flushed (f : FFmt) (z : Bool) (c : Nat) : Nat :=
  if z ∧ 0 < c % f.signBit ∧ c % f.signBit < 2 ^ f.fb then c / f.signBit * f.signBit else c

/-- The code with its sign inverted. -/
def opposite (f : FFmt) (c : Nat) : Nat := if c / f.signBit % 2 = 1 then c - f.signBit else c + f.signBit

/-- `q` is the magnitude code to which the exact magnitude `x` units times 2^e rounds (IEEE 754-2019, R92): the nearest one, with a tie
to the even code; or the first toward zero; or the first away from zero. Nearest and away may give infinity; toward zero stops at the
largest finite code. -/
def RoundsTo (f : FFmt) (rm : Nat) (neg : Bool) (x : Nat) (e : Int) (q : Nat) : Prop :=
  -- both sides times 2^k, with k large enough for whole numbers
  let l := x * 2 ^ e.toNat
  let m (p : Nat) : Nat := mag f p * 2 ^ (-e).toNat
  q ≤ f.infCode ∧
  if rm = 0 then
    (q = 0 ∨ m (q - 1) + m q < 2 * l ∨ (m (q - 1) + m q = 2 * l ∧ q % 2 = 0)) ∧
    (q = f.infCode ∨ 2 * l < m q + m (q + 1) ∨ (2 * l = m q + m (q + 1) ∧ q % 2 = 0))
  else if (rm = 2 ∧ !neg) ∨ (rm = 3 ∧ neg) then (q = 0 ∨ m (q - 1) < l) ∧ (q = f.infCode ∨ l ≤ m q)
  else q < f.infCode ∧ m q ≤ l ∧ (q + 1 = f.infCode ∨ l < m (q + 1))

/-- `r` is the code of the nonzero exact value `x` units times 2^e, rounded once and flushed (R92). -/
def Rounded (f : FFmt) (rm : Nat) (z : Bool) (x : Int) (e : Int) (r : Nat) : Prop :=
  ∃ q, RoundsTo f rm (decide (x < 0)) x.natAbs e q ∧ r = flushed f z ((if x < 0 then f.signBit else 0) + q)

/-- `r` is the sum of two codes (R92, R93). -/
def Sum (f : FFmt) (rm : Nat) (z : Bool) (a b r : Nat) : Prop :=
  let a := flushed f z a
  let b := flushed f z b
  (IsNaN f a ∨ IsNaN f b ∨ (IsInf f a ∧ IsInf f b ∧ ¬(IsNeg f a ↔ IsNeg f b)) → r = f.nan) ∧
  (IsInf f a → ¬IsNaN f b → (IsInf f b → (IsNeg f a ↔ IsNeg f b)) → r = a) ∧
  (IsFin f a → IsInf f b → r = b) ∧
  (IsFin f a → IsFin f b →
    (units f a + units f b ≠ 0 → Rounded f rm z (units f a + units f b) 0 r) ∧
    (units f a + units f b = 0 → IsZero f a → IsZero f b → (IsNeg f a ↔ IsNeg f b) → r = a) ∧
    (units f a + units f b = 0 → ¬(IsZero f a ∧ IsZero f b ∧ (IsNeg f a ↔ IsNeg f b)) → r = if rm = 3 then f.signBit else 0))

/-- `r` is the product of two codes (R92, R93). -/
def Product (f : FFmt) (rm : Nat) (z : Bool) (a b r : Nat) : Prop :=
  let a := flushed f z a
  let b := flushed f z b
  let sg := if a / f.signBit % 2 = b / f.signBit % 2 then 0 else f.signBit
  (IsNaN f a ∨ IsNaN f b ∨ (IsInf f a ∧ IsZero f b) ∨ (IsZero f a ∧ IsInf f b) → r = f.nan) ∧
  (IsInf f a → ¬IsNaN f b → ¬IsZero f b → r = sg + f.infCode) ∧
  (IsInf f b → ¬IsNaN f a → ¬IsZero f a → r = sg + f.infCode) ∧
  (IsFin f a → IsFin f b →
    (IsZero f a ∨ IsZero f b → r = sg) ∧
    (¬IsZero f a → ¬IsZero f b → Rounded f rm z (units f a * units f b) (-(lowest f : Int)) r))

/-- `r` is the fused product and sum a * b + c (R92, R93). -/
def Fused (f : FFmt) (rm : Nat) (z : Bool) (a b c r : Nat) : Prop :=
  let a := flushed f z a
  let b := flushed f z b
  let c := flushed f z c
  let sg := if a / f.signBit % 2 = b / f.signBit % 2 then 0 else f.signBit
  let x := units f a * units f b + units f c * 2 ^ lowest f
  (IsNaN f a ∨ IsNaN f b ∨ IsNaN f c ∨ (IsInf f a ∧ IsZero f b) ∨ (IsZero f a ∧ IsInf f b) ∨
    ((IsInf f a ∨ IsInf f b) ∧ IsInf f c ∧ c ≠ sg + f.infCode) → r = f.nan) ∧
  (¬IsNaN f a → ¬IsNaN f b → ¬IsNaN f c → (IsInf f a ∧ ¬IsZero f b) ∨ (IsInf f b ∧ ¬IsZero f a) → (IsInf f c → c = sg + f.infCode) →
    r = sg + f.infCode) ∧
  (IsFin f a → IsFin f b → IsInf f c → r = c) ∧
  (IsFin f a → IsFin f b → IsFin f c →
    (x ≠ 0 → Rounded f rm z x (-(lowest f : Int)) r) ∧
    (x = 0 → r = if (IsZero f a ∨ IsZero f b) ∧ IsZero f c ∧ c = sg then sg else if rm = 3 then f.signBit else 0))

/-- Codes that are no NaN in the order of R94, with -0 below +0. -/
def rank (f : FFmt) (c : Nat) : Int := if c / f.signBit % 2 = 1 then -((c % f.signBit : Nat) : Int) - 1 else (c % f.signBit : Nat)

/-- `r` is the lesser (`low`) or the greater of two codes (R94). -/
def Extreme (f : FFmt) (z low : Bool) (a b r : Nat) : Prop :=
  let a := flushed f z a
  let b := flushed f z b
  (IsNaN f a → IsNaN f b → r = f.nan) ∧ (IsNaN f a → ¬IsNaN f b → r = b) ∧ (IsNaN f b → ¬IsNaN f a → r = a) ∧
  (¬IsNaN f a → ¬IsNaN f b → r = if (rank f a ≤ rank f b) = (low = true) then a else b)

/-- `r` is a code times two to the `k` (R96). -/
def Scaled (f : FFmt) (rm : Nat) (z : Bool) (a : Nat) (k : Int) (r : Nat) : Prop :=
  let a := flushed f z a
  (IsNaN f a → r = f.nan) ∧ (IsInf f a ∨ IsZero f a → r = a) ∧ (IsFin f a → ¬IsZero f a → Rounded f rm z (units f a) k r)

/-- `r` is a code rounded to an integral value (R97). -/
def Integral (f : FFmt) (rm : Nat) (z : Bool) (a r : Nat) : Prop :=
  let a := flushed f z a
  let u := mag f (a % f.signBit)
  let d := 2 ^ lowest f
  (IsNaN f a → r = f.nan) ∧ (IsInf f a → r = a) ∧
  (IsFin f a → (IsNeg f r ↔ IsNeg f a) ∧ IsFin f r ∧ ∃ n, mag f (r % f.signBit) = n * d ∧
    if rm = 0 then 2 * u ≤ (2 * n + 1) * d ∧ 2 * n * d ≤ 2 * u + d ∧ (2 * u = (2 * n + 1) * d ∨ 2 * n * d = 2 * u + d → n % 2 = 0)
    else if (rm = 2 ∧ ¬IsNeg f a) ∨ (rm = 3 ∧ IsNeg f a) then u ≤ n * d ∧ n * d < u + d
    else n * d ≤ u ∧ u < (n + 1) * d)

/-- The order of R95, in which the two zeros are equal. -/
def place (f : FFmt) (c : Nat) : Int := if c / f.signBit % 2 = 1 then -((c % f.signBit : Nat) : Int) else (c % f.signBit : Nat)

/-- FCMP's conditions (R95). -/
def FCond (f : FFmt) (z : Bool) (cc a b : Nat) : Prop :=
  let a := flushed f z a
  let b := flushed f z b
  match cc with
  | 0 => ¬IsNaN f a ∧ ¬IsNaN f b ∧ place f a = place f b
  | 1 => IsNaN f a ∨ IsNaN f b ∨ place f a ≠ place f b
  | 2 => ¬IsNaN f a ∧ ¬IsNaN f b ∧ place f a < place f b
  | 3 => ¬IsNaN f a ∧ ¬IsNaN f b ∧ place f a ≤ place f b
  | 4 => ¬IsNaN f a ∧ ¬IsNaN f b ∧ place f b < place f a
  | 5 => ¬IsNaN f a ∧ ¬IsNaN f b ∧ place f b ≤ place f a
  | 6 => IsNaN f a ∨ IsNaN f b
  | _ => ¬IsNaN f a ∧ ¬IsNaN f b

/-- The number of the bit FCLASS sets (R97). -/
def ClassOf (f : FFmt) (c k : Nat) : Prop :=
  match k with
  | 0 => IsInf f c ∧ IsNeg f c
  | 1 => IsFin f c ∧ IsNeg f c ∧ 2 ^ f.fb ≤ c % f.signBit
  | 2 => ¬IsZero f c ∧ IsNeg f c ∧ c % f.signBit < 2 ^ f.fb
  | 3 => IsZero f c ∧ IsNeg f c
  | 4 => IsZero f c ∧ ¬IsNeg f c
  | 5 => ¬IsZero f c ∧ ¬IsNeg f c ∧ c % f.signBit < 2 ^ f.fb
  | 6 => IsFin f c ∧ ¬IsNeg f c ∧ 2 ^ f.fb ≤ c % f.signBit
  | 7 => IsInf f c ∧ ¬IsNeg f c
  | 8 => IsNaN f c ∧ c % 2 ^ f.fb < 2 ^ (f.fb - 1)
  | 9 => IsNaN f c ∧ 2 ^ (f.fb - 1) ≤ c % 2 ^ f.fb
  | _ => False

/-- FPCTL.RM and FPCTL.FTZ of a fibre (R34). -/
def rmOf (f : Fibre) : Nat := f.fpctl.toNat % 4
/-- FPCTL.FTZ. -/
def ftzOf (f : Fibre) : Bool := f.fpctl.getLsbD 2

/-- Each sub-element of a float form stands in a relation with those of A, B and the old destination, under the fibre's attribute and
FTZ. -/
def Floats (o : R3Op) (rule : FFmt → (rm : Nat) → (z : Bool) → (a b d r : Nat) → Prop) (d : Dev) (f : Fibre) (v : W64) : Prop :=
  ∀ j < 64 / fwidthOf o.ty, rule (FFmt.ofTy o.ty) (rmOf f) (ftzOf f) (elem (fwidthOf o.ty) (ArgA d f o) j).toNat
    (elem (fwidthOf o.ty) (ArgB d f o) j).toNat (elem (fwidthOf o.ty) (ArgD d f o) j).toNat (elem (fwidthOf o.ty) v j).toNat

/-- The same for a unary form. -/
def FloatsU (o : UnOp) (rule : FFmt → (rm : Nat) → (z : Bool) → (a r : Nat) → Prop) (d : Dev) (f : Fibre) (v : W64) : Prop :=
  ∀ j < 64 / fwidthOf o.ty, rule (FFmt.ofTy o.ty) (rmOf f) (ftzOf f)
    (elem (fwidthOf o.ty) (d.readV f (laneNo o.hv o.va)) j).toNat (elem (fwidthOf o.ty) v j).toNat

/-- The results of R100 for the special inputs of a function, and that a NaN result is canonical. -/
def Special (sub : Nat) (f : FFmt) (z : Bool) (a r : Nat) : Prop :=
  let a := flushed f z a
  -- the code of 1.0
  let one := (2 ^ (f.eb - 1) - 1) * 2 ^ f.fb
  r < 2 * f.signBit ∧ (IsNaN f a ∨ IsNaN f r → r = f.nan) ∧
  match sub with
  | 0 => (IsZero f a → r = a + f.infCode) ∧ (IsInf f a → r = a - f.infCode)
  | 1 => (IsZero f a → r = a + f.infCode) ∧ (IsInf f a ∧ ¬IsNeg f a → r = 0) ∧ (IsNeg f a ∧ ¬IsZero f a → r = f.nan)
  | 2 => (IsZero f a → r = a) ∧ (IsInf f a ∧ ¬IsNeg f a → r = a) ∧ (IsNeg f a ∧ ¬IsZero f a → r = f.nan)
  | 3 => (IsZero f a → r = one) ∧ (IsInf f a → r = if a = f.infCode then a else 0)
  | 4 => (IsZero f a → r = f.signBit + f.infCode) ∧ (IsInf f a ∧ ¬IsNeg f a → r = a) ∧ (IsNeg f a ∧ ¬IsZero f a → r = f.nan)
  | 5 => (IsZero f a → r = a) ∧ (IsInf f a → r = f.nan)
  | 6 => (IsZero f a → r = one) ∧ (IsInf f a → r = f.nan)
  | _ => (IsZero f a → r = a) ∧ (IsInf f a → r = (if a = f.infCode then 0 else f.signBit) + one)

/-- `r` is the correctly rounded square root of a code that is finite and positive (R98, R99): between the two codes the square of whose
midpoint, in units, is compared with the exact square. -/
def Root (f : FFmt) (rm : Nat) (z : Bool) (a r : Nat) : Prop :=
  let a := flushed f z a
  let x := mag f a * 2 ^ lowest f
  IsFin f a → ¬IsNeg f a → ¬IsZero f a → r < f.infCode ∧
  if rm = 0 then
    (r = 0 ∨ (mag f (r - 1) + mag f r) ^ 2 < 4 * x ∨ ((mag f (r - 1) + mag f r) ^ 2 = 4 * x ∧ r % 2 = 0)) ∧
    (4 * x < (mag f r + mag f (r + 1)) ^ 2 ∨ (4 * x = (mag f r + mag f (r + 1)) ^ 2 ∧ r % 2 = 0))
  else if rm = 2 then (r = 0 ∨ mag f (r - 1) ^ 2 < x) ∧ x ≤ mag f r ^ 2
  else mag f r ^ 2 ≤ x ∧ x < mag f (r + 1) ^ 2

/-- `r` is a binary32 code for a value of `v` units of 2^-149, of either sign of zero. -/
def Holds32 (r : Nat) (v : Int) : Prop := IsFin .f32 r ∧ units .f32 r = v

/-- What R99 and R100 say of the binary32 result of a special function other than SQRT at a finite nonzero argument of `u` units of 2^-149:
the exact cases, the bound of one unit in the last place for RCP and RSQ, and the ends of EX2 and TANH. -/
def Value32 (sub : Nat) (u : Int) (r : Nat) : Prop :=
  -- the least subnormal is 1 unit, so that 1.0 is 2^149 of them
  let one : Int := 2 ^ 149
  -- the unit in the last place of a value of `n` units
  let ulp (n : Nat) : Nat := 2 ^ (n.log2 - 23)
  let w := units .f32 r
  r < 2 ^ 32 ∧
  match sub with
  | 0 => 2 ^ 21 < u.natAbs → IsFin .f32 r ∧ (w * u - 2 ^ 298).natAbs ≤ ulp (2 ^ 298 / u.natAbs) * u.natAbs ∧
      ∀ k ≤ 275, u.natAbs = 2 ^ k → w * u = 2 ^ 298
  | 1 => 0 < u → IsFin .f32 r ∧
      (let e := ulp (2 ^ 447 / u.toNat).sqrt
       (w - e ≤ 0 ∨ (w - e) ^ 2 * u ≤ 2 ^ 447) ∧ 0 ≤ w + e ∧ 2 ^ 447 ≤ (w + e) ^ 2 * u) ∧
      ∀ n, u = 2 ^ (2 * n + 1) → 0 ≤ w ∧ w ^ 2 * u = 2 ^ 447
  | 3 => r ≤ FFmt.f32.infCode ∧ (128 * one ≤ u → r = FFmt.f32.infCode) ∧ (u < -149 * one → r ≤ 2) ∧
      ∀ n : Int, -126 ≤ n → n < 128 → u = n * one → Holds32 r (2 ^ (n + 149).toNat)
  | 4 => ∀ n : Int, u = 2 ^ (n + 149).toNat → -149 ≤ n → Holds32 r (n * one) ∧ (n = 0 → r = 0)
  | 5 => (∀ n : Int, u = n * one → IsZero .f32 r ∧ (IsNeg .f32 r ↔ u < 0)) ∧
      ∀ n : Int, 2 * u = (2 * n + 1) * one → Holds32 r (if n % 2 = 0 then one else -one)
  | 6 => (∀ n : Int, u = n * one → Holds32 r (if n % 2 = 0 then one else -one)) ∧ ∀ n : Int, 2 * u = (2 * n + 1) * one → r = 0
  | _ => (10 * one ≤ u → Holds32 r one) ∧ (u ≤ -10 * one → Holds32 r (-one))

/-- `r` is a binary32 code rounded once to a lane format and flushed (R98). -/
def Narrowed (f : FFmt) (rm : Nat) (z : Bool) (c r : Nat) : Prop :=
  let sg := if IsNeg .f32 c then f.signBit else 0
  (IsNaN .f32 c → r = f.nan) ∧ (IsInf .f32 c → r = sg + f.infCode) ∧ (IsZero .f32 c → r = sg) ∧
  (IsFin .f32 c → ¬IsZero .f32 c → Rounded f rm z (units .f32 c) ((lowest f : Int) - 149) r)

/-- A special function other than SQRT (R98 to R100): the special inputs, and at a finite nonzero one the binary32 result of the argument
widened exactly, rounded once to the format. -/
def SpecialFn (sub : Nat) (f : FFmt) (rm : Nat) (z : Bool) (a r : Nat) : Prop :=
  Special sub f z a r ∧
  (IsFin f (flushed f z a) → ¬IsZero f (flushed f z a) → ∃ c, Value32 sub (units f (flushed f z a) * 2 ^ (149 - lowest f)) c ∧ Narrowed f rm z c r)

end Sys2Proof.Stmt

open Sys2Proof Sys2Proof.Machine Sys2Proof.Stmt

/-- R81, R77: the integer arithmetic and logic of the register form, each sub-element the low bits of the exact value the table names, or bit by bit. Every form
(`.i`, `.n`, a uniform register as B, a destination that is also a source) is covered. -/
def Obligations.IntegerArithmeticAndLogic : Prop :=
  ∀ o : R3Op, let vd := laneNo o.hv o.vd
    LaneResult (.add o) vd (Exact o fun _ a b _ => a.toInt + b.toInt) ∧
    LaneResult (.sub o) vd (Exact o fun _ a b _ => a.toInt - b.toInt) ∧
    LaneResult (.mul o) vd (Exact o fun _ a b _ => a.toInt * b.toInt) ∧
    LaneResult (.mulhiI o) vd (Exact o fun w a b _ => a.toInt * b.toInt / 2 ^ w) ∧
    LaneResult (.mulhiN o) vd (Exact o fun w a b _ => (a.toNat * b.toNat / 2 ^ w : Nat)) ∧
    LaneResult (.mad o) vd (Exact o fun _ a b d => a.toInt * b.toInt + d.toInt) ∧
    LaneResult (.and o) vd (Bits o fun _ a b _ i => a.getLsbD i && b.getLsbD i) ∧
    LaneResult (.or o) vd (Bits o fun _ a b _ i => a.getLsbD i || b.getLsbD i) ∧
    LaneResult (.xor o) vd (Bits o fun _ a b _ i => a.getLsbD i != b.getLsbD i) ∧
    LaneResult (.andn o) vd (Bits o fun _ a b _ i => a.getLsbD i && !b.getLsbD i) ∧
    LaneResult (.minI o) vd (Exact o fun _ a b _ => min a.toInt b.toInt) ∧
    LaneResult (.minN o) vd (Exact o fun _ a b _ => (min a.toNat b.toNat : Nat)) ∧
    LaneResult (.maxI o) vd (Exact o fun _ a b _ => max a.toInt b.toInt) ∧
    LaneResult (.maxN o) vd (Exact o fun _ a b _ => (max a.toNat b.toNat : Nat)) ∧
    LaneResult (.addsatI o) vd (Exact o fun w a b _ => max (-2 ^ (w - 1)) (min (a.toInt + b.toInt) (2 ^ (w - 1) - 1))) ∧
    LaneResult (.addsatN o) vd (Exact o fun w a b _ => (min (a.toNat + b.toNat) (2 ^ w - 1) : Nat)) ∧
    LaneResult (.subsatI o) vd (Exact o fun w a b _ => max (-2 ^ (w - 1)) (min (a.toInt - b.toInt) (2 ^ (w - 1) - 1))) ∧
    LaneResult (.subsatN o) vd (Exact o fun _ a b _ => (a.toNat - b.toNat : Nat)) ∧
    LaneResult (.avgI o) vd (Exact o fun _ a b _ => (a.toInt + b.toInt + 1) / 2) ∧
    LaneResult (.avgN o) vd (Exact o fun _ a b _ => ((a.toNat + b.toNat + 1) / 2 : Nat)) ∧
    LaneResult (.sadI o) vd (Exact o fun _ a b d => d.toInt + (a.toInt - b.toInt).natAbs) ∧
    LaneResult (.sadN o) vd (Exact o fun _ a b d => d.toInt + ((a.toNat : Int) - b.toNat).natAbs)

/-- R82, R83: shifts, bit by bit; a count of the width or more as the table of R82 says. -/
def Obligations.IntegerShifts : Prop :=
  (∀ o : R3Op, let vd := laneNo o.hv o.vd
    LaneResult (.shl o) vd (Bits o fun w a b _ i => decide (b.toNat < w ∧ b.toNat ≤ i) && a.getLsbD (i - b.toNat)) ∧
    LaneResult (.shr o) vd (Bits o fun w a b _ i => decide (b.toNat < w) && a.getLsbD (i + b.toNat)) ∧
    LaneResult (.sar o) vd (Bits o fun w a b _ i => if b.toNat < w ∧ i + b.toNat < w then a.getLsbD (i + b.toNat) else a.msb) ∧
    LaneResult (.rot o) vd (Bits o fun w a b _ i => a.getLsbD ((i + w - b.toNat % w) % w))) ∧
  ∀ o : ShIOp, o.cnt.toNat < widthOf o.ty → let c := o.cnt.toNat
    let bits (rule : (w : Nat) → (a : BitVec w) → Nat → Bool) (d : Dev) (f : Fibre) (v : W64) : Prop :=
      ∀ j < 64 / widthOf o.ty, ∀ i < widthOf o.ty,
        (elem (widthOf o.ty) v j).getLsbD i = rule (widthOf o.ty) (elem _ (d.readV f o.va.toNat) j) i
    LaneResult (.shli o) o.vd.toNat (bits fun _ a i => decide (c ≤ i) && a.getLsbD (i - c)) ∧
    LaneResult (.shri o) o.vd.toNat (bits fun _ a i => a.getLsbD (i + c)) ∧
    LaneResult (.sari o) o.vd.toNat (bits fun w a i => if i + c < w then a.getLsbD (i + c) else a.msb) ∧
    LaneResult (.roti o) o.vd.toNat (bits fun w a i => a.getLsbD ((i + w - c) % w))

/-- R83, R84, R85: the immediates ADDI and MOVI, the unary instructions, and bit fields. -/
def Obligations.IntegerUnaryAndFields : Prop :=
  (∀ o : UnOp, let vd := laneNo o.hv o.vd
    LaneResult (.neg o) vd (EachU o fun w a r => r = BitVec.ofInt w (0 - a.toInt)) ∧
    LaneResult (.abs o) vd (EachU o fun w a r => r = BitVec.ofInt w a.toInt.natAbs) ∧
    LaneResult (.not o) vd (BitsU o fun _ a i => !a.getLsbD i) ∧
    LaneResult (.popc o) vd (EachU o fun w a r => r = BitVec.ofNat w ((List.range w).countP fun i => a.getLsbD i)) ∧
    LaneResult (.clz o) vd (EachU o fun w a r =>
      r.toNat ≤ w ∧ (∀ i < r.toNat, a.getMsbD i = false) ∧ (r.toNat < w → a.getMsbD r.toNat = true)) ∧
    LaneResult (.ctz o) vd (EachU o fun w a r =>
      r.toNat ≤ w ∧ (∀ i < r.toNat, a.getLsbD i = false) ∧ (r.toNat < w → a.getLsbD r.toNat = true)) ∧
    LaneResult (.brev o) vd (BitsU o fun w a i => a.getLsbD (w - 1 - i))) ∧
  (∀ o : R3Op, let vd := laneNo o.hv o.vd
    let p (w : Nat) (b : BitVec w) : Nat := b.toNat % 2 ^ w.log2
    let n (w : Nat) (b : BitVec w) : Nat :=
      let l := b.toNat / 2 ^ w.log2 % 2 ^ w.log2
      min (if l = 0 then w else l) (w - p w b)
    LaneResult (.bfx o) vd (Bits o fun w a b _ i => decide (i < n w b) && a.getLsbD (p w b + i)) ∧
    LaneResult (.bfi o) vd (Bits o fun w a b d i =>
      if p w b ≤ i ∧ i < p w b + n w b then a.getLsbD (i - p w b) else d.getLsbD i)) ∧
  (∀ o : Im8Op, LaneResult (.addi o) o.vd.toNat fun d f v => ∀ j < 64 / widthOf o.ty,
    elem (widthOf o.ty) v j = BitVec.ofInt _ ((elem (widthOf o.ty) (d.readV f o.va.toNat) j).toInt + o.imm.toInt)) ∧
  ∀ o : Im14Op, LaneResult (.movi o) o.vd.toNat fun _ _ v => ∀ j < 64 / widthOf o.ty,
    elem (widthOf o.ty) v j = BitVec.ofInt _ o.imm.toInt

/-- R86, R87, R88, R90, R91: byte permutation, dot products, address formation, selection and moves. -/
def Obligations.IntegerWideAndMoves : Prop :=
  (∀ o : R3wOp, let vd := laneNo o.hv o.vd
    let a (d : Dev) (f : Fibre) : W64 := d.readV f (laneNo o.hv o.va)
    let b (d : Dev) (f : Fibre) : W64 := d.readB f o.kb o.hv o.vb
    let old (d : Dev) (f : Fibre) : W64 := d.readV f vd
    let by_ (x : W64) (j i : Nat) : Byte := elem 8 x (4 * j + i)
    let dots (rd : Byte → Int) (d : Dev) (f : Fibre) (v : W64) : Prop := ∀ j < 2,
      elem 32 v j = BitVec.ofInt 32 ((elem 32 (old d f) j).toInt +
        (rd (by_ (a d f) j 0) * rd (by_ (b d f) j 0) + rd (by_ (a d f) j 1) * rd (by_ (b d f) j 1) +
         rd (by_ (a d f) j 2) * rd (by_ (b d f) j 2) + rd (by_ (a d f) j 3) * rd (by_ (b d f) j 3)))
    LaneResult (.permb o) vd (fun d f v => ∀ i < 8,
      elem 8 v i = if (elem 8 (b d f) i).msb then 0 else elem 8 (a d f) ((elem 8 (b d f) i).toNat % 8)) ∧
    LaneResult (.dot4I o) vd (dots BitVec.toInt) ∧
    LaneResult (.dot4N o) vd (dots fun x => x.toNat)) ∧
  (∀ o : R3Op, 2 ≤ o.ty.toNat → LaneResult (.lea o) (laneNo o.hv o.vd) fun d f v =>
    let t : Int := (ArgA d f o).toInt + if o.ty = 2 then ((ArgB d f o).setWidth 32).toInt else (ArgB d f o).toInt
    v = (BitVec.ofInt 48 t).signExtend 64) ∧
  (∀ o : SelOp, LaneResult (.sel o) (laneNo o.hv o.vd) fun d f v => ∀ j < 64 / widthOf o.ty,
    elem (widthOf o.ty) v j = if (d.readM f o.ms.toNat).getLsbD j then elem _ (d.readV f (laneNo o.hv o.va)) j
      else elem _ (d.readV f (laneNo o.hv o.vd)) j) ∧
  (∀ o : UnOp, LaneResult (.movReg o) (laneNo o.hv o.vd) fun d f v => v = d.readV f (laneNo o.hv o.va)) ∧
  ∀ o : MovUOp, LaneResult (.movUniform o) (laneNo o.hv o.vd) fun d f v => v = d.readKAs (f.slot * 32 + f.lane) o.ku.toNat


/-- R89, R95, R63: comparisons, bit by bit of the mask written. -/
def Obligations.Comparisons : Prop :=
  ∀ o : CmpOp, let md := o.md.toNat
    MaskResult (.cmpI o) md (MaskBits o (64 / widthOf o.ty) fun _ a b j =>
      let x := (elem (widthOf o.ty) a j).toInt
      let y := (elem (widthOf o.ty) b j).toInt
      match o.cc.toNat with
      | 0 => x = y | 1 => x ≠ y | 2 => x < y | 3 => x ≤ y | 4 => y < x | 5 => y ≤ x | _ => False) ∧
    MaskResult (.cmpN o) md (MaskBits o (64 / widthOf o.ty) fun _ a b j =>
      let x := (elem (widthOf o.ty) a j).toNat
      let y := (elem (widthOf o.ty) b j).toNat
      match o.cc.toNat with
      | 0 => x = y | 1 => x ≠ y | 2 => x < y | 3 => x ≤ y | 4 => y < x | 5 => y ≤ x | _ => False) ∧
    MaskResult (.fcmp o) md (MaskBits o (64 / fwidthOf o.ty) fun f a b j =>
      FCond (FFmt.ofTy o.ty) (ftzOf f) o.cc.toNat (elem (fwidthOf o.ty) a j).toNat (elem (fwidthOf o.ty) b j).toNat)

/-- R92, R93: sums, products and fused products of the four lane formats, each the exact value rounded once under FPCTL.RM, with its
infinities, NaNs, zeros and FTZ. -/
def Obligations.FloatArithmetic : Prop :=
  ∀ o : R3Op, let vd := laneNo o.hv o.vd
    LaneResult (.fadd o) vd (Floats o fun f rm z a b _ r => Sum f rm z a b r) ∧
    LaneResult (.fsub o) vd (Floats o fun f rm z a b _ r => Sum f rm z a (opposite f b) r) ∧
    LaneResult (.fmul o) vd (Floats o fun f rm z a b _ r => Product f rm z a b r) ∧
    LaneResult (.fma o) vd (Floats o fun f rm z a b d r => Fused f rm z a b d r) ∧
    LaneResult (.fms o) vd (Floats o fun f rm z a b d r => Fused f rm z a b (opposite f d) r)

/-- R94, R96, R97: the other float instructions of fixed latency. -/
def Obligations.FloatSelectScaleAndRound : Prop :=
  (∀ o : R3Op, let vd := laneNo o.hv o.vd
    LaneResult (.fmin o) vd (Floats o fun f _ z a b _ r => Extreme f z true a b r) ∧
    LaneResult (.fmax o) vd (Floats o fun f _ z a b _ r => Extreme f z false a b r) ∧
    LaneResult (.fscale o) vd (Floats o fun f rm z a b _ r => Scaled f rm z a (BitVec.ofNat f.width b).toInt r)) ∧
  ∀ o : UnOp, let vd := laneNo o.hv o.vd
    LaneResult (.fabs o) vd (FloatsU o fun f _ _ a r => r = a % f.signBit) ∧
    LaneResult (.fneg o) vd (FloatsU o fun f _ _ a r => r = opposite f a) ∧
    LaneResult (.fclass o) vd (FloatsU o fun f _ _ a r => ∃ k, ClassOf f a k ∧ r = 2 ^ k) ∧
    LaneResult (.frnd o) vd (FloatsU o fun f rm z a r => Integral f rm z a r) ∧
    LaneResult (.frndRn o) vd (FloatsU o fun f _ z a r => Integral f 0 z a r) ∧
    LaneResult (.frndRz o) vd (FloatsU o fun f _ z a r => Integral f 1 z a r) ∧
    LaneResult (.frndRu o) vd (FloatsU o fun f _ z a r => Integral f 2 z a r) ∧
    LaneResult (.frndRd o) vd (FloatsU o fun f _ z a r => Integral f 3 z a r)

/-- R98, R99, R100: a special function completes with its result outstanding. SQRT is correctly rounded; the special inputs give the
results of R100 and the exact cases those of R99; RCP and RSQ lie within one unit in the last place. The bounds that R99 gives EX2, LG2,
SINP, COSP and TANH between their exact cases are not stated. -/
def Obligations.SpecialFunctions : Prop :=
  ∀ o : UnOp, o.ty.toNat ≤ 2 → let vd := laneNo o.hv o.vd
    LaterResult (.rcp o) vd (FloatsU o fun f rm z a r => SpecialFn 0 f rm z a r) ∧
    LaterResult (.rsq o) vd (FloatsU o fun f rm z a r => SpecialFn 1 f rm z a r) ∧
    LaterResult (.sqrt o) vd (FloatsU o fun f rm z a r => Special 2 f z a r ∧ Root f rm z a r) ∧
    LaterResult (.ex2 o) vd (FloatsU o fun f rm z a r => SpecialFn 3 f rm z a r) ∧
    LaterResult (.lg2 o) vd (FloatsU o fun f rm z a r => SpecialFn 4 f rm z a r) ∧
    LaterResult (.sinp o) vd (FloatsU o fun f rm z a r => SpecialFn 5 f rm z a r) ∧
    LaterResult (.cosp o) vd (FloatsU o fun f rm z a r => SpecialFn 6 f rm z a r) ∧
    LaterResult (.tanh o) vd (FloatsU o fun f rm z a r => SpecialFn 7 f rm z a r)

namespace Sys2Proof.Stmt

open Machine

/-! ## Conversions (05) -/

/-- `n` is the magnitude `u / d` rounded to a whole number. -/
def Whole (rm : Nat) (neg : Bool) (u d n : Nat) : Prop :=
  if rm = 0 then 2 * u ≤ (2 * n + 1) * d ∧ 2 * n * d ≤ 2 * u + d ∧ (2 * u = (2 * n + 1) * d ∨ 2 * n * d = 2 * u + d → n % 2 = 0)
  else if (rm = 2 ∧ !neg) ∨ (rm = 3 ∧ neg) then u ≤ n * d ∧ n * d < u + d
  else n * d ≤ u ∧ u < (n + 1) * d

/-- The value of a code of an integer type. -/
def intVal (t c : Nat) : Int := if t ≤ 3 then (BitVec.ofNat (typeWidth t) c).toInt else c
/-- The ends of an integer type's range. -/
def intLow (t : Nat) : Int := if t ≤ 3 then -2 ^ (typeWidth t - 1) else 0
/-- The upper end. -/
def intHigh (t : Nat) : Int := if t ≤ 3 then 2 ^ (typeWidth t - 1) - 1 else 2 ^ typeWidth t - 1

/-- `r` is the code of type `td` that CVT makes of the code `a` of type `ts` (R108). -/
def Converted (td ts rm a r : Nat) : Prop :=
  let f := typeFmt ts
  let g := typeFmt td
  r < 2 ^ typeWidth td ∧
  (8 ≤ ts → 8 ≤ td →
    (IsNaN f a → r = g.nan) ∧ (IsInf f a → IsInf g r ∧ (IsNeg g r ↔ IsNeg f a)) ∧ (IsZero f a → IsZero g r ∧ (IsNeg g r ↔ IsNeg f a)) ∧
    (IsFin f a → ¬IsZero f a → Rounded g rm false (units f a) ((lowest g : Int) - lowest f) r)) ∧
  (8 ≤ ts → td < 8 →
    (IsNaN f a → r = 0) ∧ (IsInf f a → intVal td r = if IsNeg f a then intLow td else intHigh td) ∧
    (IsFin f a → ∃ n, Whole rm (decide (IsNeg f a)) (mag f (a % f.signBit)) (2 ^ lowest f) n ∧
      intVal td r = max (intLow td) (min (if IsNeg f a then -(n : Int) else n) (intHigh td)))) ∧
  (ts < 8 → 8 ≤ td → (intVal ts a = 0 → r = 0) ∧ (intVal ts a ≠ 0 → Rounded g rm false (intVal ts a) (lowest g) r)) ∧
  (ts < 8 → td < 8 → intVal td r = max (intLow td) (min (intVal ts a) (intHigh td)))

/-- `y` is the transform of the segment `x` of `n` binary32 codes, by the butterflies of R110. -/
def Transform (n : Nat) (x y : Nat → Nat) : Prop :=
  ∃ l : Nat → Nat → Nat, (∀ i < n, l 0 i = x i) ∧
    (∀ k < n.log2, ∀ i < n,
      if i / 2 ^ k % 2 = 0 then Sum .f32 0 false (l k i) (l k (i + 2 ^ k)) (l (k + 1) i)
      else Sum .f32 0 false (l k (i - 2 ^ k)) (opposite .f32 (l k i)) (l (k + 1) i)) ∧
    ∀ i < n, Product .f32 0 false (l n.log2 i) (if n = 16 then 0x3E800000 else 0x3E3504F3) (y i)

/-- sc8val of a code from 0x01 to 0xFE as a multiple of 2^-34 (R103). -/
def scale8 (c : Nat) : Nat := (4 + c % 4) * 2 ^ (c / 4)

/-- A magnitude code of a block format as a multiple of 2^-5 (R104): 0 NB8, 1 NB6, 2 NB4. -/
def blockMag (nf m : Nat) : Nat :=
  match nf with
  | 0 => if m < 8 then m else (8 + m % 8) * 2 ^ (m / 8 - 1)
  | 1 => if m < 4 then 8 * m else (4 + m % 4) * 2 ^ (m / 4 - 1) * 8
  | _ => if m < 2 then 16 * m else 32 + 16 * (m % 2)

/-- Finite magnitude codes, Q, and the code width of a block format (R104). -/
def blockFinite (nf : Nat) : Nat := match nf with | 0 => 62 | 1 => 16 | _ => 4
/-- Q as a multiple of 2^-5. -/
def blockQ (nf : Nat) : Nat := match nf with | 0 => 26 * 32 | 1 => 7 * 32 | _ => 48
/-- Code width. -/
def blockWidth (nf : Nat) : Nat := match nf with | 0 => 8 | 1 => 6 | _ => 4

/-- `m` is the largest magnitude of the elements of a block for which `p` holds, or 0. -/
def Largest (n : Nat) (x : Nat → Nat) (p : Nat → Prop) (m : Nat) : Prop :=
  (∀ i < n, p (x i) → mag .f32 (x i % 2 ^ 31) ≤ m) ∧ (m = 0 ∨ ∃ i < n, p (x i) ∧ mag .f32 (x i % 2 ^ 31) = m)

/-- `s` is 0 for a magnitude of 0, else ceil_sc8 of the magnitude over Q (R101, R112). -/
def ScaleOf (nf a s : Nat) : Prop :=
  (a = 0 → s = 0) ∧
  (a ≠ 0 → 1 ≤ s ∧ s ≤ 0xFE ∧ (s = 0xFE ∨ a ≤ scale8 s * blockQ nf * 2 ^ 110) ∧ ∀ c, 1 ≤ c → c < s → scale8 c * blockQ nf * 2 ^ 110 < a)

/-- `m` is the magnitude code nearest to a magnitude over a scale, a tie going to an even code (R112). -/
def GridOf (nf a s m : Nat) : Prop :=
  let far (c : Nat) : Nat := ((a : Int) - (blockMag nf c * (scale8 s * 2 ^ 110) : Nat)).natAbs
  m < blockFinite nf ∧ ∀ c < blockFinite nf, far m ≤ far c ∧ (far m = far c → c ≠ m → m % 2 = 0)

/-- A block of `n` binary32 codes quantised with G = `g` (R112). -/
def Quantised (nf g n : Nat) (x : Nat → Nat) (s0 s1 : Nat) (code : Nat → Nat) : Prop :=
  let f := FFmt.f32
  ((∃ i < n, IsNaN f (x i)) → s0 = 0xFF ∧ s1 = 0xFF ∧ ∀ i < n, code i = 0) ∧
  ((∀ i < n, ¬IsNaN f (x i)) → ∃ amax alo,
    let below (c : Nat) : Prop := IsFin f c ∧ mag f (c % 2 ^ 31) * 2 ^ g < amax
    Largest n x (IsFin f) amax ∧ ScaleOf nf amax s1 ∧ Largest n x below alo ∧ ScaleOf nf alo s0 ∧
    ∀ i < n, ∃ sel m, code i = sel * 2 ^ (blockWidth nf - 1) + x i / 2 ^ 31 % 2 * 2 ^ (blockWidth nf - 2) + m ∧
      (below (x i) → sel = 0) ∧ (¬below (x i) → sel = 1) ∧
      (IsInf f (x i) → m = if nf = 0 then 62 else blockFinite nf - 1) ∧
      (IsFin f (x i) → (if sel = 0 then s0 else s1) = 0 → m = 0) ∧
      (IsFin f (x i) → (if sel = 0 then s0 else s1) ≠ 0 → GridOf nf (mag f (x i % 2 ^ 31)) (if sel = 0 then s0 else s1) m))

/-- Block `b` of a batch (R112): its scales and codes, for blocks of 32 lanes (b = j), or of 16 (b = 2j + h). -/
def BlockOf (o : QuantOp) (d : Dev) (b s0 s1 : Nat) (code : Nat → Nat) : Prop :=
  let n := if o.bl = 1 then 32 else 16
  let j := if o.bl = 1 then b else b / 2
  let base := if o.bl = 1 then 0 else b % 2 * 16
  let x (i : Nat) : Nat := (elem 32 (d.laneV o.va.toNat (base + i)) j).toNat
  ∃ y : Nat → Nat, (if o.hf = 0 then ∀ i < n, y i = x i else Transform n x y) ∧
    Quantised o.nf.toNat (if o.g = 0 then 3 else o.g.toNat) n y s0 s1 code

end Sys2Proof.Stmt

/-- R107, R108: CVT, sub-element by sub-element; bits past the last one are 0. -/
def Sys2Proof.Stmt.ConvertRules : Prop :=
  ∀ o : CvtOp, let ws := typeWidth o.ts.toNat; let wd := typeWidth o.td.toNat; let n := 64 / max ws wd
    LaneResult (.cvt o) o.vd.toNat fun d f v =>
      (∀ j < n, Converted o.td.toNat o.ts.toNat o.rnd.toNat (elem ws (d.readV f o.va.toNat) j).toNat (elem wd v j).toNat) ∧
      ∀ i, n * wd ≤ i → v.getLsbD i = false

/-- R114, R115: PACK joins the low halves of the sub-elements of A and B; UNPACK spreads the fields of one half of A. -/
def Sys2Proof.Stmt.PackAndUnpackRules : Prop :=
  ∀ o : R3Op, let vd := laneNo o.hv o.vd; let w := widthOf o.ty
    LaneResult (.pack o) vd (fun d f v => ∀ j < 64 / w, ∀ i < w / 2,
      v.getLsbD (w / 2 * j + i) = (ArgA d f o).getLsbD (w * j + i) ∧
      v.getLsbD (32 + w / 2 * j + i) = (ArgB d f o).getLsbD (w * j + i)) ∧
    LaneResult (.unpack o) vd (fun d f v => ∀ j < 64 / w, ∀ i < w,
      v.getLsbD (w * j + i) =
        (decide (i < w / 2) && (ArgA d f o).getLsbD ((if (ArgB d f o).getLsbD 0 then 32 else 0) + w / 2 * j + i)))

/-- R107, R108: CVT, sub-element by sub-element; bits past the last one are 0.

R114, R115: PACK joins the low halves of the sub-elements of A and B; UNPACK spreads the fields of one half of A. -/
def Obligations.Conversions : Prop := Stmt.ConvertRules ∧ Stmt.PackAndUnpackRules

/-- R109, R110: HAD transforms each segment of 32 or 16 home lanes, for both binary32 sub-elements. -/
def Sys2Proof.Stmt.HadamardTransformRules : Prop :=
  ∀ o : HadOp, o.imm = 16 ∨ o.imm = 32 → let n := o.imm.toNat
    LaneResult (.had o) o.vd.toNat fun d f v => f.lane < 32 → ∀ j < 2, ∃ y : Nat → Nat,
      Transform n (fun i => (elem 32 (d.laneV o.va.toNat (f.lane / n * n + i)) j).toNat) y ∧
      (elem 32 v j).toNat = y (f.lane % n)

/-- R109, R112, R113: CVTNB writes each member the codes of its own elements, CVTNBX every member the scales of every block. -/
def Sys2Proof.Stmt.QuantisationRules : Prop :=
  ∀ o : QuantOp, o.nf.toNat ≤ 2 →
    LaneResult (.cvtnb o) o.vd.toNat (fun d f v => f.lane < 32 →
      (∀ j < 2, ∃ s0 s1 code, BlockOf o d (if o.bl = 1 then j else 2 * j + f.lane / 16) s0 s1 code ∧
        (elem 8 v j).toNat = code (if o.bl = 1 then f.lane else f.lane % 16)) ∧
      ∀ i, 16 ≤ i → v.getLsbD i = false) ∧
    LaneResult (.cvtnbx o) o.vd.toNat (fun d _ v =>
      (∀ b < (if o.bl = 1 then 2 else 4), ∃ code, BlockOf o d b (elem 8 v (2 * b)).toNat (elem 8 v (2 * b + 1)).toNat code) ∧
      (o.bl = 1 → ∀ i, 32 ≤ i → v.getLsbD i = false))

/-- R109, R110: HAD transforms each segment of 32 or 16 home lanes, for both binary32 sub-elements.

R109, R112, R113: CVTNB writes each member the codes of its own elements, CVTNBX every member the scales of every block. -/
def Obligations.HadamardAndQuantisation : Prop := Stmt.HadamardTransformRules ∧ Stmt.QuantisationRules

namespace Sys2Proof.Stmt

open Machine

/-! ## Cross-lane instructions (06) -/

/-- Sub-element `j` of a shuffle's result (R122): sub-element `x % 8 % n` of home lane `x / 8` for the index form, and for the others
the place reached by XOR, or by the distance down or up the 32 * n places; past either end the fibre's own sub-element. -/
def ShuffleFrom (form : Shfl) (w va : Nat) (d : Dev) (f : Fibre) (x j : Nat) (r : BitVec w) : Prop :=
  let n := 64 / w
  let lp := x / 8 % 32
  let sp := x % 8 % n
  let from_ (l s : Nat) : Prop := r = elem w (d.laneV va l) s
  let own : Prop := r = elem w (d.readV f va) j
  match form with
  | .idx => from_ lp sp
  | .xor => from_ (f.lane ^^^ lp) (j ^^^ sp)
  | .up => if lp * n + sp ≤ f.lane * n + j then
      from_ ((f.lane * n + j - (lp * n + sp)) / n) ((f.lane * n + j - (lp * n + sp)) % n) else own
  | .dn => if f.lane * n + j + (lp * n + sp) < 32 * n then
      from_ ((f.lane * n + j + (lp * n + sp)) / n) ((f.lane * n + j + (lp * n + sp)) % n) else own

/-- A fibre whose operand a vote counts (R126). -/
def Votes (d : Dev) (m : Fibre) : Prop := m ∈ d.active ∧ m.helper = false

/-- Bit `l` of a map is set where a contributor at home lane `l` satisfies `p`. -/
def MapOf (w : Nat) (d : Dev) (p : Fibre → Prop) (r : BitVec w) : Prop :=
  ∀ l < w, r.getLsbD l = true ↔ ∃ m, Votes d m ∧ m.lane = l ∧ p m

/-- The tree of R128: place `i` after `k` rounds. -/
def tree {w : Nat} (op : BitVec w → BitVec w → BitVec w) (x : Nat → Option (BitVec w)) : Nat → Nat → Option (BitVec w)
  | 0, i => x i
  | k + 1, i => match tree op x k i, tree op x k (i + 2 ^ k) with
    | some a, some b => some (op a b)
    | some a, none => some a
    | none, b => b

/-- The walk of R129 over home lanes 0 to `i`. -/
def walkTo {w : Nat} (op : BitVec w → BitVec w → BitVec w) (x : Nat → Option (BitVec w)) : Nat → Option (BitVec w)
  | 0 => x 0
  | i + 1 => match walkTo op x i, x (i + 1) with
    | some a, some b => some (op a b)
    | some a, none => some a
    | none, b => b

/-- Whether `op` is the operation of a sub-code under an attribute and FTZ, and `e` its empty value (R128, R129). -/
def Reduces (o : RedOp) (rm : Nat) (z : Bool) (w : Nat) (op : BitVec w → BitVec w → BitVec w) (e : BitVec w) : Prop :=
  let f := FFmt.ofTy o.ty
  match o.op.toNat with
  | 0 => (∀ a b, op a b = a + b) ∧ e = 0
  | 1 => (∀ a b, (op a b).toInt = min a.toInt b.toInt) ∧ e.toInt = 2 ^ (w - 1) - 1
  | 2 => (∀ a b, (op a b).toNat = min a.toNat b.toNat) ∧ e = BitVec.allOnes w
  | 3 => (∀ a b, (op a b).toInt = max a.toInt b.toInt) ∧ e.toInt = -2 ^ (w - 1)
  | 4 => (∀ a b, (op a b).toNat = max a.toNat b.toNat) ∧ e = 0
  | 8 => (∀ a b, Sum f rm z a.toNat b.toNat (op a b).toNat) ∧ e = 0
  | 9 => (∀ a b, Extreme f z true a.toNat b.toNat (op a b).toNat) ∧ e.toNat = f.infCode
  | 10 => (∀ a b, Extreme f z false a.toNat b.toNat (op a b).toNat) ∧ e.toNat = f.signBit + f.infCode
  | _ => False

/-- A reduction or a scan: the member with the lowest home lane gives the attribute and FTZ of a float form. -/
def Reduction (o : RedOp) (join : {w : Nat} → (BitVec w → BitVec w → BitVec w) → (Nat → Option (BitVec w)) → Fibre → Option (BitVec w))
    (d : Dev) (f : Fibre) (v : W64) : Prop :=
  let w := redWidth o
  ∃ c ∈ d.active, (∀ m ∈ d.active, c.lane ≤ m.lane) ∧ ∃ op e, Reduces o (rmOf c) (ftzOf c) w op e ∧
    ∀ j < 64 / w, elem w v j =
      (join op (fun l => (d.active.find? fun m => !m.helper && m.lane == l).map fun m => elem w (d.readV m (laneNo o.hv o.va)) j) f).getD e

end Sys2Proof.Stmt

/-- R120 to R123, R125: the shuffles of both forms, BCAST and QXCH; a home lane without a member supplies 0. -/
def Obligations.Shuffles : Prop :=
  (∀ o : R3Op, let vd := laneNo o.hv o.vd; let w := widthOf o.ty
    let value (form : Shfl) (d : Dev) (f : Fibre) (v : W64) : Prop := ∀ j < 64 / w,
      ShuffleFrom form w (laneNo o.hv o.va) d f ((elem w (ArgB d f o) j).toNat % 256) j (elem w v j)
    LaneResult (.shflIdx o) vd (value .idx) ∧ LaneResult (.shflXor o) vd (value .xor) ∧
    LaneResult (.shflUp o) vd (value .up) ∧ LaneResult (.shflDn o) vd (value .dn)) ∧
  ∀ o : Im8Op, let vd := o.vd.toNat; let w := widthOf o.ty
    let value (form : Shfl) (d : Dev) (f : Fibre) (v : W64) : Prop := ∀ j < 64 / w,
      ShuffleFrom form w o.va.toNat d f o.imm.toNat j (elem w v j)
    LaneResult (.bcast o) vd (value .idx) ∧ LaneResult (.shflXorConst o) vd (value .xor) ∧
    LaneResult (.shflUpConst o) vd (value .up) ∧ LaneResult (.shflDnConst o) vd (value .dn) ∧
    (o.imm.toNat ≤ 2 → LaneResult (.qxch o) vd fun d f v =>
      v = d.laneV o.va.toNat (f.lane / 4 * 4 + (f.lane % 4 ^^^ (o.imm.toNat + 1))))

/-- R126, R127: the four votes and MATCH over the members that are no helper fibres. -/
def Sys2Proof.Stmt.VotesAndMatchRules : Prop :=
  (∀ o : VoteOp, LaneResult (.vote o) (laneNo o.hv o.vd) fun d _ v => ∀ j < 64 / widthOf o.ty,
    let a (m : Fibre) := elem (widthOf o.ty) (d.readV m (laneNo o.hv o.va)) j
    let r := elem (widthOf o.ty) v j
    let bit (p : Prop) : Prop := (p → r = 1) ∧ (¬p → r = 0)
    match o.form.toNat with
    | 0 => bit (∃ m, Votes d m ∧ a m ≠ 0)
    | 1 => bit (∀ m, Votes d m → a m ≠ 0)
    | 2 => bit (∀ m k, Votes d m → Votes d k → a m = a k)
    | _ => MapOf _ d (fun m => a m ≠ 0) r) ∧
  ∀ o : UnOp, LaneResult (.matchLanes o) (laneNo o.hv o.vd) fun d f v => ∀ j < 64 / widthOf o.ty,
    let a (m : Fibre) := elem (widthOf o.ty) (d.readV m (laneNo o.hv o.va)) j
    MapOf _ d (fun m => a m = a f) (elem (widthOf o.ty) v j)

/-- R128, R129: reductions by the tree and scans in home-lane order, with the operations and the empty values of the table. -/
def Sys2Proof.Stmt.ReductionsAndScansRules : Prop :=
  ∀ o : RedOp, o.op.toNat ≤ 4 ∨ (8 ≤ o.op.toNat ∧ o.op.toNat ≤ 10) → let vd := laneNo o.hv o.vd
    LaneResult (.wred o) vd (Reduction o fun op x _ => tree op x 5 0) ∧
    LaneResult (.wscan o) vd (Reduction o fun op x f => walkTo op x f.lane)

/-- R126, R127: the four votes and MATCH over the members that are no helper fibres.

R128, R129: reductions by the tree and scans in home-lane order, with the operations and the empty values of the table. -/
def Obligations.VotesReductionsAndScans : Prop := Stmt.VotesAndMatchRules ∧ Stmt.ReductionsAndScansRules

namespace Sys2Proof.Stmt

open Machine

/-! ## Flow (06: R131 to R146; 07: R186) -/

/-- Where a fibre goes: to a target, with no loop-end step, or on sequentially (R131, R144). -/
def Reaches (f g : Fibre) : Option Addr48 → Prop
  | some a => g.pc = a ∧ g.lp0 = f.lp0 ∧ g.lp1 = f.lp1 ∧ g.lp2 = f.lp2
  | none => WentOn f g

/-- No register is written, or the link register receives PC + 4 with variable latency (R133). -/
def Linked (f g : Fibre) : Option Nat → Prop
  | none => g.win = f.win ∧ g.pred = f.pred ∧ g.infl = f.infl ∧ g.outst = f.outst
  | some n => KeepsLanes f g n ∧ g.infl = inflBut f (.v n) ∧
      g.outst = outstBut f (.v n) ++ [⟨.v n, 0, (f.pc + 4).signExtend 64, BitVec.allOnes 64⟩]

/-- The instruction completes when every fibre of the batch meets `good`: each fibre continues where `dest` says, only the link is
written, its age restarts, and nothing else changes. -/
def Flow (i : Instr) (link : Option Nat) (good : Dev → Fibre → Prop) (dest : Dev → Fibre → Option Addr48) : Prop :=
  ∀ s : State, Ready s i → (∀ f ∈ s.dev.active, good s.dev f) → ∃ t, exec i s = .next t ∧ OnlyFibres s t ∧ OthersKept s.dev t.dev ∧
    ∀ f ∈ s.dev.active, ∃ g, t.dev.fibre? f.core f.slot f.lane = some g ∧ Linked f g link ∧ Reaches f g (dest s.dev f) ∧
      g.age = s.dev.cycle ∧ KeepsRest f g

/-- An address that an indirect transfer accepts (R135): a multiple of 4 whose bits 63 to 48 copy bit 47. -/
def GoodTarget (a : W64) : Prop := a.toNat % 4 = 0 ∧ (a.setWidth 48).signExtend 64 = a

/-- PC plus a signed count of words (R60). -/
def Ahead (pc : Addr48) {n : Nat} (off : BitVec n) : Addr48 := pc + BitVec.ofInt 48 (4 * off.toInt)

/-- The condition of BR and KBR on a register read as signed (R63). -/
def ZCond (cc : Nat) (a : W64) : Bool :=
  match cc with
  | 0 => a.toInt = 0 | 1 => a.toInt ≠ 0 | 2 => a.toInt < 0 | 3 => a.toInt ≤ 0 | 4 => 0 < a.toInt | 5 => 0 ≤ a.toInt | _ => false

/-- A fibre whose lowest inactive loop level has taken a count, a start and an end (R31, R143). -/
def TookLevel (f : Fibre) (l : LoopLevel) : Fibre :=
  if f.lp0.count = 0 then { f with lp0 := l } else if f.lp1.count = 0 then { f with lp1 := l } else { f with lp2 := l }

/-- LOOP with the count `c` of a fibre: a count of 0 continues after the body and takes no level; otherwise a level is taken and the
fibre goes on (R143). -/
def LoopStarted (d : Dev) (off : BitVec 12) (c : BitVec 32) (f g : Fibre) : Prop :=
  let last : Addr48 := f.pc + BitVec.ofNat 48 (4 * off.toNat)
  (if c = 0 then Reaches f g (some (last + 4)) else WentOn (TookLevel f ⟨c, f.pc + 4, last⟩) g) ∧
  g.win = f.win ∧ g.pred = f.pred ∧ g.infl = f.infl ∧ g.outst = f.outst ∧ g.age = d.cycle ∧ KeepsRest f g

/-- LOOP completes where every fibre has a count of 0 or an inactive level. -/
def LoopFlow (i : Instr) (off : BitVec 12) (cnt : Dev → Fibre → BitVec 32) : Prop :=
  ∀ s : State, Ready s i →
    (∀ f ∈ s.dev.active, cnt s.dev f = 0 ∨ f.lp0.count = 0 ∨ f.lp1.count = 0 ∨ f.lp2.count = 0) →
    ∃ t, exec i s = .next t ∧ OnlyFibres s t ∧ OthersKept s.dev t.dev ∧
      ∀ f ∈ s.dev.active, ∃ g, t.dev.fibre? f.core f.slot f.lane = some g ∧ LoopStarted s.dev off (cnt s.dev f) f g

/-- The fibre a FORK creates for `f` (R137). -/
def Child (d : Dev) (o : ForkOp) (f c : Fibre) : Prop :=
  c.core = f.core ∧ c.lane = f.lane ∧ c.helper = f.helper ∧ c.pc = Ahead f.pc o.off ∧ c.win.length = f.win.length ∧
  (∀ n < f.win.length, c.vreg n = if o.va.toNat ≤ n ∧ n ≤ o.va.toNat + o.cnt.toNat then d.readV f n else 0) ∧
  c.pred = f.pred ∧ c.fpctl = f.fpctl ∧ c.lp0 = f.lp0 ∧ c.lp1 = f.lp1 ∧ c.lp2 = f.lp2 ∧ c.rec_ = f.rec_ ∧ c.repc = f.repc ∧
  c.trapcause = 0 ∧ c.trappc = 0 ∧ c.trapaddr = 0 ∧ c.ilenc = 0 ∧ c.ilf0 = 0 ∧ c.ilf1 = 0 ∧ c.ilf2 = 0 ∧ c.ilf3 = 0 ∧ c.mdone = 0 ∧
  c.age = d.cycle ∧ c.ready = d.cycle + 1 ∧ c.wait = .none

/-- Each member of the batch is one fibre, which waits for nothing. -/
def ProperBatch (d : Dev) : Prop :=
  d.cur.members.Nodup ∧ ∀ m ∈ d.cur.members, ∃ f, d.fibre? d.cur.core m.1 m.2 = some f ∧ f.wait = .none

/-- Nothing but fibres, the arrivals of events and the counter of free values changes. -/
def OnlyFibresAndArrivals (s t : State) : Prop :=
  t.agenda = s.agenda ∧ t.pwr = s.pwr ∧ t.fw = s.fw ∧
  { t.dev with fibres := s.dev.fibres, arrivals := s.dev.arrivals, free := s.dev.free } = s.dev

end Sys2Proof.Stmt

/-- R132 to R135, R140: the lane transfers, and NOP. -/
def Obligations.LaneTransfers : Prop :=
  (∀ o : BrOp, Flow (.br o) none (fun _ _ => True) fun d f =>
    if ZCond o.cc.toNat (d.readV f (laneNo o.hv o.va)) then some (Ahead f.pc o.off) else none) ∧
  (∀ o : JmpOp, Flow (.jmp o) none (fun _ _ => True) fun _ f => some (Ahead f.pc o.off)) ∧
  (∀ o : CallOp, Flow (.call o) (some o.vd.toNat) (fun _ _ => True) fun _ f => some (Ahead f.pc o.off)) ∧
  (∀ o : IndOp, let a (d : Dev) (f : Fibre) : W64 := d.readV f (laneNo o.hv o.va)
    Flow (.ji o) none (fun d f => GoodTarget (a d f)) (fun d f => some ((a d f).setWidth 48)) ∧
    Flow (.ret o) none (fun d f => GoodTarget (a d f)) (fun d f => some ((a d f).setWidth 48))) ∧
  (∀ o : IndLOp, let a (d : Dev) (f : Fibre) : W64 := d.readV f (laneNo o.hv o.va)
    Flow (.calli o) (some (laneNo o.hv o.vd)) (fun d f => GoodTarget (a d f)) fun d f => some ((a d f).setWidth 48)) ∧
  ∀ o : NulOp, Flow (.nop o) none (fun _ _ => True) fun _ _ => none

/-- R143, R31: hardware loops with an immediate and a uniform count. -/
def Sys2Proof.Stmt.HardwareLoopsRules : Prop :=
  (∀ o : LoopIOp, LoopFlow (.loopImm o) o.off fun _ _ => o.cnt.setWidth 32) ∧
  ∀ o : LoopUOp, LoopFlow (.loopUniform o) o.off fun d f => (d.readKAs (f.slot * 32 + f.lane) o.kc.toNat).setWidth 32

/-- R140, R146: YIELD goes on and is not ready for the four issue slots after its own; SETPERF.L goes on and leaves a request of the largest value among
the members that are no helper fibres, at most level 7; a batch of helpers alone makes none. -/
def Sys2Proof.Stmt.YieldAndSetperfLRules : Prop :=
  (∀ o : NulOp, ∀ s : State, Ready s (.yield o) → ∃ t, exec (.yield o) s = .next t ∧ OnlyFibres s t ∧ OthersKept s.dev t.dev ∧
    ∀ f ∈ s.dev.active, ∃ g, t.dev.fibre? f.core f.slot f.lane = some g ∧ Linked f g none ∧ WentOn f g ∧
      g.wait = .yielding (s.dev.cycle + 5 * s.dev.pass s.dev.cur.core) ∧ KeepsRest f { g with wait := f.wait }) ∧
  ∀ o : IndOp, ∀ s : State, Ready s (.setperfL o) → ∃ t, exec (.setperfL o) s = .next t ∧
    (let h := s.dev.hub
     ∃ v, (∀ f ∈ s.dev.active, f.helper = false → (s.dev.readV f (laneNo o.hv o.va)).toNat ≤ v) ∧
       ((∃ f ∈ s.dev.active, f.helper = false) → ∃ f ∈ s.dev.active, f.helper = false ∧ (s.dev.readV f (laneNo o.hv o.va)).toNat = v) ∧
       t.dev.hub = if ∃ f ∈ s.dev.active, f.helper = false then
         { h with ctxs := h.ctxs.map fun c => if c.no = s.dev.grp.ctx then { c with perfReq := min v 7 } else c } else h) ∧
    OnlyFibres s { t with dev := { t.dev with hub := s.dev.hub } } ∧ OthersKept s.dev t.dev ∧
    ∀ f ∈ s.dev.active, ∃ g, t.dev.fibre? f.core f.slot f.lane = some g ∧ Linked f g none ∧ WentOn f g ∧ KeepsRest f g

/-- R143, R31: hardware loops with an immediate and a uniform count.

R140, R146: YIELD goes on and is not ready for the four issue slots after its own; SETPERF.L goes on and leaves a request of the largest value among
the members that are no helper fibres, at most level 7; a batch of helpers alone makes none. -/
def Obligations.LoopsYieldAndSetperfL : Prop := Stmt.HardwareLoopsRules ∧ Stmt.YieldAndSetperfLRules

/-- R137, R138: FORK. A member that finds a position and a window goes on, and its new fibre stands in that warp slot at its home lane,
with its window there, at the target and with the registers the rule names; a member that finds none waits, a cohort by itself. No other
fibre comes or changes. -/
def Sys2Proof.Stmt.ForkRules : Prop :=
  ∀ o : ForkOp, ∀ s : State, Ready s (.fork o) → ProperBatch s.dev → (s.dev.cur.members.map Prod.snd).Nodup →
    let d := s.dev
    ∃ t, exec (.fork o) s = .next t ∧ t.agenda = s.agenda ∧ t.pwr = s.pwr ∧ t.fw = s.fw ∧
      { t.dev with fibres := d.fibres, free := d.free, pipe := d.pipe, cur := d.cur, ms := d.ms } = d ∧
      -- nothing of memory changes but that stores held back to the new windows are forgotten (R8)
      t.dev.ms = (d.active.filterMap fun f => (d.forkPlace f).map fun p => (f, p.2)).foldl
        (fun ms x => ms.forget fun a => isWindow x.1.core x.1.lane x.2 x.1.win.length a) d.ms ∧
      (∀ f ∈ d.active, ∃ g, t.dev.fibre? f.core f.slot f.lane = some g ∧ Linked f g none ∧
        match d.forkPlace f with
        | none => g.wait = .fork ∧ g.cohort = 0 ∧
            { g with wait := f.wait, cohort := f.cohort, pace := { g.pace with passed := f.pace.passed } } = f
        | some p => g.wait = .none ∧ WentOn f g ∧ KeepsRest f g ∧ d.fibre? f.core p.1 f.lane = none ∧
            ∃ c, t.dev.fibre? f.core p.1 f.lane = some c ∧ Child d o f c ∧ c.winbase = p.2) ∧
      -- the others are as they were; a batch in which nobody finds room has passed over none of them (R22)
      ∀ c n l, ¬(c = d.cur.core ∧ (n, l) ∈ d.cur.members) →
        ¬(∃ f ∈ d.active, f.core = c ∧ f.lane = l ∧ ∃ p, d.forkPlace f = some p ∧ p.1 = n) →
        match d.fibre? c n l with
        | none => t.dev.fibre? c n l = none
        | some x => ∃ y, t.dev.fibre? c n l = some y ∧
            ((∃ f ∈ d.active, (d.forkPlace f).isSome) → y = x) ∧ { y with pace := { y.pace with passed := x.pace.passed } } = x

/-- R138: the place that FORK gives: the lowest warp slot of the group with an empty position at the home lane, and the lowest WINBASE at
which WINSIZE registers of the bank are free. -/
def Sys2Proof.Stmt.ForkPlaceRules : Prop :=
  ∀ (d : Dev) (f : Fibre) (w : Warp) (g : Group), d.warp? f.core f.slot = some w → d.group? w.gid = some g →
    let empty (n : Nat) : Prop := (d.warp? f.core n).isSome ∧ d.fibre? f.core n f.lane = none
    let free (b : Nat) : Prop := b % 8 = 0 ∧ b + f.win.length ≤ 2048 ∧ b < 2048 ∧
      ∀ u ∈ d.bankUsed f.core f.lane ++ d.bankKept g.cls, overlaps b f.win.length u.1 u.2 = false
    match d.forkPlace f with
    | some p => p.1 ∈ g.slots ∧ empty p.1 ∧ (∀ n ∈ g.slots, n < p.1 → ¬empty n) ∧ free p.2 ∧ ∀ b < p.2, ¬free b
    | none => (∀ n ∈ g.slots, ¬empty n) ∨ ∀ b, ¬free b

/-- R141: REJOIN makes each fibre wait with bits 31:0 of its operand and its own bit. -/
def Sys2Proof.Stmt.RejoinRules : Prop :=
  ∀ o : RejOp, ∀ s : State, Ready s (.rejoin o) → ∃ t, exec (.rejoin o) s = .next t ∧ OnlyFibresAndArrivals s t ∧
    OthersKept s.dev t.dev ∧ s.dev.arrivals <+: t.dev.arrivals ∧
    ∀ f ∈ s.dev.active, ∃ g, t.dev.fibre? f.core f.slot f.lane = some g ∧
      g.wait = .rejoin ((s.dev.readB f o.kb o.hv o.vb).setWidth 32 ||| BitVec.ofNat 32 (2 ^ f.lane)) ∧
      { g with wait := f.wait, ready := f.ready, pace := f.pace } = f

/-- No fibre of the batch takes a live recursion or the upcall of a walk with it: END then touches no engine. -/
def Sys2Proof.Stmt.ServesNoEngine (d : Dev) : Prop :=
  (∀ c ∈ d.cores, ∀ r, c.rec_ = some r → r.saved = false → c.no = d.cur.core → ∀ m ∈ d.cur.members, m.1 = r.slot → r.lanes ≤ m.2) ∧
  ∀ w ∈ d.warps, w.core = d.cur.core → (∃ l, (w.slot, l) ∈ d.cur.members) → w.occ = none

/-- R12, R139: END retires the fibres of the batch, once no earlier access of them can still fault, and no other fibre comes or goes.
Where each of their groups has another unretired fibre, the rest of the machine is as it was, but for grants that lapse with their
windows and what KIND 7 tokens fire; a group that has lost its last fibre is gone with its warps (R358), its stores released. -/
def Sys2Proof.Stmt.EndRules : Prop :=
  ∀ o : NulOp, ∀ s : State, Ready s (.endFibre o) → (∀ f ∈ s.dev.active, f.late = none) → ServesNoEngine s.dev →
    let d := s.dev
    let rest := d.fibres.filter fun f => !d.cur.has f
    let goesOn (gid : Nat) : Prop := (∃ f ∈ rest, d.gidOf f = gid) ∨ ∃ v, d.evicted? gid = some v ∧ v.fibres ≠ []
    ∃ t, exec (.endFibre o) s = .next t ∧ t.agenda = s.agenda ∧ t.pwr = s.pwr ∧ t.fw = s.fw ∧ d.arrivals <+: t.dev.arrivals ∧
      (∀ f ∈ d.active, t.dev.fibre? f.core f.slot f.lane = none) ∧
      ((∀ f ∈ d.fibres, d.cur.has f = true → d.gidOf f = 0 ∨ goesOn (d.gidOf f)) → t.dev.fibres = rest ∧
        { t.dev with fibres := d.fibres, groups := d.groups, heldWins := d.heldWins, arrivals := d.arrivals } = d ∧
        ∀ n g, d.group? n = some g → ∃ h, t.dev.group? n = some h ∧ { h with grants := g.grants } = g) ∧
      ∀ gid g, d.group? gid = some g → gid ≠ 0 → (∀ f ∈ d.fibres, d.cur.has f = true → d.gidOf f = gid) →
        (∃ f ∈ d.fibres, d.cur.has f = true) → ¬goesOn gid →
        (∀ c ∈ d.cores, ∀ w, (d.core c.no).walk = some w → w.prod ≠ gid ∧ w.cons ≠ gid) →
        (∀ x ∈ d.walks, x.eng.prod ≠ gid ∧ x.eng.cons ≠ gid) →
        t.dev.group? gid = none ∧ (∀ w ∈ t.dev.warps, w.gid ≠ gid ∧ w ∈ d.warps)

/-- R137, R138: FORK. A member that finds a position and a window goes on, and its new fibre stands in that warp slot at its home lane,
with its window there, at the target and with the registers the rule names; a member that finds none waits, a cohort by itself. No other
fibre comes or changes. The place is the lowest warp slot and the lowest window that are free.

R141: REJOIN makes each fibre wait with bits 31:0 of its operand and its own bit. R12, R139: END retires exactly the fibres of the batch,
once no earlier access of them can still fault; while their groups have other fibres, nothing else changes but lapsing grants. -/
def Obligations.ForkRejoinAndEnd : Prop := Stmt.ForkRules ∧ Stmt.ForkPlaceRules ∧ Stmt.RejoinRules ∧ Stmt.EndRules

namespace Sys2Proof.Stmt

open Machine

/-! ## Uniform instructions (07: R183 to R186) -/

/-- The batch's group and its anchor warp are resident and have a uniform register. -/
def HoldsK (d : Dev) (n : Nat) : Prop :=
  ∃ g w, d.group? d.cur.gid = some g ∧ d.warp? d.cur.core d.cur.anchor = some w ∧
    if n < 55 then n < g.ks.length else n - 55 < w.kd.length

/-- Nothing changes but fibres, the uniform registers of the batch's group and anchor warp with what is in flight to them, and the counter
of free values. -/
def OnlyUniform (s t : State) : Prop :=
  t.agenda = s.agenda ∧ t.pwr = s.pwr ∧ t.fw = s.fw ∧
  { t.dev with fibres := s.dev.fibres, groups := s.dev.groups, warps := s.dev.warps, free := s.dev.free } = s.dev ∧
  (∀ n g, s.dev.group? n = some g → ∃ h, t.dev.group? n = some h ∧
    if n = s.dev.cur.gid then { h with ks := g.ks, infl := g.infl, outst := g.outst } = g else h = g) ∧
  ∀ c n w, s.dev.warp? c n = some w → ∃ x, t.dev.warp? c n = some x ∧
    if c = s.dev.cur.core ∧ n = s.dev.cur.anchor then { x with kd := w.kd } = w else x = w

/-- Every fibre of the batch goes on (or, with a target, there), and its registers are as before. -/
def AllGo (s t : State) (dest : Fibre → Option Addr48) : Prop :=
  OthersKept s.dev t.dev ∧ ∀ f ∈ s.dev.active, ∃ g, t.dev.fibre? f.core f.slot f.lane = some g ∧ Linked f g none ∧
    Reaches f g (dest f) ∧ KeepsRest f g

/-- A uniform instruction completes: uniform register `kd` then has a value of which `val` holds, the others are as before, the fibres go
on, and nothing else changes. -/
def UniResult (i : Instr) (kd : Nat) (val : Dev → W64 → Prop) : Prop :=
  ∀ s : State, Ready s i → HoldsK s.dev kd → ∃ t, exec i s = .next t ∧ OnlyUniform s t ∧
    val s.dev (t.dev.kreg kd) ∧ (∀ n, n ≠ kd → n < 64 → t.dev.kreg n = s.dev.kreg n) ∧ AllGo s t fun _ => none

/-- The conditions of KCMP (R63). -/
def KCond (cc : Nat) (a b : W64) : Bool :=
  match cc with
  | 0 => a = b | 1 => a ≠ b | 2 => a.toInt < b.toInt | 3 => a.toInt ≤ b.toInt | 4 => b.toInt < a.toInt | 5 => b.toInt ≤ a.toInt
  | 6 => a.toNat < b.toNat | 7 => a.toNat ≤ b.toNat | 8 => b.toNat < a.toNat | 9 => b.toNat ≤ a.toNat | _ => false

/-- A uniform transfer completes where its target is good. -/
def UniFlow (i : Instr) (good : Dev → Prop) (dest : Dev → Fibre → Option Addr48) : Prop :=
  ∀ s : State, Ready s i → good s.dev → ∃ t, exec i s = .next t ∧ OnlyFibres s t ∧ AllGo s t (dest s.dev)

end Sys2Proof.Stmt

/-- R183, R184, R60: uniform arithmetic, moves and comparisons, each on the values of its registers or of V times 16 to the SH. -/
def Sys2Proof.Stmt.UniformArithmeticRules : Prop :=
  let imm (i : KImmOp → Instr) (f : W64 → W64 → W64) : Prop := ∀ o : KImmOp, UniResult (i o) o.kd.toNat fun d v =>
    v = f (d.readK o.ka.toNat) (BitVec.ofNat 64 (o.imm.toNat % 256 * 16 ^ (o.imm.toNat / 256)))
  let reg (i : K3Op → Instr) (f : W64 → W64 → W64) : Prop := ∀ o : K3Op, UniResult (i o) o.kd.toNat fun d v =>
    v = f (d.readK o.ka.toNat) (d.readK o.kb.toNat)
  imm .kaddImm (fun a b => a + b) ∧ imm .ksubImm (fun a b => a - b) ∧ imm .kmulImm (fun a b => a * b) ∧
  imm .kandImm (fun a b => a &&& b) ∧ imm .korImm (fun a b => a ||| b) ∧ imm .kxorImm (fun a b => a ^^^ b) ∧
  imm .kshlImm (fun a b => a <<< (b.toNat % 64)) ∧ imm .kshrImm (fun a b => a >>> (b.toNat % 64)) ∧
  reg .kaddReg (fun a b => a + b) ∧ reg .ksubReg (fun a b => a - b) ∧ reg .kmulReg (fun a b => a * b) ∧
  reg .kandReg (fun a b => a &&& b) ∧ reg .korReg (fun a b => a ||| b) ∧ reg .kxorReg (fun a b => a ^^^ b) ∧
  reg .kshlReg (fun a b => a <<< (b.toNat % 64)) ∧ reg .kshrReg (fun a b => a >>> (b.toNat % 64)) ∧
  (∀ o : KCcOp, UniResult (.kcmp o) o.kd.toNat fun d v => v = if KCond o.cc.toNat (d.readK o.ka.toNat) (d.readK o.kb.toNat) then 1 else 0) ∧
  (∀ o : K2Op, UniResult (.kmov o) o.kd.toNat fun d v => v = d.readK o.ka.toNat) ∧
  (∀ o : K3Op, UniResult (.ksel o) o.kd.toNat fun d v =>
    (d.readK o.kb.toNat ≠ 0 → v = d.readK o.ka.toNat) ∧
    (d.readK o.kb.toNat = 0 → v = d.readK o.kd.toNat)) ∧
  ∀ o : KHalfOp, let half (h : Nat) (d : Dev) (v : W64) : Prop := (∀ e ∈ d.grp.outst, e.reg ≠ .k o.kd.toNat) →
      ∀ i < 64, v.getLsbD i = if 16 * h ≤ i ∧ i < 16 * h + 16 then o.imm.getLsbD (i - 16 * h) else (d.kreg o.kd.toNat).getLsbD i
    UniResult (.movkH0 o) o.kd.toNat (half 0) ∧ UniResult (.movkH1 o) o.kd.toNat (half 1) ∧
    UniResult (.movkH2 o) o.kd.toNat (half 2) ∧ UniResult (.movkH3 o) o.kd.toNat (half 3)

/-- R186: the uniform branch, jump, call and return; KCALL leaves PC + 4 outstanding for its link register. -/
def Sys2Proof.Stmt.UniformTransfersRules : Prop :=
  (∀ o : KBrOp, UniFlow (.kbr o) (fun _ => True) fun d f =>
    if ZCond o.cc.toNat (d.readK o.ka.toNat) then some (Ahead f.pc o.off) else none) ∧
  (∀ o : JmpOp, UniFlow (.kjmp o) (fun _ => True) fun _ f => some (Ahead f.pc o.off)) ∧
  (∀ o : K1Op, UniFlow (.kret o) (fun d => GoodTarget (d.readK o.ka.toNat)) fun d _ => some ((d.readK o.ka.toNat).setWidth 48)) ∧
  ∀ o : CallOp, ∀ s : State, Ready s (.kcall o) → HoldsK s.dev o.vd.toNat → ∃ t, exec (.kcall o) s = .next t ∧ OnlyUniform s t ∧
    (∀ n, n ≠ o.vd.toNat → n < 64 → t.dev.kreg n = s.dev.kreg n) ∧
    ⟨.k o.vd.toNat, s.dev.cur.anchor, (s.dev.cur.pc + 4).signExtend 64, BitVec.allOnes 64⟩ ∈ t.dev.grp.outst ∧
    AllGo s t fun f => some (Ahead f.pc o.off)

/-- R183, R184, R60: uniform arithmetic, moves and comparisons, each on the values of its registers or of V times 16 to the SH.

R186: the uniform branch, jump, call and return; KCALL leaves PC + 4 outstanding for its link register. -/
def Obligations.UniformInstructions : Prop := Stmt.UniformArithmeticRules ∧ Stmt.UniformTransfersRules

namespace Sys2Proof.Stmt

open Machine

/-! ## Traps (10: R242 to R248) -/

/-- Whether a trap goes to the user handler: the cause may enter it (R243), UHV is nonzero, and the warp is not masked (R246). -/
def ToHandler (d : Dev) (f : Fibre) (cause : Nat) : Prop :=
  cause ≠ 5 ∧ cause ≠ 11 ∧ cause ≠ 15 ∧ cause ≠ 18 ∧ (d.trapCtx f).1 ≠ 0 ∧ (d.trapCtx f).2 = false

/-- Nothing of a fibre changes but its trap registers, its PC, what it waits for, and how it stands. -/
def KeepsButTrap (f g : Fibre) : Prop :=
  { g with pc := f.pc, trapcause := f.trapcause, trappc := f.trappc, trapaddr := f.trapaddr, ilenc := f.ilenc, ilf0 := f.ilf0,
           ilf1 := f.ilf1, ilf2 := f.ilf2, ilf3 := f.ilf3, mdone := f.mdone, wait := f.wait, late := f.late, trapped := f.trapped,
           units := f.units, age := f.age, ready := f.ready, cohort := f.cohort } = f

/-- A fibre has entered its user handler with a trap at `pc`, or stands there on the fault path (R246). -/
def Entered (d : Dev) (f g : Fibre) (cause : Nat) (pc : Addr48) : Prop :=
  (ToHandler d f cause → g.pc = (d.trapCtx f).1.setWidth 48 ∧ g.trapped = f.trapped) ∧
  (¬ToHandler d f cause → g.pc = pc ∧ g.trapped = true)

/-- A fibre has taken a precise trap at its PC (R242, R246): cause, code and access kind, and an address. Where a page fault of an earlier
access of it was not known yet, that one is reported instead, with its own PC, and what later instructions had under way is discarded
(R244). -/
def TookTrap (d : Dev) (f g : Fibre) (cause code acc : Nat) (addr : W64) : Prop :=
  g.wait = .none ∧ g.late = none ∧
  match f.late with
  | none =>
    g.trapcause = BitVec.ofNat 64 (cause + acc * 2 ^ 10 + (if (d.trapCtx f).2 then 2 ^ 17 else 0) + code * 2 ^ 32) ∧
    g.trappc = f.pc.signExtend 64 ∧ g.trapaddr = addr ∧ KeepsButTrap f g ∧ Entered d f g cause f.pc
  | some (pc, t) =>
    g.trapcause = causeWord t (d.trapCtx f).2 ∧ g.trappc = pc.signExtend 64 ∧ g.trapaddr = t.addr ∧ g.infl = [] ∧ g.outst = [] ∧
    KeepsButTrap f { g with infl := f.infl, outst := f.outst } ∧ Entered d f g t.cause pc

/-- The trap registers that only ILLEGAL and PAGEFAULT write keep their values. -/
def KeepsIll (f g : Fibre) : Prop :=
  g.ilenc = f.ilenc ∧ g.ilf0 = f.ilf0 ∧ g.ilf1 = f.ilf1 ∧ g.ilf2 = f.ilf2 ∧ g.ilf3 = f.ilf3 ∧ g.mdone = f.mdone

/-- Saved groups are as they were, but for the cohorts of fibres that had `p` for a companion (R274). -/
def SavedDivided (d e : Dev) (p : Fibre → Prop) : Prop :=
  e.saved.length = d.saved.length ∧ ∀ (i : Nat) (x : Saved), d.saved[i]? = some x → ∃ y, e.saved[i]? = some y ∧
    { y with fibres := x.fibres } = x ∧ y.fibres.length = x.fibres.length ∧ ∀ (j : Nat) (f : Fibre), x.fibres[j]? = some f →
      ∃ k, y.fibres[j]? = some { f with cohort := k } ∧ ((∀ z, p z → z.cohort ≠ f.cohort) → k = f.cohort)

/-- Nothing changes but fibres, whether groups are on the fault path, and the counter of free values. -/
def OnlyTraps (s t : State) : Prop :=
  t.agenda = s.agenda ∧ t.pwr = s.pwr ∧ t.fw = s.fw ∧
  { t.dev with fibres := s.dev.fibres, groups := s.dev.groups, free := s.dev.free } = s.dev ∧
  ∀ n g, s.dev.group? n = some g → ∃ h, t.dev.group? n = some h ∧
    (h = g ∨ (g.stat = .running ∧ h = { g with stat := .faulting } ∧
      ∃ f ∈ s.dev.fibres, s.dev.gidOf f = n ∧ s.dev.cur.has f = true))

/-- The instruction completes by trapping in every fibre of its batch: that is its effect. -/
def Traps (i : Instr) (pre : Dev → Prop) (cause code : Nat) (addr : Dev → Fibre → W64) (more : Fibre → Fibre → Prop) : Prop :=
  ∀ s : State, Ready s i → pre s.dev → ∃ t, exec i s = .next t ∧ OnlyTraps s t ∧ OthersKept s.dev t.dev ∧
    ∀ f ∈ s.dev.active, ∃ g, t.dev.fibre? f.core f.slot f.lane = some g ∧ TookTrap s.dev f g cause code 0 (addr s.dev f) ∧ (f.late = none → more f g)

/-- Warps outside the batch are unchanged; those with a fibre in it change as said. -/
def BatchWarps (s t : State) (upd : Warp → Warp) : Prop :=
  ∀ c n w, s.dev.warp? c n = some w → ∃ x, t.dev.warp? c n = some x ∧
    ((c = s.dev.cur.core ∧ ∃ l, (n, l) ∈ s.dev.cur.members) → x = upd w) ∧
    (¬(c = s.dev.cur.core ∧ ∃ l, (n, l) ∈ s.dev.cur.members) → x = w)

/-- Nothing changes but fibres, warps and the counter of free values. -/
def OnlyWarps (s t : State) : Prop :=
  t.agenda = s.agenda ∧ t.pwr = s.pwr ∧ t.fw = s.fw ∧
  { t.dev with fibres := s.dev.fibres, warps := s.dev.warps, free := s.dev.free } = s.dev

/-- The mask budget of a context: TMB, or 50,000 for 0 (R258). -/
def Budget (d : Dev) : Nat :=
  match d.hub.ctx? d.grp.ctx with
  | some c => if c.tmb = 0 then 50000 else c.tmb
  | none => 50000

/-- An operand descriptor (R75): KIND and VALUE. -/
def Desc (kind value : Nat) : W64 := BitVec.ofNat 64 (kind * 2 ^ 60 + value)
/-- A signed immediate, extended to 60 bits (R75). -/
def DescI (x : Int) : W64 := (4#4 : BitVec 4) ++ BitVec.ofInt 60 x
/-- A field of a word. -/
def Field (w : BitVec 32) (lo n : Nat) : BitVec n := w.extractLsb' lo n

/-- The operands a word of a format shows in ILF1, ILF2 and ILF3 (R58, R59, R75), for the layouts whose destination, A operand and B operand
or immediate those rules fix. -/
def ShowsOperands (fmt : Fmt) (op : Nat) (w : BitVec 32) (x y z : W64) : Prop :=
  let reg (n : Nat) : Nat := (Field w n 6).toNat
  let lane (hv n : Nat) : W64 := Desc 1 (64 * (Field w hv 1).toNat + reg n)
  let b : W64 := if Field w 0 1 = 1 then Desc 2 (reg 4) else lane 3 4
  match fmt with
  | .l3 =>
    -- an opcode with a sub-code has no B operand; BR's kin and the moves have layouts of their own
    if op ∈ [0x20, 0x31, 0x32, 0x51, 0x52, 0x53] then x = lane 3 16 ∧ y = lane 3 10 ∧ z = 0
    else op ∉ [0x1E, 0x1F, 0x56, 0x58, 0x59, 0x5B, 0x5E] → x = lane 3 16 ∧ y = lane 3 10 ∧ z = b
  | .cm => x = Desc 3 (Field w 16 3).toNat ∧ y = lane 3 10 ∧ z = b
  | .li => x = Desc 1 (reg 16) ∧ y = 0 ∧ z = DescI (Field w 2 14).toInt
  | .lv => x = Desc 1 (reg 16) ∧ y = Desc 1 (reg 10) ∧ z = 0
  | .lm => op ≠ 0x6A → op ≠ 0x6B → op ≠ 0x73 →
      x = lane 0 16 ∧ y = lane 0 10 ∧ z = DescI ((Field w 3 4).toInt * 2 ^ (Field w 1 2).toNat)
  | .la => x = lane 0 16 ∧ y = lane 0 10 ∧ z = 0
  | .lb => x = 0 ∧ y = lane 15 16 ∧ z = DescI (4 * (Field w 0 12).toInt)
  | .lj => x = 0 ∧ y = 0 ∧ z = DescI (4 * (Field w 0 22).toInt)
  | .lc => x = Desc 1 (reg 16) ∧ y = 0 ∧ z = DescI (4 * (Field w 0 16).toInt)
  | .gi => op ≠ 0x5A →
      x = Desc 2 (reg 16) ∧ y = Desc 2 (reg 10) ∧
      z = if 0x20 ≤ op ∧ op ≤ 0x23 then DescI (8 * (Field w 0 10).toInt) else Desc 5 ((Field w 0 8).toNat * 16 ^ (Field w 8 2).toNat)
  | .gb => x = 0 ∧ y = Desc 2 (reg 16) ∧ z = DescI (4 * (Field w 0 12).toInt)
  | .gj => x = 0 ∧ y = 0 ∧ z = DescI (4 * (Field w 0 22).toInt)
  | _ => True

/-- MK, TYC and SUBC of ILF0 for a word of a format (R74), where that rule names the field. -/
def ShowsFields (fmt : Fmt) (op : Nat) (w : BitVec 32) (mk tyc subc : Nat) : Prop :=
  mk = (if fmt = .lm then (Field w 7 3).toNat else 0) ∧
  match fmt with
  | .l3 => tyc = (Field w 1 2).toNat ∧ subc = if op ∈ [0x20, 0x31, 0x32, 0x51, 0x52, 0x53] then (Field w 4 6).toNat else 0
  | .cm => tyc = (Field w 1 2).toNat ∧ subc = (Field w 19 3).toNat
  | .l2i | .li => tyc = (Field w 0 2).toNat
  | .lv => tyc = 16 * (Field w 6 4).toNat + (Field w 2 4).toNat
  | .lm => tyc = (Field w 1 2).toNat
  | .la => subc = (Field w 6 4).toNat
  | .lb => subc = (Field w 12 3).toNat
  | .gb => subc = (Field w 12 4).toNat
  | _ => True

/-- What a fibre that traps ILLEGAL shows of a word refused for a reason (R73 to R75). -/
def ShowsWord (w : BitVec 32) (r : Reject) (g : Fibre) : Prop :=
  let f0 (lo n : Nat) : Nat := (g.ilf0.extractLsb' lo n).toNat
  g.ilenc = w.setWidth 64 ∧ f0 0 4 = r.reason ∧ f0 4 4 = 0 ∧ f0 16 8 = r.fwid ∧ f0 24 8 = r.fpos ∧ f0 32 8 = 0 ∧
  match opRow (opKey w.toNat) with
  | none => r = ⟨1, 22, 7⟩ ∧ f0 8 8 = 0 ∧ f0 40 24 = 0 ∧ g.ilf1 = 0 ∧ g.ilf2 = 0 ∧ g.ilf3 = 0
  | some row => r.reason ≠ 1 ∧ f0 8 8 = row.fmt.code ∧ ShowsFields row.fmt (Field w 22 7).toNat w (f0 56 8) (f0 48 8) (f0 40 8) ∧
      ShowsOperands row.fmt (Field w 22 7).toNat w g.ilf1 g.ilf2 g.ilf3

/-- The value a special register holds after a write of `v`: an address register keeps bits 47 to 0 (R261). -/
def Stored (n : Nat) (v : W64) : W64 := if 0x24 ≤ n ∧ n ≤ 0x2A ∨ n = 0x39 ∨ n = 0x40 then (v.setWidth 48).signExtend 64 else v

end Sys2Proof.Stmt

/-- R256, R259, R246, R242: TRAP, BKPT and HALT trap in every fibre of the batch, to the user handler or to the fault path. -/
def Sys2Proof.Stmt.TrapInstructionsRules : Prop :=
  (∀ o : KTrapOp, Traps (.trap o) (fun _ => True) 16 o.imm.toNat (fun _ _ => 0) KeepsIll) ∧
  (∀ o : NulOp, Traps (.bkpt o) (fun _ => True) 17 0 (fun _ _ => 0) KeepsIll) ∧
  ∀ o : NulOp, Traps (.halt o) (fun _ => True) 18 0 (fun _ _ => 0) KeepsIll

/-- R73 to R75, R246: a word that is no instruction traps ILLEGAL in every fibre of the batch and has no other effect; ILENC holds it, and
ILF0 to ILF3 its format, its failing field with the reason, and its decoded fields. A reason of 3 names a field that is not zero. -/
def Sys2Proof.Stmt.IllegalWordRules : Prop :=
  ∀ w : BitVec 32, ∀ r, decode w = .error r →
    (r.reason = 1 ↔ opRow (opKey w.toNat) = none) ∧ (r.reason = 3 → w.toNat / 2 ^ r.fpos % 2 ^ r.fwid ≠ 0) ∧
    ∀ s : State, s.dev.cur.word = w → ∃ t, exec (.illegalWord w) s = .next t ∧ OnlyTraps s t ∧ OthersKept s.dev t.dev ∧
      ∀ f ∈ s.dev.active, ∃ g, t.dev.fibre? f.core f.slot f.lane = some g ∧ TookTrap s.dev f g 1 0 0 0 ∧
        (f.late = none → ShowsWord w r g ∧ g.mdone = f.mdone)

/-- R256, R259, R246, R242: TRAP, BKPT and HALT trap in every fibre of the batch, to the user handler or to the fault path.

R73 to R75, R246: a word that is no instruction traps ILLEGAL in every fibre of the batch and has no other effect; ILENC holds it, and
ILF0 to ILF3 its format, its failing field with the reason, and its decoded fields. -/
def Obligations.TrapAndIllegalInstructions : Prop := Stmt.TrapInstructionsRules ∧ Stmt.IllegalWordRules

/-- R257, R258: TRET ends the masks of the batch's warps and continues each fibre at its TRAPPC; TMASK masks them with the context's budget
where they are not masked; TUNMASK ends their masks. -/
def Obligations.TrapReturnAndMasking : Prop :=
  (∀ o : NulOp, ∀ s : State, Ready s (.tret o) → (∀ f ∈ s.dev.active, GoodTarget f.trappc) →
    ∃ t, exec (.tret o) s = .next t ∧ OnlyWarps s t ∧ BatchWarps s t (fun w => { w with masked := false }) ∧
      AllGo s t fun f => some (f.trappc.setWidth 48)) ∧
  (∀ o : NulOp, ∀ s : State, Ready s (.tmask o) → ∃ t, exec (.tmask o) s = .next t ∧ OnlyWarps s t ∧
    BatchWarps s t (fun w => if w.masked then w else { w with masked := true, budget := Budget s.dev }) ∧ AllGo s t fun _ => none) ∧
  ∀ o : NulOp, ∀ s : State, Ready s (.tunmask o) → ∃ t, exec (.tunmask o) s = .next t ∧ OnlyWarps s t ∧
    BatchWarps s t (fun w => { w with masked := false }) ∧ AllGo s t fun _ => none

/-- R252, R262: RGN, once no earlier access can still fault, counts REC and sets REPC to its own address + 4; SETPERF requests the
level min(kA, 7) for the context, but in a batch of helpers alone. -/
def Obligations.RegionsAndPerformance : Prop :=
  (∀ o : NulOp, ∀ s : State, Ready s (.rgn o) → (∀ f ∈ s.dev.active, f.late = none) →
    ∃ t, exec (.rgn o) s = .next t ∧ OnlyFibres s t ∧ OthersKept s.dev t.dev ∧
      ∀ f ∈ s.dev.active, ∃ g, t.dev.fibre? f.core f.slot f.lane = some g ∧ g.rec_ = f.rec_ + 1 ∧
        g.repc = (f.pc + 4).signExtend 64 ∧ WentOn f g ∧ Linked f g none ∧ KeepsRest f { g with rec_ := f.rec_, repc := f.repc }) ∧
  ∀ o : K1Op, ∀ s : State, Ready s (.setperf o) →
    ∃ t, exec (.setperf o) s = .next t ∧
      t.dev.hub = (if ∃ f ∈ s.dev.active, f.helper = false then
        { s.dev.hub with ctxs := s.dev.hub.ctxs.map fun c =>
          if c.no = s.dev.grp.ctx then { c with perfReq := min (s.dev.readK o.ka.toNat).toNat 7 } else c } else s.dev.hub) ∧
      OnlyFibres s { t with dev := { t.dev with hub := s.dev.hub } } ∧ AllGo s t fun _ => none

/-- The table of R32 with the layouts of R31, R33 and R167: `v` is the value of special register `n` for a fibre of the batch. -/
def Sys2Proof.Stmt.SprHolds (d : Dev) (f : Fibre) (n : Nat) (v : W64) : Prop :=
  let num (x : Nat) : Prop := v = BitVec.ofNat 64 x
  let core := d.cur.core
  let levels := [f.lp0, f.lp1, f.lp2]
  let mine (w : Warp) : Prop := d.warp? f.core f.slot = some w
  if n = 0x00 then num (f.warpid * 32 + f.lane)
  else if n = 0x01 then num (f.lane % 32 + if f.helper then 256 else 0)
  else if n = 0x02 then num (f.lane / 4)
  else if n = 0x03 then num (f.slot * 32 + f.lane)
  else if n = 0x04 then num f.warpid
  else if n = 0x05 then num d.grp.groupid
  else if n = 0x06 then num d.grp.teamid
  else if n = 0x07 then num d.grp.launchid.toNat
  else if n = 0x08 then num core
  else if n = 0x09 then num (core / 16)
  else if n = 0x10 then num f.winbase
  else if n = 0x11 then num f.win.length
  else if n = 0x18 then v = f.fpctl
  else if n = 0x19 then v = d.grp.gctl
  else if 0x20 ≤ n ∧ n ≤ 0x22 then ∀ l, levels[n - 0x20]? = some l → num l.count.toNat
  else if 0x24 ≤ n ∧ n ≤ 0x26 then ∀ l, levels[n - 0x24]? = some l → v = l.start.signExtend 64
  else if 0x28 ≤ n ∧ n ≤ 0x2A then ∀ l, levels[n - 0x28]? = some l → v = l.last.signExtend 64
  else if n = 0x30 then ∀ w, mine w → w.pend.length = 16 → ∀ i < 64, v.getLsbD i =
    ((decide (16 ≤ i ∧ i < 32) && (nth w.pend (i - 16) none).isSome) ||
     (decide (i < 16) && ((nth w.pend i none).bind PSlot.latched).isSome))
  else if n = 0x31 then ∀ w, mine w → num w.evmask.toNat
  else if n = 0x38 then v = f.trapcause
  else if n = 0x39 then v = f.trappc
  else if n = 0x3A then v = f.trapaddr
  else if n = 0x3B then v = f.ilenc
  else if n = 0x3C then v = f.ilf0
  else if n = 0x3D then v = f.ilf1
  else if n = 0x3E then v = f.ilf2
  else if n = 0x3F then v = f.ilf3
  else if n = 0x40 then v = d.grp.uhv
  else if n = 0x48 then v = f.rec_
  else if n = 0x49 then v = f.repc
  else if n = 0x4A then v = f.mdone
  else if n = 0x50 then num (d.cluster (core / 16)).pass
  -- the lowest grant of the clusters where the context has resident groups (R399)
  else if n = 0x51 then
    (∀ g ∈ d.groups, g.ctx = d.grp.ctx → v.toNat ≤ (d.cluster (g.core / 16)).grant % 2 ^ 64) ∨ (∀ g ∈ d.groups, g.ctx ≠ d.grp.ctx) ∧ v = 0
  else if n = 0x52 then v = (d.core core).wstatWord
  else if n = 0x53 then v = (d.core core).wstallWord
  else False

/-- R260: SRD of a special register leaves its value outstanding for the register it names: for a lane register in every fibre, each
with its own value; for a uniform register once, with the value of the active fibre with the lowest home lane, or of the
anchor warp. -/
def Obligations.ReadSpecialRegister : Prop :=
  ∀ o : SrOp, (sprOf o.spr.toNat).isSome →
    (o.dk = 0 → LaterResult (.srd o) o.reg.toNat fun d f v => SprHolds d f o.spr.toNat v) ∧
    (o.dk = 1 → ∀ s : State, Ready s (.srd o) → HoldsK s.dev (o.reg.toNat % 64) → ∃ t, exec (.srd o) s = .next t ∧ OnlyUniform s t ∧
      (∃ v, ⟨.k (o.reg.toNat % 64), s.dev.cur.anchor, v, BitVec.allOnes 64⟩ ∈ t.dev.grp.outst ∧
        ((sprOf o.spr.toNat).map Spr.held ≠ some .warp → ∀ f, s.dev.active.head? = some f → SprHolds s.dev f o.spr.toNat v) ∧
        ((sprOf o.spr.toNat).map Spr.held = some .warp → ∀ f ∈ s.dev.active, f.slot = s.dev.cur.anchor → SprHolds s.dev f o.spr.toNat v)) ∧
      (∀ n, n ≠ o.reg.toNat % 64 → n < 64 → t.dev.kreg n = s.dev.kreg n) ∧ AllGo s t fun _ => none)

/-- R261, R31, R34, R35: SWR of a writable register with values that set no res0 bit. A register held per fibre is written in each fibre, and
reads back what was written, with the others as before; EVMASK in each warp of the batch, and GCTL or UHV once, with the value of the active
fibre with the highest home lane. -/
def Obligations.WriteSpecialRegister : Prop :=
  ∀ o : SrOp, ∀ r, sprOf o.spr.toNat = some r → r.rw = true →
    let val (d : Dev) (f : Fibre) : W64 := if o.dk = 1 then d.readK (o.reg.toNat % 64) else d.readV f o.reg.toNat
    ∀ s : State, Ready s (.swr o) → (∀ f ∈ s.dev.active, val s.dev f &&& r.res0 = 0) →
      ∃ t, exec (.swr o) s = .next t ∧ t.agenda = s.agenda ∧ t.pwr = s.pwr ∧ t.fw = s.fw ∧
        { t.dev with fibres := s.dev.fibres, warps := s.dev.warps, groups := s.dev.groups, free := s.dev.free } = s.dev ∧
        (r.held = .fibre → t.dev.warps = s.dev.warps ∧ t.dev.groups = s.dev.groups ∧ OthersKept s.dev t.dev ∧
          ∀ f ∈ s.dev.active, ∃ h g, t.dev.fibre? f.core f.slot f.lane = some g ∧
            h.spr o.spr.toNat = Stored o.spr.toNat (val s.dev f) ∧ (∀ n, n ≠ o.spr.toNat → h.spr n = f.spr n) ∧
            h.pc = f.pc ∧ Linked f h none ∧ WentOn h g ∧ Linked h g none ∧ KeepsRest h g) ∧
        (r.held = .warp → t.dev.groups = s.dev.groups ∧ AllGo s t (fun _ => none) ∧
          ∀ c n w, s.dev.warp? c n = some w → ∃ x, t.dev.warp? c n = some x ∧ { x with evmask := w.evmask } = w ∧
            x.evmask = match (s.dev.active.filter fun f => c == s.dev.cur.core && f.slot == n).getLast? with
              | some f => (val s.dev f).setWidth 16
              | none => w.evmask) ∧
        (r.held = .group → t.dev.warps = s.dev.warps ∧ AllGo s t (fun _ => none) ∧
          ∀ n g, s.dev.group? n = some g → ∃ h, t.dev.group? n = some h ∧ { h with gctl := g.gctl, uhv := g.uhv } = g ∧
            ∀ f, s.dev.active.getLast? = some f → (n ≠ s.dev.cur.gid → h = g) ∧ (n = s.dev.cur.gid →
              h.gctl = (if o.spr = 0x19 then val s.dev f else g.gctl) ∧
              h.uhv = (if o.spr = 0x40 then ((val s.dev f).setWidth 48).signExtend 64 else g.uhv)))

/-- The instruction traps, before any effect, in the fibres of its batch that fail a check; the others keep waiting at it. -/
def Sys2Proof.Stmt.FailsCheck (i : Instr) (s : State) (bad : Fibre → Prop) (cause : Nat) (more : Fibre → Fibre → Prop) : Prop :=
  ∃ t, exec i s = .next t ∧ OnlyTraps s t ∧ OthersKept s.dev t.dev ∧ ∀ f ∈ s.dev.active, ∃ g,
    t.dev.fibre? f.core f.slot f.lane = some g ∧ (¬bad f → g = f) ∧
    (bad f → TookTrap s.dev f g cause 0 0 0 ∧ (f.late = none → more f g))

/-- R14, R70, R72, R73: any instruction that names a register beyond the window of some fibre of its batch traps ILLEGAL in the fibres that
fail the check, reporting their first failing field, and otherwise has no effect; with GCTL.SBCHK, one that would read a result too early
traps STALLSHORT in the fibres that would. SRD and SWR, which have a check of their own as well, are stated for words that pass it (R32). -/
def Sys2Proof.Stmt.ChecksBeforeEffectRules : Prop :=
  ∀ i : Instr, ∀ s : State,
    (∀ o, i = .srd o → (sprOf o.spr.toNat).isSome) → (∀ o, i = .swr o → s.dev.swrBad o = false) →
    let fails (f : Fibre) (u : Use) : Prop := ∃ n, u.reg = .v n ∧ f.win.length ≤ n
    let beyond (f : Fibre) : Prop := ∃ u ∈ usesOf i, fails f u
    let early (f : Fibre) : Prop := s.dev.sbchk = true ∧ s.dev.isShort (usesOf i) f = true
    ((∃ f ∈ s.dev.active, beyond f) → FailsCheck i s beyond 1 fun f g => g.ilenc = s.dev.cur.word.setWidth 64 ∧ g.mdone = f.mdone ∧
      ∃ (k : Nat) (u : Use), (usesOf i)[k]? = some u ∧ fails f u ∧ (∀ j < k, ∀ v : Use, (usesOf i)[j]? = some v → ¬fails f v) ∧
        (g.ilf0.extractLsb' 0 4).toNat = 5 ∧ (g.ilf0.extractLsb' 16 8).toNat = u.wid ∧ (g.ilf0.extractLsb' 24 8).toNat = u.lo) ∧
    ((∀ f ∈ s.dev.active, ¬beyond f) → (∃ f ∈ s.dev.active, early f) → FailsCheck i s early 2 KeepsIll)

/-- R32, R73, R260, R261: SRD of a number that is no special register, and SWR of one, of a read-only register, or where some fibre's value
sets a res0 bit, trap ILLEGAL with REASON 6 in every fibre of the batch and have no other effect. -/
def Sys2Proof.Stmt.SpecialRegisterChecksRules : Prop :=
  let shown (s : State) (f g : Fibre) : Prop := g.ilenc = s.dev.cur.word.setWidth 64 ∧ g.mdone = f.mdone ∧
    (g.ilf0.extractLsb' 0 4).toNat = 6 ∧ (g.ilf0.extractLsb' 16 16).toNat = 4 * 256 + 10
  (∀ o : SrOp, ∀ s : State, Ready s (.srd o) → sprOf o.spr.toNat = none → FailsCheck (.srd o) s (fun _ => True) 1 (shown s)) ∧
  ∀ o : SrOp, ∀ s : State, Ready s (.swr o) →
    let val (f : Fibre) : W64 := if o.dk = 1 then s.dev.readK (o.reg.toNat % 64) else s.dev.readV f o.reg.toNat
    (∀ r, sprOf o.spr.toNat = some r → r.rw = false ∨ ∃ f ∈ s.dev.active, val f &&& r.res0 ≠ 0) →
    FailsCheck (.swr o) s (fun _ => True) 1 (shown s)

/-- An instruction whose bad fibres trap while the other fibres of its batch complete (R246): each takes its trap, or stands as said. -/
def Sys2Proof.Stmt.Parted (i : Instr) (bad : Dev → Fibre → Prop) (cause : Nat) (addr : Dev → Fibre → W64) (more : Dev → Fibre → Fibre → Prop)
    (rest : State → State → Prop) (done : Dev → Fibre → Fibre → Prop) : Prop :=
  ∀ s : State, Ready s i → ∃ t, exec i s = .next t ∧ t.agenda = s.agenda ∧ t.pwr = s.pwr ∧ t.fw = s.fw ∧ rest s t ∧
    { t.dev with fibres := s.dev.fibres, groups := s.dev.groups, warps := s.dev.warps, free := s.dev.free } = s.dev ∧
    (∀ n g, s.dev.group? n = some g → ∃ h, t.dev.group? n = some h ∧ { h with stat := g.stat } = g) ∧
    OthersKept s.dev t.dev ∧
    ∀ f ∈ s.dev.active, ∃ g, t.dev.fibre? f.core f.slot f.lane = some g ∧
      (bad s.dev f → TookTrap s.dev f g cause 0 0 (addr s.dev f) ∧ (f.late = none → more s.dev f g)) ∧
      (¬bad s.dev f → done s.dev f g)

/-- R135, R143, R186, R246, R257: in a batch of JI, RET or CALLI the fibres with a bad target trap ALIGN, with the target in TRAPADDR, and
the others transfer; so in one of TRET, whose other fibres' warps are unmasked; in one of LOOP a fibre without an inactive level and with a
count that is not 0 traps ILLEGAL with REASON 7 (its field, position 0 and width 22, is log 29's), and the others enter their loops. KRET
has one target, and all trap or all go. -/
def Sys2Proof.Stmt.BadTargetsTrapRules : Prop :=
  let warpsKept (s t : State) : Prop := t.dev.warps = s.dev.warps
  let indirect (i : Instr) (link : Option Nat) (a : Dev → Fibre → W64) : Prop :=
    Parted i (fun d f => ¬GoodTarget (a d f)) 6 a (fun _ => KeepsIll) warpsKept fun d f g => Linked f g link ∧
      Reaches f g (some ((a d f).setWidth 48)) ∧ g.age = d.cycle ∧ KeepsRest f g
  let loop (i : Instr) (off : BitVec 12) (cnt : Dev → Fibre → BitVec 32) : Prop :=
    Parted i (fun d f => cnt d f ≠ 0 ∧ f.lp0.count ≠ 0 ∧ f.lp1.count ≠ 0 ∧ f.lp2.count ≠ 0) 1 (fun _ _ => 0)
      (fun d f g => g.ilenc = d.cur.word.setWidth 64 ∧ g.mdone = f.mdone ∧ (g.ilf0.extractLsb' 0 4).toNat = 7 ∧
        (g.ilf0.extractLsb' 16 16).toNat = 22) warpsKept fun d f g => LoopStarted d off (cnt d f) f g
  (∀ o : IndOp, let a (d : Dev) (f : Fibre) : W64 := d.readV f (laneNo o.hv o.va)
    indirect (.ji o) none a ∧ indirect (.ret o) none a) ∧
  (∀ o : IndLOp, indirect (.calli o) (some (laneNo o.hv o.vd)) fun d f => d.readV f (laneNo o.hv o.va)) ∧
  (∀ o : LoopIOp, loop (.loopImm o) o.off fun _ _ => o.cnt.setWidth 32) ∧
  (∀ o : LoopUOp, loop (.loopUniform o) o.off fun d f => (d.readKAs (f.slot * 32 + f.lane) o.kc.toNat).setWidth 32) ∧
  (∀ o : K1Op, Traps (.kret o) (fun d => ¬GoodTarget (d.readK o.ka.toNat)) 6 0 (fun d _ => d.readK o.ka.toNat) KeepsIll) ∧
  ∀ o : NulOp, Parted (.tret o) (fun _ f => ¬GoodTarget f.trappc) 6 (fun _ f => f.trappc) (fun _ => KeepsIll)
    (fun s t => ∀ c n w, s.dev.warp? c n = some w → ∃ x, t.dev.warp? c n = some x ∧
      let left : Prop := c = s.dev.cur.core ∧ ∃ l, (n, l) ∈ s.dev.cur.members ∧
        ∀ f ∈ s.dev.active, f.slot = n → f.lane = l → GoodTarget f.trappc
      (left → x = { w with masked := false }) ∧ (¬left → x = w))
    fun _ f g => Linked f g none ∧ Reaches f g (some (f.trappc.setWidth 48)) ∧ KeepsRest f g

/-- R14, R70, R72, R73: any instruction that names a register beyond the window of some fibre of its batch traps ILLEGAL in the fibres that
fail the check, and otherwise has no effect; with GCTL.SBCHK, one that would read a result too early traps STALLSHORT in the fibres that
would. R32: a special register check that fails traps every fibre.

R135, R143, R186, R246, R257: JI, RET, CALLI, TRET and LOOP trap in the fibres with a bad target or without a loop level and complete in the
others. -/
def Obligations.ChecksAndBadTargets : Prop :=
  Stmt.ChecksBeforeEffectRules ∧ Stmt.SpecialRegisterChecksRules ∧ Stmt.BadTargetsTrapRules

namespace Sys2Proof.Stmt

open Machine

/-! ## Memory (07: R149 to R161, R185; 15: R304 to R307) -/

/-- Whether MDONE describes the instruction at the fibre's PC (R36, R152). -/
def Resumes (f : Fibre) : Bool := f.mdone.getLsbD 48 && f.mdone.extractLsb' 2 46 == f.pc.extractLsb' 2 46

/-- Whether slot `j` takes part (R149): bit `j` of the mask, and not performed before (R152). -/
def Part (f : Fibre) (m : Byte) (n j : Nat) : Bool :=
  decide (j < 8 / n) && m.getLsbD j && !(Resumes f && f.mdone.getLsbD (56 + j))

/-- An access passes the checks of R151 before translation at an address: aligned; in `.g` canonical; in a local or window space inside a
grant and outside live ranges of the shutter table. -/
def Clear (d : Dev) (q : Acc) (v a : W64) : Prop :=
  a.toNat % q.n = 0 ∧ (q.sp = 0 → (a.setWidth 48).signExtend 64 = a) ∧
  (q.sp ≠ 0 → d.slotHeld d.grp q v a = true ∧ d.slotShut d.grp q a = false)

/-- Where accesses to addresses read or write, one after the other: in `.g` what translating each gives by the TLBs as the one before left
them, from `d`'s own on (R330), else the place of the local or window address. -/
def Reached (q : Acc) (acc : Nat) (core ctx : Nat) : Dev → List W64 → List Place → Prop
  | _, [], ps => ps = []
  | d, a :: l, ps => ∃ p rest, ps = p :: rest ∧
      if q.sp = 0 then
        (∃ x, (d.translate core ctx (a.setWidth 48).toNat acc).1 = .ok x ∧ p = .phys x) ∧
        Reached q acc core ctx (d.translate core ctx (a.setWidth 48).toNat acc).2 l rest
      else (∃ x, q.spot core a = some x ∧ p = placeOf x) ∧ Reached q acc core ctx d l rest

/-- No store of compatibility mode is pending on a core where that would show in an access: a strong one, or one of that mode to a local or
window space (R320). -/
def Quiet (d : Dev) (q : Acc) : Prop := q.strong ≠ none ∨ (d.isCompat = true ∧ q.sp ≠ 0) → d.ms.pendingOf d.grp.core = []

/-- Nothing changes but fibres, TLBs, what is kept of memory, GWX of groups, and the counter of free values. -/
def OnlyAccess (s t : State) : Prop :=
  t.agenda = s.agenda ∧ t.pwr = s.pwr ∧ t.fw = s.fw ∧
  { t.dev with fibres := s.dev.fibres, tlbs := s.dev.tlbs, ms := s.dev.ms, groups := s.dev.groups, free := s.dev.free } = s.dev ∧
  ∀ n g, s.dev.group? n = some g → ∃ h, t.dev.group? n = some h ∧ { h with gwx := g.gwx } = g

/-- A fibre completes a memory instruction: it goes on, and MDONE becomes 0 if it was about this instruction (R152). -/
def Completes (f g : Fibre) : Prop :=
  WentOn f g ∧ g.mdone = (if Resumes f then 0 else f.mdone) ∧ KeepsRest f { g with mdone := f.mdone }

/-- The slots of an access that take part, in increasing home lane and sub-element (R149, R153), for the fibres that `p` names. -/
def Slots (d : Dev) (n mk : Nat) (p : Fibre → Bool) : List (Fibre × Nat) :=
  (d.active.filter p).flatMap fun f => ((List.range 8).filter (Part f (d.readM f mk) n)).map fun j => (f, j)

/-- The members of the batch stand at different positions. -/
def Apart (d : Dev) : Prop := (d.active.map fun f => (f.slot, f.lane)).Nodup

/-- A load completes where every taking-part slot of every fibre passes the checks and has a translation: the taking-part sub-elements are
outstanding for the destination, each with the bytes of its place, and the others keep their values; of memory only snapshots change. A
strong load is taken of bytes to which the core holds no unpublished store (what it does to one that it holds is a statement of its own). -/
def Load (i : Instr) (q : Acc) (vd va mk : Nat) (off : Int) : Prop :=
  ∀ s : State, Ready s i → Apart s.dev → s.dev.ms.wf = true → Quiet s.dev q →
    let d := s.dev
    let a (x : Fibre × Nat) : W64 := d.readV x.1 va + BitVec.ofInt 64 (off * q.n) + BitVec.ofNat 64 (x.2 * q.n)
    let slots := Slots d q.n mk fun _ => true
    ∀ ps, (∀ x ∈ slots, Clear d q 0 (a x)) → Reached q 1 d.grp.core d.grp.ctx d (slots.map a) ps →
    (q.strong ≠ none → ∀ p k, Place.phys p ∈ ps → k < q.n → d.ms.ownGet d.grp.core (p + k) = none) →
    (q.strong ≠ none → ∀ c l i b, Place.reg c l i b ∈ ps → c = d.grp.core) →
    ∃ t, exec i s = .next t ∧ OnlyAccess s t ∧ OthersKept d t.dev ∧ { t.dev.ms with snap := d.ms.snap } = d.ms ∧
      ∀ f ∈ d.active, ∃ g, t.dev.fibre? f.core f.slot f.lane = some g ∧ Completes f g ∧
        ((∀ j, (f, j) ∉ slots) → Linked f g none) ∧
        ((∃ j, (f, j) ∈ slots) → KeepsLanes f g vd ∧ ∃ v bits,
          g.outst = outstBut f (.v vd) ++ [⟨.v vd, 0, v, bits⟩] ∧ g.infl = inflBut f (.v vd) ∧
          (∀ b < 64, bits.getLsbD b = true ↔ (f, b / (8 * q.n)) ∈ slots) ∧
          ∀ (k j : Nat) (p : Place), slots[k]? = some (f, j) → ps[k]? = some p →
            elem (8 * q.n) v j = BitVec.ofNat _ (d.readPlace d.grp q q.n p).1)

/-- What a byte reads as after stores, the later ones last. -/
def afterStores (r : Byte) (x : Nat) (ws : List (Nat × List Byte)) : Byte :=
  ws.foldl (fun r w => if w.1 ≤ x ∧ x < w.1 + w.2.length then nth w.2 (x - w.1) 0 else r) r

/-- What every core reads after stores of one core to memory: the storing core the bytes stored, the later ones last, and every core every
other byte as before. -/
def StoredTo (d e : Dev) (core : Nat) (ws : List (Nat × List Byte)) : Prop :=
  (∀ x, e.ms.peek core x = afterStores (d.ms.peek core x) x ws) ∧
  ∀ c x, (∀ w ∈ ws, ¬(w.1 ≤ x ∧ x < w.1 + w.2.length)) → e.ms.peek c x = d.ms.peek c x

/-- A store completes where every taking-part slot of every fibre that is no helper passes the checks, has a translation, and lies in memory:
the slots are stored in increasing home lane and sub-element, and every other byte reads as before (R153, R156). A strong store to `.g`,
which other parties and the translation of a later slot may see at once, is taken of one slot. -/
def Store (i : Instr) (q : Acc) (vd va mk : Nat) (off : Int) (pre : Dev → Prop) : Prop :=
  ∀ s : State, Ready s i → Apart s.dev → pre s.dev → s.dev.ms.wf = true → Quiet s.dev q →
    let d := s.dev
    let a (x : Fibre × Nat) : W64 := d.readV x.1 va + BitVec.ofInt 64 (off * q.n) + BitVec.ofNat 64 (x.2 * q.n)
    let slots := Slots d q.n mk fun f => !f.helper
    ∀ ps : List Nat, (∀ x ∈ slots, Clear d q (d.readV x.1 vd) (a x) ∧
      (q.sp ≠ 0 → ∃ c o, q.spot d.grp.core (a x) = some (.mem c o))) →
    Reached q 2 d.grp.core d.grp.ctx d (slots.map a) (ps.map Place.phys) →
    (q.strong ≠ none → q.sp = 0 → slots.length ≤ 1) →
    ∃ t, exec i s = .next t ∧ OnlyAccess s t ∧ OthersKept d t.dev ∧
      StoredTo d t.dev d.grp.core
        ((slots.zip ps).map fun x => (x.2, leBytes q.n (d.readV x.1.1 vd >>> (8 * q.n * x.1.2)).toNat)) ∧
      ∀ f ∈ d.active, ∃ g, t.dev.fibre? f.core f.slot f.lane = some g ∧ Completes f g ∧ Linked f g none

/-- A byte as an atomic of a core finds it: the core's own unpublished byte, else the latest one (R315). -/
def atomByte (ms : MemSys) (core x : Nat) : Byte := (ms.ownGet core x).getD (ms.latest x)

/-- The new memory value of an atomic of `w` bits (R159). -/
def AtomRule (w aop : Nat) (old x y r : BitVec w) : Prop :=
  let f : FFmt := if w = 32 then .f32 else .f64
  match aop with
  | 0 => r = old + x
  | 1 => r.toInt = min old.toInt x.toInt
  | 2 => r.toNat = min old.toNat x.toNat
  | 3 => r.toInt = max old.toInt x.toInt
  | 4 => r.toNat = max old.toNat x.toNat
  | 5 => r = old &&& x
  | 6 => r = old ||| x
  | 7 => r = old ^^^ x
  | 8 => r = x
  | 9 => r = if old = x then y else old
  | 10 => Sum f 0 false old.toNat x.toNat r.toNat
  | 11 => Extreme f false false old.toNat x.toNat r.toNat
  | _ => False

/-- One read-modify-write of memory as a function of addresses, at an address, with the operands of registers vD and vD + 1. -/
def AtomStep (wide : Bool) (aop : Nat) (x y : W64) (p : Nat) (m m' : Nat → Byte) (old : W64) : Prop :=
  let n := if wide then 8 else 4
  let o := leVal ((List.range n).map fun i => m (p + i))
  old = BitVec.ofNat 64 o ∧ (∀ z, ¬(p ≤ z ∧ z < p + n) → m' z = m z) ∧
  let r := leVal ((List.range n).map fun i => m' (p + i))
  if wide then AtomRule 64 aop (BitVec.ofNat 64 o) x y (BitVec.ofNat 64 r)
  else AtomRule 32 aop (BitVec.ofNat 32 o) (x.setWidth 32) (x.extractLsb' 32 32) (BitVec.ofNat 32 r)

/-- Read-modify-writes one after the other; each fibre gets the value before its own (R160). -/
def AtomChain (wide : Bool) (aop : Nat) (arg : Fibre → W64 × W64 × Nat) : List Fibre → (Nat → Byte) → (Nat → Byte) → (Fibre → W64) → Prop
  | [], m, m', _ => m' = m
  | f :: l, m, m', old => ∃ k, AtomStep wide aop (arg f).1 (arg f).2.1 (arg f).2.2 m k (old f) ∧ AtomChain wide aop arg l k m' old

/-- A region-closing instruction has closed the region of a fibre, and the fibre goes on (R253). -/
def Closed (f g : Fibre) : Prop := g.rec_ = f.rec_ + 1 ∧ g.repc = (f.pc + 4).signExtend 64 ∧ WentOn f g ∧
  KeepsRest f { g with rec_ := f.rec_, repc := f.repc }

/-- An ATOM on the own scratchpad completes where every address passes the checks and no store of compatibility mode is pending on the core:
the fibres' read-modify-writes are performed in increasing home lane, each fibre's old value is outstanding for vD, and the region is
closed. -/
def ScratchAtom (i : Instr) (o : AtomSOp) (wide : Bool) : Prop :=
  let vd := laneNo o.hv o.vd
  let n := if wide then 8 else 4
  ∀ s : State, Ready s i → Apart s.dev → s.dev.ms.wf = true → s.dev.ms.pendingOf s.dev.grp.core = [] →
    let d := s.dev
    let q : Acc := ⟨1, n, true, some 3⟩
    let a (f : Fibre) : W64 := d.readV f (laneNo o.hv o.va)
    let does := d.active.filter fun f => !f.helper
    (∀ f ∈ d.active, f.late = none) → (∀ f ∈ does, Clear d q 0 (a f)) →
    ∃ t, exec i s = .next t ∧ OnlyAccess s t ∧ OthersKept d t.dev ∧
      (∃ old : Fibre → W64, AtomChain wide o.aop.toNat (fun f => (d.readV f vd, d.readV f (vd + 1), slotBase d.grp.core + (a f).toNat)) does
          (atomByte d.ms d.grp.core) (atomByte t.dev.ms d.grp.core) old ∧
        ∀ f ∈ d.active, ∃ g, t.dev.fibre? f.core f.slot f.lane = some g ∧ Closed f g ∧ KeepsLanes f g vd ∧ g.infl = inflBut f (.v vd) ∧
          g.outst = outstBut f (.v vd) ++ [⟨.v vd, 0, if f.helper then 0 else old f, BitVec.allOnes 64⟩])

/-- The requests that the fibres of an ATOM make at their places. -/
def Requests (d : Dev) (o : AtomOp) (wide : Bool) (does : List Fibre) (ps : List Nat) : List AtomReq :=
  let vd := laneNo o.hv o.vd
  (does.zip ps).map fun x => {
    core := d.grp.core, slot := x.1.slot, lane := x.1.lane, vd := vd, addr := x.2, wide := wide, aop := o.aop.toNat
    x := d.readV x.1 vd, y := d.readV x.1 (vd + 1), acq := if o.ord.getLsbD 0 then some o.scope.toNat else none
    at_ := d.cycle, pc := x.1.pc, va := d.readV x.1 (laneNo o.hv o.va), rec_ := x.1.rec_, repc := x.1.repc
    lps := (x.1.lp0, x.1.lp1, x.1.lp2) }

/-- An ATOM on global or window memory completes where every address passes the checks, has a translation, and lies in memory: with release
meaning the core's stores are published; then each fibre's request stands in the queue of the engine of the address's home cluster, or is
under way to the peer that holds it, behind those there and in increasing home lane; the fibre waits for it, with its region closed. -/
def EngineAtom (i : Instr) (o : AtomOp) (wide : Bool) (sp : Nat) : Prop :=
  let vd := laneNo o.hv o.vd
  let n := if wide then 8 else 4
  ∀ s : State, Ready s i → Apart s.dev →
    let d := s.dev
    let q : Acc := ⟨sp, n, true, some o.scope.toNat⟩
    let a (f : Fibre) : W64 := d.readV f (laneNo o.hv o.va)
    let does := d.active.filter fun f => !f.helper
    (o.ord.getLsbD 1 = true → does ≠ [] → d.ms.regLines = []) → (∀ f ∈ d.active, f.late = none) →
    (∀ f ∈ does, Clear d q 0 (a f) ∧ (sp ≠ 0 → ∃ c x, q.spot d.grp.core (a f) = some (.mem c x))) →
    ∀ ps : List Nat, Reached q 3 d.grp.core d.grp.ctx d (does.map a) (ps.map Place.phys) →
    let rs := Requests d o wide does ps
    let home (r : AtomReq) : Option Nat := if (peerOf r.addr).isSome then none else some (homeCluster r.core r.addr)
    ∃ t, exec i s = .next t ∧ t.agenda = s.agenda ∧ t.pwr = s.pwr ∧ t.fw = s.fw ∧
      { t.dev with fibres := d.fibres, tlbs := d.tlbs, ms := d.ms, clusters := d.clusters, fabric := d.fabric, groups := d.groups,
                   free := d.free } = d ∧
      t.dev.ms = (if o.ord.getLsbD 1 && !does.isEmpty then d.ms.release d.grp.core o.scope.toNat else d.ms) ∧
      (∀ k g, d.group? k = some g → ∃ h, t.dev.group? k = some h ∧ { h with gwx := g.gwx } = g) ∧ OthersKept d t.dev ∧
      t.dev.fabric = d.fabric ++ rs.filter (fun r => home r == none) ∧
      (∀ k, { t.dev.cluster k with queue := (d.cluster k).queue } = d.cluster k ∧
        (t.dev.cluster k).queue = (d.cluster k).queue ++ rs.filter fun r => home r == some k) ∧
      ∀ f ∈ d.active, ∃ g, t.dev.fibre? f.core f.slot f.lane = some g ∧
        (f.helper = false → g.wait = .atomic ∧ Closed f { g with wait := f.wait } ∧ KeepsLanes f g vd ∧ g.infl = f.infl ∧
          g.outst = outstBut f (.v vd)) ∧
        (f.helper = true → Closed f g ∧ KeepsLanes f g vd ∧ g.infl = inflBut f (.v vd) ∧
          g.outst = outstBut f (.v vd) ++ [⟨.v vd, 0, 0, BitVec.allOnes 64⟩])

end Sys2Proof.Stmt

/-- R148 to R152, R155: loads in every space, and the strong loads. -/
def Sys2Proof.Stmt.LaneLoadsRules : Prop :=
  (∀ o : MemOp, let q (sp : Nat) : Acc := ⟨sp, widthOf o.sz / 8, false, none⟩
    let load (i : Instr) (sp : Nat) : Prop := Load i (q sp) (laneNo o.hv o.vd) (laneNo o.hv o.va) o.msk.toNat o.off.toInt
    load (.ldG o) 0 ∧ load (.ldS o) 1 ∧ load (.ldA o) 2 ∧ load (.ldO o) 3 ∧ load (.ldW o) 4) ∧
  ∀ o : StrongOp, Load (.ldStrong o) ⟨if o.sp = 1 then 4 else 0, widthOf o.sz / 8, false, some o.scope.toNat⟩ (laneNo o.hv o.vd)
    (laneNo o.hv o.va) o.msk.toNat 0

/-- R148 to R156: stores in every space, the strong stores, and the pane stores, which issue from a full batch only. -/
def Sys2Proof.Stmt.LaneStoresRules : Prop :=
  (∀ o : MemOp, let q (sp : Nat) : Acc := ⟨sp, widthOf o.sz / 8, true, none⟩
    let store (i : Instr) (sp : Nat) (pre : Dev → Prop) : Prop :=
      Store i (q sp) (laneNo o.hv o.vd) (laneNo o.hv o.va) o.msk.toNat o.off.toInt pre
    store (.stG o) 0 (fun _ => True) ∧ store (.stS o) 1 (fun _ => True) ∧ store (.stA o) 2 (fun _ => True) ∧
    store (.stO o) 3 (fun d => d.cur.members.length = 32) ∧ store (.stW o) 4 fun _ => True) ∧
  ∀ o : StrongOp, Store (.stStrong o) ⟨if o.sp = 1 then 4 else 0, widthOf o.sz / 8, true, some o.scope.toNat⟩ (laneNo o.hv o.vd)
    (laneNo o.hv o.va) o.msk.toNat 0 fun _ => True

/-- R148 to R152, R155: loads in every space, and the strong loads.

R148 to R156: stores in every space, the strong stores, and the pane stores, which issue from a full batch only. -/
def Obligations.LaneMemory : Prop := Stmt.LaneLoadsRules ∧ Stmt.LaneStoresRules

/-- R159, R160: the atomics on the scratchpad. -/
def Sys2Proof.Stmt.ScratchpadAtomicsRules : Prop :=
  ∀ o : AtomSOp, (o.aop.toNat ≤ 11 → ScratchAtom (.atomS32 o) o false) ∧ (o.aop.toNat ≤ 11 → ScratchAtom (.atomS64 o) o true)

/-- R159, R160, R298, R299: an atomic on global or window memory stands at its engine, and the engine performs the
oldest request of a line: the new value is in memory, and the old one is outstanding for the fibre that waits. -/
def Sys2Proof.Stmt.EngineAtomicsRules : Prop :=
  (∀ o : AtomOp, EngineAtom (.atomG32 o) o false 0 ∧ EngineAtom (.atomG64 o) o true 0 ∧ EngineAtom (.atomW32 o) o false 4 ∧
    EngineAtom (.atomW64 o) o true 4) ∧
  -- what may be applied: the first of its line by arrival cycle, core and home lane, once it has arrived
  (∀ (l : List AtomReq) (now : Nat) (r : AtomReq), (∀ x ∈ l, x.core < 512 ∧ x.lane < 32) → r ∈ atomHeads l now →
    r ∈ l ∧ r.at_ < now ∧ ∀ x ∈ l, x.addr / 64 = r.addr / 64 →
      r.at_ < x.at_ ∨ (r.at_ = x.at_ ∧ (r.core < x.core ∨ (r.core = x.core ∧ r.lane ≤ x.lane)))) ∧
  ∀ s : State, ∀ r, (atomHeads (s.dev.cluster s.dev.arg.a).queue s.dev.cycle).head? = some r → s.dev.oracle = [] → r.aop ≤ 11 →
      s.dev.arg.a < 64 → isRegAddr r.addr = false → isRegAddr (r.addr + 7) = false →
      s.dev.ms.wf = true → s.dev.ms.pendingOf r.core = [] →
    ∃ t, exec .atomicEngineApply s = .next t ∧ t.agenda = s.agenda ∧ t.pwr = s.pwr ∧ t.fw = s.fw ∧
      { t.dev with fibres := s.dev.fibres, ms := s.dev.ms, clusters := s.dev.clusters } = s.dev ∧
      (∀ k, k ≠ s.dev.arg.a → t.dev.cluster k = s.dev.cluster k) ∧
      t.dev.cluster s.dev.arg.a = { s.dev.cluster s.dev.arg.a with queue := (s.dev.cluster s.dev.arg.a).queue.erase r } ∧
      (∀ sc, r.acq = some sc → 4 ≤ sc → ∀ l ∈ t.dev.ms.snap, l.core ≠ r.core) ∧
      ∃ old, AtomStep r.wide r.aop r.x r.y r.addr (atomByte s.dev.ms r.core) (atomByte t.dev.ms r.core) old ∧
        (∀ f, s.dev.fibre? r.core r.slot r.lane = some f → ∃ g, t.dev.fibre? r.core r.slot r.lane = some g ∧
          g.wait = (if f.wait = .atomic then .none else f.wait) ∧ KeepsLanes f g r.vd ∧ g.infl = inflBut f (.v r.vd) ∧
          g.outst = outstBut f (.v r.vd) ++ [⟨.v r.vd, 0, old, BitVec.allOnes 64⟩] ∧
          { g with win := f.win, infl := f.infl, outst := f.outst, wait := f.wait } = f) ∧
        ∀ c n l, ¬(c = r.core ∧ n = r.slot ∧ l = r.lane) → t.dev.fibre? c n l = s.dev.fibre? c n l

/-- R159, R160: the atomics on the scratchpad.

R159, R160, R298, R299: an atomic on global or window memory stands at its engine, and the engine performs the
oldest request of a line: the new value is in memory, and the old one is outstanding for the fibre that waits. -/
def Obligations.Atomics : Prop := Stmt.ScratchpadAtomicsRules ∧ Stmt.EngineAtomicsRules

namespace Sys2Proof.Stmt

open Machine

/-- The state after the release and the acquire, at a scope, that an order code names (R310): memory and held-back register bytes change, and
nothing else. -/
def AtBoundary (s : State) (ord : BitVec 2) (sc : Nat) : State :=
  let d := if ord.getLsbD 1 then s.dev.release s.dev.cur.core sc else s.dev
  { s with dev := if ord.getLsbD 0 then { d with ms := d.ms.acquire d.cur.core sc } else d }

/-- R306, R308: a release at CLUSTER scope or wider leaves the core nothing unpublished, and what it had stored is then what every core in
its scope, and at SYSTEM scope the host, reads there; its own reads do not change. -/
def ReleaseRules : Prop :=
  ∀ (ms : MemSys) (core sc : Nat), 4 ≤ sc → ms.wf = true → ms.pendingOf core = [] →
    let r := ms.release core sc
    r.ownMem core = [] ∧ (∀ k, k ≠ core → r.ownMem k = ms.ownMem k) ∧
    ∀ a b, ms.ownGet core a = some b →
      (∀ k, (k / 16 = core / 16 ∨ 5 ≤ sc) → r.avail k a = b) ∧ (6 ≤ sc → r.mem.get a = b)

/-- R306, R318: a release of the device changes memory as its memory does, and of the fibres at most registers, where bytes of their windows
are held back. -/
def DeviceReleaseRules : Prop :=
  ∀ (d : Dev) (core sc : Nat), let e := d.release core sc
    { e with fibres := d.fibres, ms := d.ms } = d ∧ (d.ms.regLines = [] → e = { d with ms := d.ms.release core sc }) ∧
    ∀ c n l f, d.fibre? c n l = some f → ∃ g, e.fibre? c n l = some g ∧ { g with win := f.win } = f ∧ g.win.length = f.win.length

/-- R307: an acquire at CLUSTER scope or wider discards the core's snapshot, and nothing else. -/
def AcquireRules : Prop :=
  ∀ (ms : MemSys) (core sc : Nat), { ms.acquire core sc with snap := ms.snap } = ms ∧
    ∀ l, l ∈ (ms.acquire core sc).snap ↔ l ∈ ms.snap ∧ (4 ≤ sc → l.core ≠ core)

/-- A fence completes as the boundary of its order code, where it is one. -/
def FenceFlow (i : FenOp → Instr) (bounds : Dev → Bool) : Prop :=
  ∀ o : FenOp, ∀ s : State, Ready s (i o) →
    let e := if bounds s.dev then AtBoundary s o.ord o.scope.toNat else s
    ∃ t, exec (i o) s = .next t ∧ OnlyFibres e t ∧ AllGo e t fun _ => none

end Sys2Proof.Stmt

/-- R161, R306, R307, R310, R314, R320, R157: FENCE, PHASE and PREF go on without writing a register. PHASE, and FENCE in compatibility mode,
are the release and the acquire at their scope that the order code names, and nothing more; outside that mode FENCE changes nothing. PREF
changes translations held, and no memory. -/
def Obligations.FencePhasePrefetch : Prop :=
  FenceFlow .fence Dev.isCompat ∧ FenceFlow .phase (fun _ => true) ∧ ReleaseRules ∧ DeviceReleaseRules ∧ AcquireRules ∧
  ∀ o : PreOp, ∀ s : State, Ready s (.pref o) → ∃ t, exec (.pref o) s = .next t ∧
    OnlyFibres s { t with dev := { t.dev with tlbs := s.dev.tlbs } } ∧ AllGo s t fun _ => none

/-- R185: KLD leaves the 8 bytes at kA plus a signed count of double-words outstanding for its register; KST stores its register there, and
every other byte reads as before; in a batch of helpers alone it stores nothing. -/
def Obligations.UniformMemory : Prop :=
  let place (o : KImmOp) (d : Dev) : W64 := d.readK o.ka.toNat + BitVec.ofInt 64 (8 * o.imm.toInt)
  let load (i : KImmOp → Instr) (sp : Nat) : Prop := ∀ o : KImmOp, ∀ s : State, Ready s (i o) → HoldsK s.dev o.kd.toNat →
    s.dev.ms.wf = true → let q : Acc := ⟨sp, 8, false, none⟩
    ∀ p, Clear s.dev q 0 (place o s.dev) → Reached q 1 s.dev.grp.core s.dev.grp.ctx s.dev [place o s.dev] [p] →
    ∃ t, exec (i o) s = .next t ∧ OnlyUniform s { t with dev := { t.dev with tlbs := s.dev.tlbs, ms := s.dev.ms } } ∧
      { t.dev.ms with snap := s.dev.ms.snap } = s.dev.ms ∧
      ⟨.k o.kd.toNat, s.dev.cur.anchor, BitVec.ofNat 64 (s.dev.readPlace s.dev.grp q 8 p).1, BitVec.allOnes 64⟩ ∈ t.dev.grp.outst ∧
      (∀ n, n ≠ o.kd.toNat → n < 64 → t.dev.kreg n = s.dev.kreg n) ∧ AllGo s t fun _ => none
  let store (i : KImmOp → Instr) (sp : Nat) : Prop := ∀ o : KImmOp, ∀ s : State, Ready s (i o) → s.dev.allHelpers = false →
    s.dev.ms.wf = true → let q : Acc := ⟨sp, 8, true, none⟩
    Quiet s.dev q → ∀ p, Clear s.dev q (s.dev.readK o.kd.toNat) (place o s.dev) →
    Reached q 2 s.dev.grp.core s.dev.grp.ctx s.dev [place o s.dev] [.phys p] →
    ∃ t, exec (i o) s = .next t ∧ OnlyAccess s t ∧
      StoredTo s.dev t.dev s.dev.grp.core [(p, leBytes 8 (s.dev.readK o.kd.toNat).toNat)] ∧ AllGo s t fun _ => none
  let helped (i : KImmOp → Instr) : Prop := ∀ o : KImmOp, ∀ s : State, Ready s (i o) → s.dev.allHelpers = true →
    ∃ t, exec (i o) s = .next t ∧ OnlyFibres s t ∧ AllGo s t fun _ => none
  load .kldG 0 ∧ load .kldS 1 ∧ store .kstG 0 ∧ store .kstS 1 ∧ helped .kstG ∧ helped .kstS

namespace Sys2Proof.Stmt

open Machine

/-! ## Events (07: R165 to R172) -/

/-- The token in bits 63 to 32 of a value (R165). -/
def TokenIn (v : W64) : W32 := v.extractLsb' 32 32

/-- A token of a listed kind whose NAME bits lie inside its listed field (R165). -/
def GoodToken (t : W32) : Prop :=
  let name := t.toNat % 2 ^ 28
  match t.toNat / 2 ^ 28 with
  | 1 => name < 2 ^ 19
  | 2 => True
  | 3 => name / 2 ^ 18 ≤ 511 ∨ name / 2 ^ 18 = 0x3FF
  | 4 => True
  | 5 => name < 256
  | 6 => True
  | 7 => name < 32
  | _ => False

/-- KIND. -/
def KindOf (t : W32) : Nat := t.toNat / 2 ^ 28

/-- A mailbox token with its core named: 0x3FF is the core of the party that uses it (R165). -/
def Named (core : Nat) (t : W32) : Nat :=
  if KindOf t = 3 ∧ t.toNat / 2 ^ 18 % 2 ^ 10 = 0x3FF then 3 * 2 ^ 28 + core * 2 ^ 18 + t.toNat % 2 ^ 18 else t.toNat

/-- Slot `i` of a warp is the one that holds a token. -/
def HoldsToken (w : Warp) (t : W32) (i : Nat) (p : PSlot) : Prop :=
  w.pend[i]? = some (some p) ∧ Named w.core p.token = Named w.core t ∧
  ∀ j < i, ∀ q, w.pend[j]? = some (some q) → Named w.core q.token ≠ Named w.core t

/-- Slot `i` is the lowest one that holds no token. -/
def FirstFree (w : Warp) (i : Nat) : Prop := w.pend[i]? = some none ∧ ∀ j < i, w.pend[j]? ≠ some none

/-- The write pointer that a copy-completion token names on a core, its threshold reached in serial order modulo 2^25 (R165). -/
def CopyDone (d : Dev) (core ctx : Nat) (t : W32) (p : W64) : Prop :=
  KindOf t = 2 ∧ p = ((d.core core).chan ctx (t.toNat / 2 ^ 25 % 8)).wp ∧
  (p.toNat / 2 ^ 8 % 2 ^ 25 + 2 ^ 25 - t.toNat % 2 ^ 25) % 2 ^ 25 < 2 ^ 24

/-- Warps outside the batch are unchanged; for those with a fibre in it a relation holds. -/
def EachWarp (s t : State) (rel : Warp → Warp → Prop) : Prop :=
  ∀ c n w, s.dev.warp? c n = some w → ∃ x, t.dev.warp? c n = some x ∧
    ((c = s.dev.cur.core ∧ ∃ l, (n, l) ∈ s.dev.cur.members) → rel w x) ∧
    (¬(c = s.dev.cur.core ∧ ∃ l, (n, l) ∈ s.dev.cur.members) → x = w)

/-- Every fibre of the batch goes on with its region closed, and its registers are as before (R253). -/
def AllClose (s t : State) : Prop :=
  OthersKept s.dev t.dev ∧ ∀ f ∈ s.dev.active, ∃ g, t.dev.fibre? f.core f.slot f.lane = some g ∧ Linked f g none ∧ Closed f g

/-- No fibre of the batch has an access that can still fault. -/
def NoneLate (d : Dev) : Prop := ∀ f ∈ d.active, f.late = none

/-- A context's record with a change, and the rest of the hub as before. -/
def CtxChanged (h : Hub) (ctx : Nat) (upd : Ctx → Ctx) : Hub := { h with ctxs := h.ctxs.map fun c => if c.no = ctx then upd c else c }

/-- The state after a release of the batch's core at a scope (R306), which a batch of helper fibres alone does not make (R182). -/
def Released (s : State) (core sc : Nat) : State :=
  if s.dev.allHelpers then s else { s with dev := s.dev.release core sc }

/-- A region-closing instruction that changes the batch's context and releases the core's stores at a scope, unless the batch is of
helper fibres alone. -/
def ContextClose (i : Instr) (sc : Nat) (upd : Dev → Ctx → Ctx) : Prop :=
  ∀ s : State, Ready s i → NoneLate s.dev → let e := Released s s.dev.cur.core sc
    ∃ t, exec i s = .next t ∧ OnlyFibres e { t with dev := { t.dev with hub := s.dev.hub } } ∧ AllClose e t ∧
      t.dev.hub = if s.dev.allHelpers then s.dev.hub else CtxChanged s.dev.hub s.dev.grp.ctx (upd s.dev)

end Sys2Proof.Stmt

/-- R168, R171, R172: ARM places a token that is not armed in the lowest free slot of each warp of the batch, latched at once where a copy has
reached its threshold; DISARM empties the slot that holds it; POST releases and sends the value; EVSET and EVCLR set and clear one bit. A
bad token traps, and so does an ARM of an upcall role or without a free slot, and a POST of another kind. -/
def Obligations.TokensPostsAndEventBits : Prop :=
  (∀ o : K1Op, ∀ s : State, Ready s (.arm o) → let t := TokenIn (s.dev.readK o.ka.toNat)
    GoodToken t → KindOf t ≠ 4 →
    (∀ c n w, s.dev.warp? c n = some w → (∃ l, (n, l) ∈ s.dev.cur.members) → c = s.dev.cur.core →
      (∃ i p, HoldsToken w t i p) ∨ ∃ i, FirstFree w i) →
    ∃ u, exec (.arm o) s = .next u ∧ OnlyWarps s { u with dev := { u.dev with groups := s.dev.groups } } ∧
      u.dev.groups = (s.dev.groups.map fun g => if g.gid = s.dev.cur.gid ∧ KindOf t = 2 then { g with gwx := true } else g) ∧
      EachWarp s u (fun w x => ((∃ i p, HoldsToken w t i p) → x = w) ∧
        ((¬∃ i p, HoldsToken w t i p) → ∃ i now, FirstFree w i ∧ x = { w with pend := w.pend.set i (some ⟨t, now, 0⟩) } ∧
          ∀ p, now = some p ↔ CopyDone s.dev s.dev.cur.core s.dev.grp.ctx t p)) ∧ AllGo s u fun _ => none) ∧
  (∀ o : K1Op, Traps (.arm o) (fun d => let t := TokenIn (d.readK o.ka.toNat)
      ¬GoodToken t ∨ KindOf t = 4 ∨ ∃ n l w, (n, l) ∈ d.cur.members ∧ d.warp? d.cur.core n = some w ∧
        (¬∃ i p, HoldsToken w t i p) ∧ ¬∃ i, FirstFree w i) 13 0
    (fun d _ => (TokenIn (d.readK o.ka.toNat)).setWidth 64) KeepsIll) ∧
  (∀ o : K1Op, ∀ s : State, Ready s (.disarm o) → let t := TokenIn (s.dev.readK o.ka.toNat)
    ∃ u, exec (.disarm o) s = .next u ∧ OnlyWarps s u ∧
      EachWarp s u (fun w x => (∀ i p, HoldsToken w t i p → x = { w with pend := w.pend.set i none }) ∧
        ((¬∃ i p, HoldsToken w t i p) → x = w)) ∧ AllGo s u fun _ => none) ∧
  (∀ o : K2Op, ∀ s : State, Ready s (.post o) → NoneLate s.dev → let t := TokenIn (s.dev.readK o.kd.toNat)
    GoodToken t → KindOf t = 3 → let src := s.dev.cur.core
    let dst := if t.toNat / 2 ^ 18 % 2 ^ 10 = 0x3FF then src else t.toNat / 2 ^ 18 % 2 ^ 10
    let sc := if dst = src then 3 else if dst / 16 = src / 16 then 4 else 5
    let a : Arrival := ⟨s.dev.grp.ctx, dst, BitVec.ofNat 32 (Named src t), s.dev.readK o.ka.toNat, none, sc⟩
    let e := Released s src sc
    ∃ u, exec (.post o) s = .next u ∧
      OnlyFibres e { u with dev := { u.dev with arrivals := s.dev.arrivals, posts := s.dev.posts } } ∧ AllClose e u ∧
      (s.dev.allHelpers = true → u.dev.arrivals = s.dev.arrivals ∧ u.dev.posts = s.dev.posts) ∧
      (s.dev.allHelpers = false →
        u.dev.arrivals = (if dst = src then s.dev.arrivals ++ [a] else s.dev.arrivals) ∧
        u.dev.posts = if dst = src then s.dev.posts else s.dev.posts ++ [⟨s.dev.grp.ctx, src, a⟩])) ∧
  (∀ o : K2Op, Traps (.post o) (fun d => let t := TokenIn (d.readK o.kd.toNat)
      NoneLate d ∧ (¬GoodToken t ∨ KindOf t ≠ 3)) 13 0 (fun d _ => (TokenIn (d.readK o.kd.toNat)).setWidth 64) KeepsIll) ∧
  (∀ o : K1Op, ContextClose (.evset o) 5 fun d c =>
    { c with events := c.events ||| BitVec.ofNat 256 (2 ^ ((d.readK o.ka.toNat).toNat % 256)) }) ∧
  ∀ o : K1Op, ContextClose (.evclr o) 5 fun d c =>
    let bit := BitVec.ofNat 256 (2 ^ ((d.readK o.ka.toNat).toNat % 256))
    { c with events := c.events &&& ~~~bit, errors := c.errors &&& ~~~bit }

namespace Sys2Proof.Stmt

open Machine

/-- Nothing changes but fibres, warps, the groups' GWX and what is in flight to their uniform registers, snapshots, arrivals, and the
counter of free values. -/
def OnlyDelivery (s t : State) : Prop :=
  t.agenda = s.agenda ∧ t.pwr = s.pwr ∧ t.fw = s.fw ∧
  { t.dev with fibres := s.dev.fibres, warps := s.dev.warps, groups := s.dev.groups, ms := s.dev.ms, arrivals := s.dev.arrivals,
               free := s.dev.free } = s.dev ∧
  { t.dev.ms with snap := s.dev.ms.snap } = s.dev.ms ∧
  ∀ n g, s.dev.group? n = some g → ∃ h, t.dev.group? n = some h ∧ { h with gwx := g.gwx, infl := g.infl, outst := g.outst } = g ∧
    ∀ o ∈ g.outst, (∀ m, o.reg = .k m → m < 55) → o ∈ h.outst

/-- What binding `b` of a warp has at once: the payload, and the slot that an arrival leaves (R169). -/
def HasArrived (d : Dev) (w : Warp) (ctx : Nat) (b p : W64) (slot : Option Nat) : Prop :=
  let latched (i : Nat) (p : W64) : Prop :=
    ∃ q, HoldsToken w (TokenIn b) i q ∧ q.latched = some p ∧ w.evmask.getLsbD i = false
  (∃ i, slot = some i ∧ latched i p) ∨ (slot = none ∧ (∀ i p, ¬latched i p) ∧ CopyDone d w.core ctx (TokenIn b) p)

/-- A warp has taken an event of binding `b` with payload `p`: k55 to k63, and it is parked no longer (R165, R169). -/
def TookEvent (b p : W64) (w x : Warp) : Prop :=
  x.kd = [(TokenIn b).setWidth 64, p, 0, 0, 0, 0, 0, 0, 0] ∧ x.park = none ∧
  { x with kd := w.kd, park := w.park, pend := w.pend } = w

/-- A fibre of a warp that took an event continues at the binding's handler, its registers as before (R169, R54). -/
def AtHandler (d : Dev) (gid : Nat) (b : W64) (f g : Fibre) : Prop :=
  { g with age := f.age, ready := f.ready, cohort := f.cohort, pace := f.pace } = { f with
    wait := .none
    pc := ((d.group? gid).map Group.entry).getD 0 + (b.extractLsb' 0 32).setWidth 48 }

/-- The lowest binding of a parked warp to which an arrival is of use now: its group runs, it is not stopped, and the token is not armed in
a masked slot (R169, R250). -/
def WakesAt (d : Dev) (w : Warp) (t : W32) (i : Nat) : Prop :=
  ∃ bs b, w.park = some bs ∧ bs[i]? = some b ∧ Named w.core (TokenIn b) = Named w.core t ∧
    (∀ j < i, ∀ c, bs[j]? = some c → Named w.core (TokenIn c) ≠ Named w.core t) ∧
    (∃ g, d.group? w.gid = some g ∧ g.stat = .running) ∧ d.isStopped w = false ∧
    ∀ k q, HoldsToken w t k q → w.evmask.getLsbD k = false

/-- An arrival is for a warp's context, core and, for KIND 7, group (R166). -/
def Hears (d : Dev) (a : Arrival) (w : Warp) : Prop :=
  w.core = a.core ∧ (∃ g, d.group? w.gid = some g ∧ g.ctx = a.ctx) ∧ ∀ n, a.gid = some n → w.gid = n

/-- An arrival wakes a warp at binding `i`, as the arrivals of the cycle are dealt out (R166, R169). -/
def WakesNow (d : Dev) (a : Arrival) (w : Warp) (i : Nat) : Prop :=
  Hears d a w ∧ ∃ h ∈ d.wakes w.core [], h.arr = a ∧ h.slot = w.slot ∧ h.bind_ = i

/-- R166, R169: how the arrivals of a cycle are dealt out to the parked warps of a core. Each wake is of an arrival there, at the lowest
binding of the warp that has its token, and one for each warp; a warp that an arrival could wake at a binding is woken at that one or a lower
one, unless the arrival, for one listener, goes to a warp in a lower slot; and such an arrival wakes one warp. -/
def DealtOut (d : Dev) (core : Nat) : Prop :=
  let ws := d.wakes core []
  let one (a : Arrival) : Prop := KindOf a.token ∉ [1, 2, 7]
  (∀ h ∈ ws, h.arr ∈ d.arrivals ∧ ∃ w ∈ d.warps, w.core = core ∧ w.slot = h.slot ∧ Hears d h.arr w ∧ WakesAt d w h.arr.token h.bind_) ∧
  (ws.map Wake.slot).Nodup ∧ (∀ h ∈ ws, one h.arr → (ws.filter fun k => k.arr == h.arr).length ≤ d.arrivals.count h.arr) ∧
  ∀ w ∈ d.warps, w.core = core → ∀ a ∈ d.arrivals, Hears d a w → ∀ i, WakesAt d w a.token i →
    (∃ h ∈ ws, h.slot = w.slot ∧ h.bind_ ≤ i) ∨ (one a ∧ ∃ h ∈ ws, h.arr = a ∧ h.slot < w.slot)

/-- An arrival finds its token armed in a slot of a warp that holds no arrival yet. -/
def FindsArmed (d : Dev) (a : Arrival) (w : Warp) (i : Nat) (q : PSlot) : Prop :=
  Hears d a w ∧ HoldsToken w a.token i q ∧ q.latched = none

/-- A warp after an arrival latched in slot `i`. -/
def Latched (a : Arrival) (w x : Warp) (i : Nat) (q : PSlot) : Prop :=
  x = { w with pend := w.pend.set i (some { q with latched := some a.payload, scope := a.scope }) }

/-- What an arrival for all listeners does to a warp and its fibres (R166). -/
def HeardByAll (s t : State) (a : Arrival) (w x : Warp) : Prop :=
  let d := s.dev
  (∀ i, WakesNow d a w i → TookEvent (nth (w.park.getD []) i 0) a.payload w x ∧ x.pend = w.pend ∧
    ∀ l f, d.fibre? w.core w.slot l = some f → ∃ g, t.dev.fibre? w.core w.slot l = some g ∧
      AtHandler d w.gid (nth (w.park.getD []) i 0) f g) ∧
  ((¬∃ i, WakesNow d a w i) → (∀ l, t.dev.fibre? w.core w.slot l = d.fibre? w.core w.slot l) ∧
    (∀ i q, FindsArmed d a w i q → Latched a w x i q) ∧ ((¬∃ i q, FindsArmed d a w i q) → x = w))

/-- The lowest slot among warps that satisfy a predicate. -/
def LowestWarp (d : Dev) (w : Warp) (p : Warp → Prop) : Prop := p w ∧ ∀ v ∈ d.warps, p v → w.slot ≤ v.slot

end Sys2Proof.Stmt

/-- R169, R165, R54, R404: WAITANY by a whole warp delivers what the lowest binding that has something has; where no binding has anything it
parks the warp at its PC. The warp is the monitor's where it binds the debug token (log 50). -/
def Obligations.WaitAny : Prop :=
  ∀ o : KWaitOp, ∀ s : State, Ready s (.waitany o) → let d := s.dev
    let bs := (List.range (o.n.toNat + 1)).map fun i => d.readK (o.ka.toNat + i)
    ∀ w, d.warp? d.cur.core d.cur.anchor = some w → NoneLate d →
      (∀ f ∈ d.fibres, f.core = d.cur.core → f.slot = d.cur.anchor → (f.slot, f.lane) ∈ d.cur.members) →
      (∀ m ∈ d.cur.members, m.1 = d.cur.anchor) →
      (∀ b ∈ bs, GoodToken (TokenIn b) ∧ (w.occ ≠ none → KindOf (TokenIn b) ≠ 4)) →
      let m := { w with mon := bs.any fun b => TokenIn b == 0x3FFFFFFF#32 }
      ∃ t, exec (.waitany o) s = .next t ∧ OnlyDelivery s t ∧ OthersKept d t.dev ∧ t.dev.arrivals = d.arrivals ∧
        (∀ c n, ¬(c = d.cur.core ∧ n = d.cur.anchor) → t.dev.warp? c n = d.warp? c n) ∧
        ∃ x, t.dev.warp? d.cur.core d.cur.anchor = some x ∧
          (∀ (i : Nat) (b p : W64) (slot : Option Nat), bs[i]? = some b → HasArrived d w d.grp.ctx b p slot →
            (∀ j < i, ∀ c : W64, bs[j]? = some c → ∀ q k, ¬HasArrived d w d.grp.ctx c q k) →
            TookEvent b p m x ∧
            (slot = none → x.pend = w.pend) ∧
            (∀ k q, slot = some k → w.pend[k]? = some (some q) →
              x.pend = w.pend.set k (some { q with latched := none, scope := 0 })) ∧
            ∀ f ∈ d.active, ∃ g, t.dev.fibre? f.core f.slot f.lane = some g ∧ AtHandler d w.gid b f g) ∧
          ((∀ b ∈ bs, ∀ p k, ¬HasArrived d w d.grp.ctx b p k) → x = { m with park := some bs } ∧
            ∀ f ∈ d.active, ∃ g, t.dev.fibre? f.core f.slot f.lane = some g ∧
              { g with ready := f.ready, pace := f.pace } = { f with wait := .parked })

namespace Sys2Proof.Stmt

open Machine

/-- At most one saved record satisfies a predicate. -/
def AtMostOne (d : Dev) (p : Saved → Prop) : Prop :=
  ∀ (i j : Nat) (x y : Saved), d.saved[i]? = some x → d.saved[j]? = some y → p x → p y → i = j

/-- Memory but for the snapshots. -/
def SameMemory (a b : MemSys) : Prop := { a with snap := [] } = { b with snap := [] }

/-- Something has happened to the saved record that `p` names, if there is one: it is read from its area, changed, and written there again;
where stage 2 does not translate the area, it waits until that is read back (R170, R251, R269, R404). -/
def SavedActed (d e : Dev) (p : Saved → Prop) (op : SavedOp) : Prop :=
  e.saved.length = d.saved.length ∧ ((∀ x ∈ d.saved, ¬p x) → SameMemory e.ms d.ms) ∧
  ∀ (i : Nat) (x : Saved), d.saved[i]? = some x → ∃ y, e.saved[i]? = some y ∧ (¬p x → y = x) ∧
    (p x → let vf := d.vfOf x.group.ctx
      let later : Prop := y = { op.on x with due := x.due ++ [op] } ∧ SameMemory e.ms d.ms
      match d.readIpa vf x.area (saveLen x.warps x.fibres) with
      | .error _ => later
      | .ok b =>
        let z := { op.on (x.reload b) with due := [] }
        match d.writeIpa vf x.area z.bytes with
        | .error _ => later
        | .ok f => y = z ∧ SameMemory e.ms f.ms)

/-- An arrival reaches the warps of a saved record (R170): each warp with its token armed and unlatched latches it, or the one named. -/
def LatchRules : Prop :=
  ∀ (s : Saved) (wid : Option Nat) (t : W32) (p : W64) (sc : Nat), let e := (SavedOp.latch wid t p sc).on s
    { e with warps := s.warps } = s ∧ e.warps.length = s.warps.length ∧
    ∀ (i : Nat) (w x : Warp), s.warps[i]? = some w → e.warps[i]? = some x →
      (∀ k q, HoldsToken w t k q → q.latched = none → (∀ n, wid = some n → w.warpid = n) →
        x = { w with pend := w.pend.set k (some { q with latched := some p, scope := sc }) }) ∧
      ((¬∃ k q, HoldsToken w t k q ∧ q.latched = none) ∨ (∃ n, wid = some n ∧ w.warpid ≠ n) → x = w)

end Sys2Proof.Stmt

/-- R166, R169, R170, R171: of the arrivals of one token the first is delivered first. One for all listeners reaches every listening warp, one
for one listener the lowest-slot warp that it wakes or else the lowest-slot warp that has it armed, or else a saved one; a mailbox
without a listener is dropped. A post reaches its core behind the earlier ones of its source to that mailbox. -/
def Obligations.EventDelivery : Prop :=
  (∀ s : State, ∀ y, s.dev.arg.c ≠ 5 → s.dev.arg.c ≠ 6 → s.dev.arrivals[s.dev.arg.b]? = some y →
    (s.dev.warps.map fun w => (w.core, w.slot)).Nodup →
    let d := s.dev
    let same (a : Arrival) : Prop := (a.ctx, a.core, a.token, a.gid) = (y.ctx, y.core, y.token, y.gid)
    DealtOut d y.core ∧
    ∃ t a l1 l2, exec .eventDelivery s = .next t ∧ d.arrivals = l1 ++ a :: l2 ∧ same a ∧ (∀ b ∈ l1, ¬same b) ∧ t.dev.arrivals = l1 ++ l2 ∧
      let toAll : Prop := KindOf a.token = 1 ∨ KindOf a.token = 2 ∨ KindOf a.token = 7
      let wakes (w : Warp) : Prop := ∃ i, WakesNow d a w i
      let finds (w : Warp) : Prop := ∃ i q, FindsArmed d a w i q
      let taken (w : Warp) : Prop := LowestWarp d w wakes ∨ ((¬∃ w ∈ d.warps, wakes w) ∧ LowestWarp d w finds)
      -- a saved warp with the token armed may take it where every listener, or no resident one, does
      let away (x : Saved) : Prop := Saved.hears a x = true ∧ d.armedSaved a.token x ≠ []
      (toAll → ∀ c n w, d.warp? c n = some w → ∃ x, t.dev.warp? c n = some x ∧ HeardByAll s t a w x) ∧
      (¬toAll → (∀ w ∈ d.warps, taken w → (∃ x, t.dev.warp? w.core w.slot = some x ∧ HeardByAll s t a w x) ∧
          ∀ c n, (c, n) ≠ (w.core, w.slot) → t.dev.warp? c n = d.warp? c n) ∧
        ((∀ w ∈ d.warps, ¬taken w) → t.dev.warps = d.warps ∧ t.dev.fibres = d.fibres)) ∧
      ((∀ x ∈ d.saved, ¬away x) ∨ (¬toAll ∧ ∃ w ∈ d.warps, taken w) → OnlyDelivery s t) ∧
      (AtMostOne d away → (∀ w ∈ d.warps, ¬Hears d a w) →
        (toAll → SavedActed d t.dev away (.latch none a.token a.payload a.scope)) ∧
        (¬toAll → ∀ x ∈ d.saved, away x → ∀ n, (d.armedSaved a.token x).head? = some n → (∃ w ∈ x.warps, w.warpid = n) →
          AtMostOne d (fun z => Saved.hears a z = true ∧ z.group.gid = x.group.gid) →
          SavedActed d t.dev (fun z => Saved.hears a z = true ∧ z.group.gid = x.group.gid) (.latch (some n) a.token a.payload a.scope)))) ∧
  LatchRules ∧
  ∀ s : State, ∀ p, s.dev.posts[s.dev.arg.a]? = some p → ∃ t q l1 l2, exec .mailboxArrival s = .next t ∧
    s.dev.posts = l1 ++ q :: l2 ∧ (q.ctx, q.src, q.arr.token) = (p.ctx, p.src, p.arr.token) ∧
    (∀ r ∈ l1, (r.ctx, r.src, r.arr.token) ≠ (p.ctx, p.src, p.arr.token)) ∧
    t = { s with dev := { s.dev with posts := l1 ++ l2, arrivals := s.dev.arrivals ++ [q.arr] } }

namespace Sys2Proof.Stmt

open Machine

/-! ## Waits that end (06: R140 to R142; 07: R173, R174; 01: R68) -/

/-- A fibre has gone on after the instruction it waited at, its registers as before. -/
def Passed (f g : Fibre) : Prop := g.wait = .none ∧ WentOn f g ∧ Linked f g none ∧ KeepsRest f { g with wait := f.wait }

/-- A barrier that a saved record waits at is complete: its fibres there go on, and its own barrier record is 0 (R269). -/
def PassRules : Prop :=
  ∀ (s : Saved) (team : Bool) (n now free : Nat), let e := (SavedOp.pass team n now free).on s
    let there (f : Fibre) : Prop := f.wait = if team then .tbar n else .bar n
    { e with fibres := s.fibres, group := s.group } = s ∧ { e.group with bars := s.group.bars, tbars := s.group.tbars } = s.group ∧
    (s.partial_ = true → e.group = s.group) ∧
    (s.partial_ = false → s.group.bars.length = 8 → s.group.tbars.length = 8 → n < 8 →
      (∀ m, nth e.group.bars m 0 = if team = false ∧ m = n then 0 else nth s.group.bars m 0) ∧
      ∀ m, nth e.group.tbars m 0 = if team = true ∧ m = n then 0 else nth s.group.tbars m 0) ∧
    e.fibres.length = s.fibres.length ∧
    ∀ (i : Nat) (f g : Fibre), s.fibres[i]? = some f → e.fibres[i]? = some g → (there f → Passed f g) ∧ (¬there f → g = f)

/-- The batch's fibres are those of one group. -/
def OneGroup (d : Dev) : Prop := d.cur.gid ≠ 0 ∧ ∀ f ∈ d.fibres, d.cur.has f = true → d.gidOf f = d.cur.gid

/-- Every fibre of the batch waits, its stall count noted, and the others are unchanged. -/
def AllWait (s t : State) (w : Wait) : Prop :=
  OthersKept s.dev t.dev ∧ ∀ f ∈ s.dev.active, ∃ g, t.dev.fibre? f.core f.slot f.lane = some g ∧
    { g with ready := f.ready, pace := f.pace } = { f with wait := w }

/-- The record of the warps that have arrived at a barrier: those with a fibre there whose every unretired fibre waits there. -/
def ArrivedIs (m : BitVec 32) (mine there : Fibre → Prop) : Prop :=
  ∀ i < 32, m.getLsbD i = true ↔ (∃ f, f.warpid = i ∧ mine f) ∧ ∀ f, mine f → f.warpid = i → there f

/-- A set of fibres of a slot that wait at REJOIN and name only fibres of the set, among those unretired (R142). -/
def RejoinClosed (d : Dev) (core slot : Nat) (u : Fibre → Prop) : Prop :=
  ∀ f, u f → f ∈ d.inSlot core slot ∧ ∃ m, f.wait = .rejoin m ∧ ∀ g ∈ d.inSlot core slot, m.getLsbD g.lane = true → u g

end Sys2Proof.Stmt

/-- R173, R269: at BAR the fibres wait; the barrier completes, and every fibre of the group, resident or saved, goes on after its own BAR, when
none is missing; until then the arrival bitmap names the warps whose fibres all wait there. -/
def Sys2Proof.Stmt.GroupBarrierRules : Prop :=
  ∀ o : KNOp, ∀ s : State, Ready s (.bar o) → OneGroup s.dev → let d := s.dev
    let resident (f : Fibre) : Prop := f ∈ d.fibres ∧ d.gidOf f = d.cur.gid
    let kept (f : Fibre) : Prop := ∃ sv ∈ d.saved, sv.group.gid = d.cur.gid ∧ f ∈ sv.fibres
    let mine (f : Fibre) : Prop := resident f ∨ kept f
    -- a fibre of the batch is there from now on
    let there (f : Fibre) : Prop := f.wait = .bar o.n.toNat ∨ (f ∈ d.fibres ∧ d.cur.has f = true)
    let all_ : Prop := ∀ f, mine f → there f
    let waits (sv : Saved) : Prop := sv.group.gid = d.cur.gid ∧ ∃ f ∈ sv.fibres, f.wait = .bar o.n.toNat
    (∀ f, kept f → f ∉ d.fibres) → AtMostOne d waits →
    ∃ t, exec (.bar o) s = .next t ∧ t.agenda = s.agenda ∧ t.pwr = s.pwr ∧ t.fw = s.fw ∧
      { t.dev with fibres := d.fibres, groups := d.groups, saved := d.saved, ms := d.ms, free := d.free } = d ∧
      (all_ → SavedActed d t.dev waits (.pass false o.n.toNat d.cycle d.free) ∧
        ∀ c n l f, d.fibre? c n l = some f → ∃ g, t.dev.fibre? c n l = some g ∧
          (d.gidOf f = d.cur.gid → Passed f g) ∧ (d.gidOf f ≠ d.cur.gid → g = f)) ∧
      (¬all_ → AllWait s t (.bar o.n.toNat) ∧ t.dev.saved = d.saved ∧ t.dev.ms = d.ms) ∧
      ∀ k g, d.group? k = some g → ∃ h, t.dev.group? k = some h ∧ { h with bars := g.bars } = g ∧ (k ≠ d.cur.gid → h = g) ∧
        (k = d.cur.gid → g.bars.length = 8 →
          (∀ m, m ≠ o.n.toNat → nth h.bars m 0 = nth g.bars m 0) ∧ (all_ → nth h.bars o.n.toNat 0 = 0) ∧
          (¬all_ → ArrivedIs (nth h.bars o.n.toNat 0) mine there))

/-- R174, R269: at TBAR the core's stores are released at CLUSTER scope and the fibres wait; when every group of the team that holds an
unretired fibre, resident or saved, has arrived, every fibre of the team goes on after its own TBAR, with an acquire by each of its cores;
until then the group's own record names the warps whose fibres all wait there. -/
def Sys2Proof.Stmt.TeamBarrierRules : Prop :=
  ∀ o : KNOp, ∀ s : State, Ready s (.tbar o) → OneGroup s.dev → ∀ g, s.dev.group? s.dev.cur.gid = some g → let d := s.dev
    let r := d.release d.cur.core 4
    let e := r.updActive fun f => { f with wait := .tbar o.n.toNat }
    let inTeam (n : Nat) : Prop := n ≠ 0 ∧ ∃ x ∈ e.team g, x.gid = n
    let done : Prop := (∃ x ∈ e.team g, ∃ f ∈ e.fibresOf x.gid, f.wait = .tbar o.n.toNat) ∧
      ∀ x ∈ e.team g, e.teamArrived o.n.toNat x = true
    let waits (sv : Saved) : Prop := inTeam sv.group.gid ∧ ∃ f ∈ sv.fibres, f.wait = .tbar o.n.toNat
    let mine (f : Fibre) : Prop := f ∈ e.fibresOf d.cur.gid
    AtMostOne d waits → ((e.team g).map Group.gid).Nodup →
    ∃ t, exec (.tbar o) s = .next t ∧ t.agenda = s.agenda ∧ t.pwr = s.pwr ∧ t.fw = s.fw ∧
      { t.dev with fibres := r.fibres, groups := d.groups, saved := d.saved, ms := r.ms, free := d.free } = r ∧
      (¬done → AllWait { s with dev := r } t (.tbar o.n.toNat) ∧ t.dev.ms = r.ms ∧ t.dev.saved = d.saved) ∧
      (done → (∃ k, SavedActed r t.dev waits (.pass true o.n.toNat d.cycle k)) ∧
        (∀ c n l f, r.fibre? c n l = some f → ∃ h, t.dev.fibre? c n l = some h ∧
          (inTeam (r.gidOf f) → Passed f h) ∧ (¬inTeam (r.gidOf f) → h = f)) ∧
        ∀ x ∈ e.team g, ∀ l ∈ t.dev.ms.snap, l.core ≠ x.core) ∧
      ∀ k x, d.group? k = some x → ∃ y, t.dev.group? k = some y ∧ { y with tbars := x.tbars } = x ∧
        (∀ m, m ≠ o.n.toNat → nth y.tbars m 0 = nth x.tbars m 0) ∧
        (done → (inTeam k → x.tbars.length = 8 → nth y.tbars o.n.toNat 0 = 0) ∧ (¬inTeam k → y = x)) ∧
        (¬done → (k ≠ d.cur.gid → y = x) ∧
          (k = d.cur.gid → x.tbars.length = 8 → ArrivedIs (nth y.tbars o.n.toNat 0) mine fun f => f.wait = .tbar o.n.toNat))

/-- R173, R269: at BAR the fibres wait; the barrier completes, and every fibre of the group, resident or saved, goes on after its own BAR, when
none is missing; until then the arrival bitmap names the warps whose fibres all wait there.

R174, R269: at TBAR the core's stores are released at CLUSTER scope and the fibres wait; when every group of the team that holds an
unretired fibre, resident or saved (log 56), has arrived, every fibre of the team goes on after its own TBAR, with an acquire by each of its
cores; until then the group's own record names the warps whose fibres all wait there. -/
def Obligations.Barriers : Prop := Stmt.GroupBarrierRules ∧ Stmt.TeamBarrierRules ∧ Stmt.PassRules

/-- R140, R141, R142, R68, R28: the waits of REJOIN and YIELD end, a rejoin deadlock traps in the fibres of the largest set that can never
be released, and outstanding results arrive, each register with the latest value owed to each of its bits. -/
def Obligations.WaitsEnd : Prop :=
  (∀ s : State, let d := s.dev; let core := d.arg.a; let slot := d.arg.b; let m : LaneMap := d.arg.v.setWidth 32
    ∃ t, exec .rejoinRelease s = .next t ∧ OnlyFibres s t ∧
      ((∃ f ∈ d.inSlot core slot, f.wait = .rejoin m) ∧ (∀ f ∈ d.inSlot core slot, m.getLsbD f.lane = true → f.wait = .rejoin m) →
        ∀ c n l f, d.fibre? c n l = some f → ∃ g, t.dev.fibre? c n l = some g ∧
          (c = core ∧ n = slot ∧ f.wait = .rejoin m → Passed f g) ∧ (¬(c = core ∧ n = slot ∧ f.wait = .rejoin m) → g = f)) ∧
      (¬((∃ f ∈ d.inSlot core slot, f.wait = .rejoin m) ∧ ∀ f ∈ d.inSlot core slot, m.getLsbD f.lane = true → f.wait = .rejoin m) →
        t = s)) ∧
  (∀ s : State, let d := s.dev; let core := d.arg.a; let slot := d.arg.b
    (∀ f ∈ d.inSlot core slot, f.lane < 32) → ((d.inSlot core slot).map Fibre.lane).Nodup →
    (∀ f ∈ d.inSlot core slot, ∀ m, f.wait = .rejoin m → ∃ g ∈ d.inSlot core slot, m.getLsbD g.lane = true ∧ g.wait ≠ .rejoin m) →
    let dead (f : Fibre) : Prop := ∃ u, RejoinClosed d core slot u ∧ u f
    ∃ t, exec .rejoindl s = .next t ∧ t.agenda = s.agenda ∧ t.pwr = s.pwr ∧ t.fw = s.fw ∧
      { t.dev with fibres := d.fibres, groups := d.groups, saved := d.saved, free := d.free } = d ∧
      (∀ n g, d.group? n = some g → ∃ h, t.dev.group? n = some h ∧ { h with stat := g.stat } = g) ∧
      -- of the others at most the cohort changes: those that trap leave it (R274)
      SavedDivided d t.dev dead ∧
      ∀ c n l f, d.fibre? c n l = some f → ∃ g, t.dev.fibre? c n l = some g ∧
        (¬dead f → { g with cohort := f.cohort } = f ∧ (f.cohort = 0 ∨ (∀ z, dead z → z.cohort ≠ f.cohort) → g = f)) ∧
        (dead f → ∃ (m : LaneMap) (w : W64), f.wait = .rejoin m ∧ (∀ i < 32, w.getLsbD (32 + i) = true ↔ ∃ x, dead x ∧ x.lane = i) ∧
          w.setWidth 32 = m ∧ TookTrap d f g 7 0 0 w ∧ (f.late = none → KeepsIll f g))) ∧
  (∀ s : State, let d := s.dev
    ∃ t, exec .yieldWaitEnd s = .next t ∧ OnlyFibres s t ∧ ∀ c n l f, d.fibre? c n l = some f → t.dev.fibre? c n l = some
      (match f.wait with
        | .yielding k => if c = d.arg.a ∧ n = d.arg.b ∧ l = d.arg.c ∧ k ≤ d.cycle then { f with wait := .none, age := d.cycle } else f
        | _ => f)) ∧
  (∀ s : State, let d := s.dev; s.dev.arg.flag = false → let r := d.arg.d
    ∃ t, exec .variableLatencyArrival s = .next t ∧ OnlyFibres s t ∧ ∀ c n l f, d.fibre? c n l = some f →
      ∃ g, t.dev.fibre? c n l = some g ∧ (¬(c = d.arg.a ∧ n = d.arg.b ∧ l = d.arg.c ∧ f.late = none) → g = f) ∧
        (c = d.arg.a ∧ n = d.arg.b ∧ l = d.arg.c ∧ f.late = none → { g with win := f.win, outst := f.outst } = f ∧
          g.outst = f.outst.filter (fun o => !(o.reg == .v r)) ∧ g.win.length = f.win.length ∧ (∀ n, n ≠ r → g.vreg n = f.vreg n) ∧
          (r < f.win.length → ∀ i < 64, (g.vreg r).getLsbD i =
            match (f.outst.filter fun o => o.reg == .v r && o.bits.getLsbD i).getLast? with
            | some o => o.value.getLsbD i
            | none => (f.vreg r).getLsbD i))) ∧
  ∀ s : State, let d := s.dev; s.dev.arg.flag = true → let r := d.arg.d
    ∀ w g, d.warp? d.arg.a d.arg.b = some w → d.group? w.gid = some g →
      let owed := g.outst.filter fun o => o.reg == .k r && (decide (r < 55) || o.slot == d.arg.b)
      ∃ t, exec .variableLatencyArrival s = .next t ∧ t.agenda = s.agenda ∧ t.pwr = s.pwr ∧ t.fw = s.fw ∧
        { t.dev with groups := d.groups, warps := d.warps } = d ∧
        (∀ n x, d.group? n = some x → ∃ y, t.dev.group? n = some y ∧ if n = w.gid then
          { y with ks := x.ks, outst := x.outst } = x ∧ y.outst = x.outst.filter (fun o => !(owed.contains o)) ∧
          ∀ m, nth y.ks m 0 = if m = r ∧ m < 55 ∧ m < x.ks.length then ((owed.getLast?).map Outst.value).getD (nth x.ks m 0) else nth x.ks m 0
          else y = x) ∧
        ∀ c n v, d.warp? c n = some v → ∃ x, t.dev.warp? c n = some x ∧ if c = d.arg.a ∧ n = d.arg.b ∧ 55 ≤ r then
          { x with kd := v.kd } = v ∧ ∀ m, nth x.kd m 0 =
            if m = r - 55 ∧ m < v.kd.length then ((owed.getLast?).map Outst.value).getD (nth v.kd m 0) else nth v.kd m 0
          else x = v

namespace Sys2Proof.Stmt

open Machine

/-! ## Work (07: R178 to R181; 19: R345, R367 to R369) -/

/-- A group holds scratchpad unit `u`. -/
def HasUnit (g : Group) (u : Nat) : Prop := ∃ e ∈ g.spad, e.first ≤ u ∧ u < e.first + e.len

/-- A KICK write of `w` has reached a queue whose descriptor is read (R345): the held index moves only ahead. A stopped queue takes no more of
it (R346); a mapped one is examined again and shows its line while it is behind, an unmapped one raises line 0 (R392). -/
def Kicked (h h' : Hub) (qid : Nat) (w : BitVec 32) : Prop :=
  { h' with queues := h.queues, nextKick := h.nextKick, signals := h.signals, sram := h.sram } = h ∧
  (∀ n, n ≠ qid → h'.queue? n = h.queue? n) ∧
  (∀ q, h.queue? qid = some q → q.refused = true → h' = h) ∧ (h.queue? qid = none → h' = h) ∧
  ∀ q, h.queue? qid = some q → q.refused = false → ∃ x, h'.queue? qid = some x ∧
    let ahead : Prop := 1 ≤ (w - q.h).toNat ∧ (w - q.h).toNat < 2 ^ 31
    x.h = (if ahead then w else q.h) ∧ x.kicks = (if ahead then q.kicks ++ [(h.nextKick, w)] else q.kicks) ∧
    { x with h := q.h, kicks := q.kicks, paused := q.paused, hw := q.hw, ticks := q.ticks, wait := q.wait } = q ∧
    (q.stopped = true → x.hw = q.hw ∧ x.paused = q.paused ∧ h'.signals = h.signals ∧ h'.sram = h.sram) ∧
    (q.stopped = false → (q.hw = none → h'.signals.getLsbD 0 = true) ∧
      ∀ k, q.hw = some k → x.hw = q.hw ∧ x.paused = false ∧ h'.sram = h.sram ∧
        (x.h ≠ q.f → h'.signals.getLsbD (16 + k / 8) = true) ∧ (x.h = q.f → h'.signals = h.signals))

/-- Nothing of the clusters changes but one bin of one cluster. -/
def OnlyBin (d e : Dev) (cl no : Nat) : Prop :=
  (∀ k, k ≠ cl → e.cluster k = d.cluster k) ∧ { e.cluster cl with bins := (d.cluster cl).bins } = d.cluster cl ∧
  ∀ m, m ≠ no → (e.cluster cl).bin? m = (d.cluster cl).bin? m

/-- A bin that holds `recs` has triggered (R368): its oldest records, at most 8, have left for one launch of one group of its shape on its
cluster. -/
def Triggered (d e : Dev) (cl : Nat) (b : Bin) (recs : List BinRec) : Prop :=
  (e.cluster cl).bin? b.no = some { b with
    recs := recs.drop 8
    expires := if recs.length ≤ 8 ∨ b.cd = 0 then none else some (d.cycle + b.cd * 1050) } ∧
  ∃ l : Launch, e.hub = { d.hub with launches := d.hub.launches ++ [l], nextLid := d.hub.nextLid + 1, nextKick := d.hub.nextKick + 1 } ∧
    l.lid = d.hub.nextLid ∧ l.kind = .bin ∧ l.ctx = b.ctx ∧ l.cls = b.cls ∧ l.entry = b.entry ∧ l.warps = b.warps ∧ l.nfib = b.nfib ∧
    l.win = b.win ∧ l.spad = b.spad ∧ l.teams = 1 ∧ l.gpt = 1 ∧ l.core0 = 16 * cl ∧ l.ncore = 16 ∧
    l.image = (recs.take 8).flatMap BinRec.bytes ∧ l.kargs = [BitVec.ofNat 64 (recs.take 8).length, BitVec.ofNat 64 b.no, 0] ∧
    ∀ r, recs.head? = some r → l.launchid = r.launchid

end Sys2Proof.Stmt

/-- R178 to R181, R345: HANDOFF takes what a handle names from the group and holds it for a listener; QPULL leaves the oldest item of a queue,
or all ones, and moves HEAD; ENQ puts a record into a bin, which triggers when it holds COAL; KICK releases and kicks a queue of its
context. Batches of helper fibres alone do none of this. -/
def Sys2Proof.Stmt.WorkInstructionsRules : Prop :=
  (∀ o : K2Op, ∀ s : State, Ready s (.handoff o) → NoneLate s.dev → let d := s.dev; let h := d.readK o.kd.toNat
    let first := h.toNat / 2 ^ 32 % 2 ^ 19; let n := h.toNat % 2 ^ 16; let slot := h.toNat % 16
    (h.toNat / 2 ^ 62 = 0 ∧ ∀ u, first ≤ u → u < first + n → HasUnit d.grp u) ∨ (h.toNat / 2 ^ 62 = 1 ∧ slot ∈ d.grp.aslots) →
    ∃ t, exec (.handoff o) s = .next t ∧ OnlyFibres s { t with dev := { t.dev with groups := d.groups, handoffs := d.handoffs } } ∧
      AllClose s t ∧ (d.allHelpers = true → t.dev.groups = d.groups ∧ t.dev.handoffs = d.handoffs) ∧
      (d.allHelpers = false →
        t.dev.handoffs = d.handoffs ++ [⟨d.grp.ctx, d.cur.core, (d.readK o.ka.toNat).toNat % 2 ^ 28, h⟩] ∧
        -- what it gave no longer is the group's, and its accesses there trap GRANT from now on
        ∀ k g, d.group? k = some g → ∃ x, t.dev.group? k = some x ∧
          { x with spad := g.spad, aslots := g.aslots, gaveUnits := g.gaveUnits, gaveSlots := g.gaveSlots } = g ∧
          (k ≠ d.cur.gid → x = g) ∧
          (k = d.cur.gid → h.toNat / 2 ^ 62 = 0 → x.aslots = g.aslots ∧ (∀ u, HasUnit x u ↔ HasUnit g u ∧ ¬(first ≤ u ∧ u < first + n)) ∧
            ∀ u < 128, first ≤ u → u < first + n → ∀ b < 4096, x.gave g.core (0x1000 * u + b) = true) ∧
          (k = d.cur.gid → h.toNat / 2 ^ 62 = 1 → x.spad = g.spad ∧ x.aslots = g.aslots.filter (· != slot) ∧
            ∀ b < 0x4000, x.gave g.core (0x100000 + 0x4000 * slot + b) = true))) ∧
  (∀ o : K2Op, ∀ s : State, Ready s (.qpull o) → NoneLate s.dev → HoldsK s.dev o.kd.toNat → let d := s.dev
    let look := d.lookQueue d.grp.ctx ((d.readK o.ka.toNat).toNat % 256)
    d.allHelpers = true ∨ look = .empty ∨ (∃ v p n, look = .item v p n) →
    ∃ t, exec (.qpull o) s = .next t ∧ OnlyUniform s { t with dev := { t.dev with ms := d.ms } } ∧ AllClose s t ∧
      (∀ n, n ≠ o.kd.toNat → n < 64 → t.dev.kreg n = d.kreg n) ∧
      (d.allHelpers = true ∨ look = .empty → t.dev.ms = d.ms ∧
        ⟨.k o.kd.toNat, d.cur.anchor, BitVec.allOnes 64, BitVec.allOnes 64⟩ ∈ t.dev.grp.outst) ∧
      (d.allHelpers = false → ∀ v p n, look = .item v p n →
        ⟨.k o.kd.toNat, d.cur.anchor, v, BitVec.allOnes 64⟩ ∈ t.dev.grp.outst ∧
        SameMemory t.dev.ms (d.ms.poke .hub p (leBytes 4 ((n + 1) % 2 ^ 32))) ∧ ∀ l ∈ t.dev.ms.snap, l.core ≠ d.cur.core)) ∧
  (∀ o : K2Op, ∀ s : State, Ready s (.enq o) → NoneLate s.dev → let d := s.dev; let g := d.grp; let cl := g.core / 16
    let off := (d.readK o.kd.toNat).toNat % 2 ^ 19; let n := (d.readK o.ka.toNat).toNat % 1024
    ∀ b, (d.cluster cl).bin? n = some b → b.ctx = g.ctx → b.recs.length < 8 → off % 64 = 0 → d.mayTouch g g.core off = true →
    let e := Released s g.core 5
    let recs := b.recs ++ [⟨leBytes 64 (d.spad g.core off 64), g.launchid⟩]
    ∃ t, exec (.enq o) s = .next t ∧
      OnlyFibres e { t with dev := { t.dev with clusters := d.clusters, hub := d.hub } } ∧ AllClose e t ∧
      (d.allHelpers = true → t.dev.clusters = d.clusters ∧ t.dev.hub = d.hub) ∧
      (d.allHelpers = false → OnlyBin d t.dev cl n ∧
        (recs.length < b.coal → t.dev.hub = d.hub ∧ (t.dev.cluster cl).bin? n = some { b with
          recs := recs, expires := if b.recs ≠ [] then b.expires else if b.cd = 0 then none else some (d.cycle + b.cd * 1050) }) ∧
        (b.coal ≤ recs.length → Triggered d t.dev cl b recs))) ∧
  ∀ o : K1Op, ∀ s : State, Ready s (.kick o) → NoneLate s.dev → let d := s.dev; let v := d.readK o.ka.toNat
    d.queueCtx (v.toNat % 2 ^ 16) = some d.grp.ctx →
    let e := if d.allHelpers then s else { s with dev := (d.release d.cur.core 6).examine (v.toNat % 2 ^ 16) }
    ∃ t, exec (.kick o) s = .next t ∧ OnlyFibres e { t with dev := { t.dev with hub := e.dev.hub } } ∧ AllClose e t ∧
      (d.allHelpers = true → t.dev.hub = d.hub) ∧
      (d.allHelpers = false → Kicked e.dev.hub t.dev.hub (v.toNat % 2 ^ 16) (v.extractLsb' 32 32))

/-- R344, R345, R367, R368: a KICK write from outside, the configuration of a node bin, which is ignored outside its limits, and the end of
a bin's countdown. -/
def Sys2Proof.Stmt.KickWritesAndBinsRules : Prop :=
  (∀ s : State, let e := s.dev.examine s.dev.arg.a
    ∃ t, exec .kickWrite s = .next t ∧ { t with dev := { t.dev with hub := e.hub } } = { s with dev := e } ∧
      Kicked e.hub t.dev.hub s.dev.arg.a (s.dev.arg.v.setWidth 32)) ∧
  (∀ s : State, ∀ b, (s.dev.cluster s.dev.arg.a).bin? s.dev.arg.b = some b →
    ∃ t, exec .binCountdownExpiry s = .next t ∧ { t with dev := { t.dev with clusters := s.dev.clusters, hub := s.dev.hub } } = s ∧
      OnlyBin s.dev t.dev s.dev.arg.a s.dev.arg.b ∧
      ((∃ n, b.expires = some n ∧ n ≤ s.dev.cycle) ∧ b.recs ≠ [] → Triggered s.dev t.dev s.dev.arg.a b b.recs) ∧
      (¬((∃ n, b.expires = some n ∧ n ≤ s.dev.cycle) ∧ b.recs ≠ []) → t = s)) ∧
  ∀ s : State, let a := s.dev.arg; let n (i : Nat) : Nat := nth a.nums i 0
    let good : Prop := a.a < 32 ∧ a.b < 1024 ∧ (∃ c, s.dev.hub.ctx? a.c = some c) ∧ a.d ≤ 3 ∧ 1 ≤ n 0 ∧ n 0 ≤ 8 ∧ n 1 < 2 ^ 16 ∧
      1 ≤ n 2 ∧ n 2 ≤ 32 ∧ 1 ≤ n 3 ∧ n 3 ≤ 32 ∧ 1 ≤ n 4 ∧ n 4 ≤ 16 ∧ 2 ≤ n 5 ∧ n 5 ≤ 128 ∧ GoodTarget a.v
    ∃ t, exec .nodeBinConfiguration s = .next t ∧ { t with dev := { t.dev with clusters := s.dev.clusters } } = s ∧
      (¬good → t = s) ∧ (good → OnlyBin s.dev t.dev a.a a.b ∧
        (t.dev.cluster a.a).bin? a.b = some ⟨a.b, a.c, a.d, n 0, n 1, a.v.setWidth 48, n 2, n 3, n 4, n 5, [], none⟩)

/-- R178 to R181, R345: HANDOFF takes what a handle names from the group and holds it for a listener; QPULL leaves the oldest item of a queue,
or all ones, and moves HEAD; ENQ puts a record into a bin, which triggers when it holds COAL; KICK releases and kicks a queue of its
context. Batches of helper fibres alone do none of this.

R344, R345, R367, R368: a KICK write from outside, the configuration of a node bin, which is ignored outside its limits, and the end of
a bin's countdown. -/
def Obligations.Work : Prop := Stmt.WorkInstructionsRules ∧ Stmt.KickWritesAndBinsRules

namespace Sys2Proof.Stmt

open Machine

/-! ## Copies and register grants (07: R175 to R177; 14: R283 to R296) -/

/-- The value of `n` bytes at an offset of a core's scratchpad. -/
def InSpad (d : Dev) (core off n : Nat) : Nat := leVal ((List.range n).map fun i => d.ms.avail core (slotBase core + off + i))

/-- The physical form of an address of a space (R37, R278, R280): a `.g` address stays virtual. -/
def PhysBase (core sp a : Nat) : Nat :=
  if sp = 0 then a
  else if sp = 4 then (if 0xFE0100000000 ≤ a ∧ a < 0xFE0100800000 then slotBase core + (a - 0xFE0100000000) else a)
  else slotBase core + (sp - 1) * 0x100000 + a

/-- A copy is what the request at a scratchpad offset says (R176). -/
def CopyOf (d : Dev) (core off : Nat) (c : Copy) : Prop :=
  let ctl := InSpad d core (off + 0x10) 4
  let dims := ctl / 2 ^ 8 % 8 + 1
  let bobj := InSpad d core (off + 0x14) 4
  c.ssp = ctl % 16 ∧ c.dsp = ctl / 16 % 16 ∧ c.esz = ctl / 2 ^ 12 % 4 ∧ (c.scat = true ↔ ctl / 2 ^ 20 % 2 = 1) ∧
  c.src = PhysBase core c.ssp (InSpad d core off 8) ∧ c.dst = PhysBase core c.dsp (InSpad d core (off + 8) 8) ∧
  c.counts = ((List.range dims).map fun i => InSpad d core (off + 0x18 + 2 * i) 2) ∧
  c.strides = ((List.range dims).map fun i => (BitVec.ofNat 24 (InSpad d core (off + 0x28 + 3 * i) 3)).toInt) ∧
  c.bobj = (if bobj = 0xFFFFFFFF then none else some bobj) ∧ c.done = 0

/-- Nothing of the cores changes but their shutter tables and channels. -/
def OnlyCopies (d e : Dev) : Prop :=
  ∀ k, { e.core k with shut := (d.core k).shut, chans := (d.core k).chans } = d.core k

/-- Nothing of the groups changes but the window grants of one. -/
def OnlyGrants (s t : State) (gid : Nat) : Prop :=
  { t with dev := { t.dev with groups := s.dev.groups } } = s ∧
  ∀ n g, s.dev.group? n = some g → ∃ h, t.dev.group? n = some h ∧ { h with grants := g.grants } = g ∧ (n ≠ gid → h = g)

/-- The grant that a value stored to GOPEN describes (R283). -/
def GrantIn (v : W64) : RegGrant := ⟨v.extractLsb' 32 32, v.toNat / 2 ^ 24 % 64, v.toNat / 2 ^ 8 % 2 ^ 11, false, none⟩

end Sys2Proof.Stmt

/-- R175, R176, R287, R288, R293: CPYK by a full batch, where the request passes its checks and there is room, enters it behind the others of its
channel with its shutter entries, advances the channel's queue pointer by its total, and goes on; a partial batch and a misaligned offset trap. -/
def Sys2Proof.Stmt.CopyRequestRules : Prop :=
  (∀ o : K1Op, ∀ s : State, Ready s (.cpyk o) → NoneLate s.dev → let d := s.dev; let g := d.grp
    let off := (d.readK o.ka.toNat).toNat % 2 ^ 19; let chan := InSpad d g.core (off + 0x10) 4 / 2 ^ 16 % 8
    d.cur.members.length = 32 → d.copyTrap g off = none →
    (∀ c, CopyOf d g.core off c → c.order = 0 → c.gid = g.gid → c.slot = 0 → d.copyRoom g.ctx g.core chan c = true) →
    ∃ t, exec (.cpyk o) s = .next t ∧
      OnlyFibres s { t with dev := { t.dev with cores := d.cores, groups := d.groups, nextCopy := d.nextCopy } } ∧ AllClose s t ∧
      (d.allHelpers = true → t.dev.cores = d.cores ∧ t.dev.groups = d.groups ∧ t.dev.nextCopy = d.nextCopy) ∧
      (d.allHelpers = false → OnlyCopies d t.dev ∧ t.dev.nextCopy = d.nextCopy + 1 ∧
        (∀ n x, d.group? n = some x → ∃ y, t.dev.group? n = some y ∧ { y with gwx := x.gwx } = x) ∧
        ∃ c : Copy, CopyOf d g.core off c ∧ c.order = d.nextCopy ∧ c.gid = g.gid ∧ c.slot = d.cur.anchor ∧
          (let old := (d.core g.core).chan g.ctx chan
           (t.dev.core g.core).chan g.ctx chan = { old with
             reqs := old.reqs ++ [c], qp := old.qp + BitVec.ofNat 64 (c.counts.foldl (· * ·) 1 * 2 ^ c.esz) }) ∧
          (∀ k x n, (k, x, n) ≠ (g.core, g.ctx, chan) → (t.dev.core k).chan x n = (d.core k).chan x n) ∧
          ∀ k, (t.dev.core k).shut = (d.core k).shut ++ ((c.entries g.ctx g.core chan).filter fun e => e.1 == k).map Prod.snd)) ∧
  (∀ o : K1Op, Traps (.cpyk o) (fun d => NoneLate d ∧ d.cur.members.length < 32) 3 0 (fun _ _ => 0) KeepsIll) ∧
  ∀ o : K1Op, Traps (.cpyk o) (fun d => NoneLate d ∧ d.cur.members.length = 32 ∧ (d.readK o.ka.toNat).toNat % 64 ≠ 0) 6 0
    (fun d _ => BitVec.ofNat 64 ((d.readK o.ka.toNat).toNat % 2 ^ 19)) KeepsIll

/-- R177, R288, R290, R283, R284: the oldest request of a channel performs its next element, in memory or in a window register, counts its
barrier object down, and the write pointer advances; grants open, close and lapse, and wait while a copy into them is live. -/
def Sys2Proof.Stmt.CopyElementsAndGrantsRules : Prop :=
  (∀ s : State, let d := s.dev; let core := d.arg.a; let ch := (d.core core).chan d.arg.b d.arg.c
    ∀ c rest p q, d.ms.wf = true → (d.fibres.map fun f => (f.core, f.slot, f.lane)).Nodup → ch.reqs = c :: rest → ch.stalled = false → d.elemWaits core c = false → core < 512 →
      (∀ o, c.bobj = some o → o < 0x80000) →
      (d.elemPlace d.arg.b core c false).1 = .ok p → ((d.elemPlace d.arg.b core c false).2.elemPlace d.arg.b core c true).1 = .ok q →
      (∀ k l i b, q = .reg k l i b → k ≠ core → d.ms.pendingOf core = []) →
      let n := 2 ^ c.esz; let v := (d.elemRead d.arg.b core n p).1
      ∃ t, exec .copyElement s = .next t ∧ t.agenda = s.agenda ∧ t.pwr = s.pwr ∧ t.fw = s.fw ∧
        { t.dev with fibres := d.fibres, cores := d.cores, tlbs := d.tlbs, ms := d.ms, arrivals := d.arrivals, heldWins := d.heldWins,
                     heldGrants := d.heldGrants, free := d.free } = d ∧
        OnlyCopies d t.dev ∧ (t.dev.core core).chan d.arg.b d.arg.c = { ch with
          wp := ch.wp + BitVec.ofNat 64 n
          reqs := if c.done + 1 = c.counts.foldl (· * ·) 1 then rest else { c with done := c.done + 1 } :: rest } ∧
        d.arrivals <+: t.dev.arrivals ∧
        (let stored : List (Nat × List Byte) := match q with | .phys a => [(a, leBytes n v)] | .dbg a => [(a, leBytes n v)] | _ => []
         let now (x : Nat) : Byte := afterStores (d.ms.peek core x) x stored
         match c.bobj with
         | none => ∀ x, isRegAddr x = false → t.dev.ms.peek core x = now x
         | some o =>
           let k := leVal ((List.range 4).map fun i => now (slotBase core + o + i))
           (1 ≤ k ∧ k ≤ n → ⟨d.arg.b, core, BitVec.ofNat 32 (2 ^ 28 + o), 0, none, 3⟩ ∈ t.dev.arrivals) ∧
           ∀ x, isRegAddr x = false → t.dev.ms.peek core x = afterStores (now x) x [(slotBase core + o, leBytes 4 ((k + 2 ^ 32 - n) % 2 ^ 32))]) ∧
        ∀ j m l f, d.fibre? j m l = some f → ∃ h, t.dev.fibre? j m l = some h ∧ { h with win := f.win } = f ∧
          (∀ i, (∀ r b, q = .reg j l r b → r ≠ f.winbase + i) → h.vreg i = f.vreg i) ∧
          ∀ r b, q = .reg j l r b → b + n ≤ 8 → d.regOf d.arg.b j l r = some f → ∀ z < 64,
            (h.vreg (r - f.winbase)).getLsbD z = if 8 * b ≤ z ∧ z < 8 * b + 8 * n then v.testBit (z - 8 * b) else
              (f.vreg (r - f.winbase)).getLsbD z) ∧
  (∀ s : State, let d := s.dev; let v := d.arg.v
    ∀ w g, d.warp? d.arg.a d.arg.b = some w → d.group? w.gid = some g → g.grants.length = 8 →
      (∃ t, exec .gopenWrite s = .next t ∧ OnlyGrants s t g.gid ∧ (d.gopenOk g v = false → t = s) ∧
        (d.gopenOk g v = true → ∃ h, t.dev.group? g.gid = some h ∧ (∀ e, e ≠ v.toNat % 8 → nth h.grants e none = nth g.grants e none) ∧
          (nth g.grants (v.toNat % 8) none = none → nth h.grants (v.toNat % 8) none = some (GrantIn v)) ∧
          ∀ r, nth g.grants (v.toNat % 8) none = some r → nth h.grants (v.toNat % 8) none =
            some (if d.copyInto g r = true then { r with closing := true, next := some v } else GrantIn v))) ∧
      ∃ t, exec .gcloseWrite s = .next t ∧ OnlyGrants s t g.gid ∧ ∃ h, t.dev.group? g.gid = some h ∧
        (∀ e, e ≠ v.toNat % 8 → nth h.grants e none = nth g.grants e none) ∧
        nth h.grants (v.toNat % 8) none = (nth g.grants (v.toNat % 8) none).bind fun r =>
          if d.copyInto g r = true then some { r with closing := true, next := none } else none) ∧
  ∀ s : State, let d := s.dev; ∀ g, d.group? d.arg.a = some g → d.arg.b < g.grants.length → ∃ t, exec .grantLapse s = .next t ∧
    OnlyGrants s t g.gid ∧ ∃ h, t.dev.group? g.gid = some h ∧ (∀ e, e ≠ d.arg.b → nth h.grants e none = nth g.grants e none) ∧
    ((nth g.grants d.arg.b none = none ∨ ∃ r, nth g.grants d.arg.b none = some r ∧ (r.closing = false ∨ d.copyInto g r = true)) → t = s) ∧
    ∀ r, nth g.grants d.arg.b none = some r → r.closing = true → d.copyInto g r = false →
      nth h.grants d.arg.b none = r.next.map GrantIn

/-- R175, R176, R287, R288, R293: CPYK by a full batch, where the request passes its checks and there is room, enters it behind the others of its
channel with its shutter entries, advances the channel's queue pointer by its total, and goes on; a partial batch and a misaligned offset trap.

R177, R288, R290, R283, R284: the oldest request of a channel performs its next element, in memory or in a window register, counts its
barrier object down, and the write pointer advances; grants open, close and lapse, and wait while a copy into them is live. -/
def Obligations.CopiesAndGrants : Prop := Stmt.CopyRequestRules ∧ Stmt.CopyElementsAndGrantsRules

namespace Sys2Proof.Stmt

open Machine

/-! ## Walks (08: R187 to R223) -/

/-- The batch holds every unretired fibre of its anchor slot and no other fibre. -/
def WholeWarp (d : Dev) : Prop :=
  (∀ f ∈ d.fibres, f.core = d.cur.core → f.slot = d.cur.anchor → (f.slot, f.lane) ∈ d.cur.members) ∧
  ∀ m ∈ d.cur.members, m.1 = d.cur.anchor

/-- The batch's warp serves a live upcall of its core's walk, and some fibre of it is no helper (R206). -/
def Serves (d : Dev) (e : WalkEng) (u : Upcall) : Prop :=
  d.allHelpers = false ∧ (d.core d.cur.core).walk = some e ∧
  ∃ w n, d.warp? d.cur.core d.cur.anchor = some w ∧ w.occ = some n ∧ e.ups.find? (fun u => u.seq == n) = some u

/-- The pane that a PA or PB upcall was raised for: at the base in bits 14 to 8 of k56, of its sweep, operand, k-step (k59) and tile row or
column (k57, k58; R202). -/
def PaneOf (e : WalkEng) (u : Upcall) (p : Pane) : Prop :=
  e.panes.find? (fun p => p.base == (nth u.args 0 0).toNat / 2 ^ 8 % 128 && p.st != .free && p.sweep == u.sweep && p.isB == (u.kind == 1) &&
    p.kstep == (nth u.args 3 0).toNat && p.index == (nth u.args (if u.kind = 1 then 2 else 1) 0).toNat) = some p

/-- Nothing of the cores changes but the walk of the batch's core. -/
def OnlyWalk (d e : Dev) (w : WalkEng) : Prop :=
  (e.core d.cur.core).walk = some w ∧ (∀ k, k ≠ d.cur.core → e.core k = d.core k) ∧
  { e.core d.cur.core with walk := (d.core d.cur.core).walk } = d.core d.cur.core

/-- Some panes after a change of those at a base. -/
def PanesAt (l : List Pane) (base : Nat) (f : Pane → Pane) : List Pane := l.map fun x => if x.base = base ∧ x.st ≠ .free then f x else x

/-- A pane is filled; under EPI 1 a NORM upcall for a pane of the last k-step waits to be raised (R201, R208, R210). -/
def Filled (e x : WalkEng) (p : Pane) : Prop :=
  x.panes = PanesAt e.panes p.base (fun _ => { p with st := .filled }) ∧
  x.raise = e.raise ++ if e.rcd.epi = 1 ∧ p.kstep + 1 = e.rcd.ks then [e.rcd.upNorm { p with st := .filled }] else []

/-! The array's arithmetic (05: R103 to R105, R116 to R118; 08: R198, R213). -/

/-- Bits of an element code of a format (R104, R198). -/
def codeBits (fmt : Nat) : Nat := match fmt with | 2 => 8 | 3 => 6 | 4 => 4 | _ => 16

/-- The code of logical element (x, κ) of a pane (R198). -/
def CodeAt (d : Dev) (core : Nat) (p : Pane) (x κ : Nat) : Nat :=
  let bit := (if p.orient then κ * p.cols + x else x * p.cols + κ) * codeBits p.fmt
  InSpad d core (0x200000 + p.base * 0x1000 + bit / 8) 2 / 2 ^ (bit % 8) % 2 ^ codeBits p.fmt

/-- Scale `h` of the block that holds logical element (x, κ) of a pane (R198). -/
def ScaleAt (d : Dev) (core : Nat) (p : Pane) (x κ h : Nat) : Nat :=
  let bl := if p.blk then 32 else 16
  InSpad d core (0x200000 + p.base * 0x1000 + p.scoff + 2 * (x * (if p.orient then p.rows else p.cols) / bl + κ / bl) + h) 1

/-- What enters a product: not a number, an infinity with its sign, or a number as a multiple of a power of two that its format fixes. -/
inductive Term where
  | nan
  | inf (neg : Bool)
  | num (neg : Bool) (m : Nat)

/-- Selector of an element code of a block format (R104). -/
def selOf (fmt c : Nat) : Nat := c / 2 ^ (codeBits fmt - 1)

/-- An element code without its scale (R104): a block format's in units of 2^-5, BF16 and FP16 in units of their least subnormal. -/
def Plain (fmt c : Nat) : Term :=
  if 2 ≤ fmt then
    let s := decide (c / 2 ^ (codeBits fmt - 2) % 2 = 1)
    let m := c % 2 ^ (codeBits fmt - 2)
    if fmt = 2 ∧ m = 62 then .inf s else if fmt = 2 ∧ m = 63 then .nan else .num s (blockMag (fmt - 2) m)
  else
    let f : FFmt := if fmt = 0 then .bf16 else .f16
    let s := decide (c / f.signBit % 2 = 1)
    if c % f.signBit = f.infCode then .inf s else if f.infCode < c % f.signBit then .nan else .num s (mag f (c % f.signBit))

/-- sc8val of a code that is no NaN, in units of 2^-34 (R103). -/
def scaleVal (c : Nat) : Nat := if c = 0 then 0 else scale8 c

/-- An element's decoded value (R105): a block format's in units of 2^-39. -/
def Decoded (d : Dev) (core : Nat) (p : Pane) (x κ : Nat) : Term :=
  let c := CodeAt d core p x κ
  if 2 ≤ p.fmt then
    let s := ScaleAt d core p x κ (selOf p.fmt c)
    match Plain p.fmt c with
    | .nan => .nan
    | .inf n => if s = 0 ∨ s = 0xFF then .nan else .inf n
    | .num n m => if s = 0xFF then .nan else .num n (m * scaleVal s)
  else Plain p.fmt c

/-- The power of two, negated, in whose multiples the decoded values of a format are counted. -/
def decUnit (fmt : Nat) : Int := if 2 ≤ fmt then 39 else lowest (if fmt = 0 then .bf16 else .f16)

/-- A product of two terms. -/
def Term.times : Term → Term → Term
  | .num s a, .num t b => .num (s != t) (a * b)
  | .inf s, .inf t => .inf (s != t)
  | .inf s, .num t b => if b = 0 then .nan else .inf (s != t)
  | .num s a, .inf t => if a = 0 then .nan else .inf (s != t)
  | _, _ => .nan

/-- A finite term as a number. -/
def Term.amount : Term → Int
  | .num s a => if s then -(a : Int) else a
  | _ => 0

/-- `r` is the exact sum of some terms, times `m` units of 2^e, rounded once to binary32; `bad` makes it a NaN, as do a NaN, infinities of
both signs, and an infinity times 0 (R117, R118). -/
def RoundedSum (l : List Term) (m : Nat) (e : Int) (bad : Prop) (r : Nat) : Prop :=
  let has (s : Bool) : Prop := Term.inf s ∈ l
  let no := bad ∨ Term.nan ∈ l ∨ (has true ∧ has false) ∨ ((has true ∨ has false) ∧ m = 0)
  let x : Int := (l.map Term.amount).foldl (fun a b => a + b) 0 * m
  (no → r = 0x7FC00000) ∧ (¬no → has false → r = 0x7F800000) ∧ (¬no → has true → r = 0xFF800000) ∧
  (¬no → ¬has false → ¬has true → (x = 0 → r = 0) ∧ (x ≠ 0 → Rounded .f32 0 false x (149 - e) r))

/-- A contribution is added to an accumulator element; EPI 1 scales it by -2 first (R116, R118, R213). -/
def Added (epi acc t r : Nat) : Prop :=
  if epi = 1 then ∃ u, Product .f32 0 false t 0xC0000000 u ∧ Sum .f32 0 false acc u r else Sum .f32 0 false acc t r

/-- Accumulator element (i, j), `acc` before a tile product, is `r` after it (R116 to R118, R195). -/
def TileElement (d : Dev) (core epi ke : Nat) (pa pb : Pane) (i j acc r : Nat) : Prop :=
  ∃ A : Nat → Nat, A 0 = acc ∧
    if 2 ≤ pa.fmt ∧ 2 ≤ pb.fmt then
      let n := if pa.blk ∧ pb.blk then 32 else 16
      r = A (ke / n) ∧ ∀ q < ke / n, ∃ (V : Nat → Nat → Nat) (t u v : Nat),
        (∀ sa < 2, ∀ sb < 2,
          let picked := ((List.range n).map (q * n + ·)).filter fun k =>
            selOf pa.fmt (CodeAt d core pa i k) == sa && selOf pb.fmt (CodeAt d core pb j k) == sb
          let SA := ScaleAt d core pa i (q * n) sa
          let SB := ScaleAt d core pb j (q * n) sb
          if picked = [] then V sa sb = 0
          else RoundedSum (picked.map fun k => (Plain pa.fmt (CodeAt d core pa i k)).times (Plain pb.fmt (CodeAt d core pb j k)))
            (scaleVal SA * scaleVal SB) 78 (SA = 0xFF ∨ SB = 0xFF) (V sa sb)) ∧
        Sum .f32 0 false (V 1 1) (V 1 0) t ∧ Sum .f32 0 false t (V 0 1) u ∧ Sum .f32 0 false u (V 0 0) v ∧ Added epi (A q) v (A (q + 1))
    else
      r = A (ke / 32) ∧ ∀ q < ke / 32, ∃ v,
        RoundedSum ((List.range 32).map fun k => (Decoded d core pa i (q * 32 + k)).times (Decoded d core pb j (q * 32 + k))) 1
          (decUnit pa.fmt + decUnit pb.fmt) False v ∧ Added epi (A q) v (A (q + 1))

/-- A walk has ended on a core with a failure code, and its role groups there with it (R218, R219). -/
def WalkAborted (s t : State) (core code ucode : Nat) (e : WalkEng) : Prop :=
  t.agenda = s.agenda ∧ t.pwr = s.pwr ∧ t.fw = s.fw ∧
  (t.dev.core core).walk = none ∧ (t.dev.core core).wstat = BitVec.ofNat 64 (ucode * 2 ^ 32 + code * 2 ^ 24) ∧
  (∀ g ∈ t.dev.groups, ¬(g.lid = e.lid ∧ g.core = core)) ∧
  (∀ k, k ≠ core → (t.dev.core k).walk = (s.dev.core k).walk) ∧
  ∀ l, t.dev.launch? e.lid = some l → l.status = 3

/-- A walk's engine raised what it can, in order, of upcalls of the given kinds: behind those it had raised, numbered on, and what is left waits
(R194, R203). -/
def RaisedNow (w x : WalkEng) (kinds : List Nat) : Prop :=
  w.ups <+: x.ups ∧ x.nseq = w.nseq + (x.ups.length - w.ups.length) ∧
  (x.ups.drop w.ups.length ++ x.raise).map Upcall.kind = kinds ∧ x.raiseOne 0 = none

end Sys2Proof.Stmt

/-- R206 to R211: PRES installs a template in the warp's reserved pane, PREL fills it, PSCL tells where scales and side-band lie, UPRET ends the
upcall, and UPFAIL aborts the walk with the program's code. -/
def Obligations.PaneAndUpcallInstructions : Prop :=
  (∀ o : K1Op, ∀ s : State, Ready s (.pres o) → let d := s.dev; let a := d.readK o.ka.toNat
    ∀ e u p pa, Serves d e u → WholeWarp d → u.kind < 2 → PaneOf e u p → p.st = .reserved → a.toNat % 16 = 0 →
    (a.setWidth 48).signExtend 64 = a → (d.translate d.cur.core d.grp.ctx (a.setWidth 48).toNat 1).1 = .ok pa →
    let T := leVal (MemSys.loadBytes d.cur.core 16 pa d.ms).1
    p.badTemplate T = false →
    ∃ t x, exec (.pres o) s = .next t ∧ OnlyFibres s { t with dev := { t.dev with cores := d.cores, tlbs := d.tlbs, ms := d.ms } } ∧
      { t.dev.ms with snap := d.ms.snap } = d.ms ∧ OnlyWalk d t.dev x ∧ AllGo s t (fun _ => none) ∧
      x = { e with panes := PanesAt e.panes p.base fun x => { x with
        cols := T / 2 ^ 48 % 2 ^ 16, rows := T / 2 ^ 32 % 2 ^ 16, scoff := T / 2 ^ 16 % 2 ^ 16, hadf := T / 2 ^ 6 % 4
        orient := T.testBit 5, blk := T.testBit 4, fmt := T % 16 } }) ∧
  (∀ o : K1Op, ∀ s : State, Ready s (.prel o) → let d := s.dev
    ∀ e u p, Serves d e u → WholeWarp d → u.kind < 2 → PaneOf e u p → p.st = .reserved → (d.readK o.ka.toNat).toNat % 128 = p.base →
    d.copyTouches d.grp.ctx d.cur.core (0x200000 + p.base * 0x1000) (p.ngr * 0x1000) = false →
    let e' := Released s d.cur.core 3
    ∃ t x, exec (.prel o) s = .next t ∧ OnlyFibres e' { t with dev := { t.dev with cores := d.cores } } ∧
      OnlyWalk d t.dev x ∧ AllGo e' t (fun _ => none) ∧
      Filled e x p ∧ { x with panes := e.panes, raise := e.raise } = e) ∧
  (∀ o : K2Op, ∀ s : State, Ready s (.pscl o) → HoldsK s.dev o.kd.toNat → let d := s.dev
    ∀ e p, (d.core d.cur.core).walk = some e → e.ctx = d.grp.ctx →
      e.panes.find? (fun p => p.base == (d.readK o.ka.toNat).toNat % 128 && p.st != .free) = some p →
    ∃ t, exec (.pscl o) s = .next t ∧ OnlyUniform s t ∧ AllGo s t (fun _ => none) ∧
      (∀ n, n ≠ o.kd.toNat → n < 64 → t.dev.kreg n = d.kreg n) ∧
      ⟨.k o.kd.toNat, d.cur.anchor, BitVec.ofNat 64 (p.base * 0x1000 + p.scoff + ((p.base + p.ngr) * 0x1000 - 256) * 2 ^ 32),
        BitVec.allOnes 64⟩ ∈ t.dev.grp.outst) ∧
  (∀ o : NulOp, ∀ s : State, Ready s (.upret o) → NoneLate s.dev → let d := s.dev
    ∀ e u, Serves d e u → WholeWarp d → d.upTouched = false → e.noMore = false →
    let e' := Released s d.cur.core 3
    ∃ t x, exec (.upret o) s = .next t ∧
      OnlyFibres e' { t with dev := { t.dev with cores := d.cores, warps := d.warps } } ∧ OnlyWalk d t.dev x ∧ AllClose e' t ∧
      (∀ c n w, d.warp? c n = some w → t.dev.warp? c n =
        some (if c = d.cur.core ∧ n = d.cur.anchor then { w with occ := none } else w)) ∧
      x.ups = e.ups.filter (fun v => v.seq != u.seq) ∧
      { x with ups := e.ups, panes := e.panes, raise := e.raise, window := e.window, slots := e.slots, tops := e.tops } = e ∧
      (u.kind < 2 → ∀ p, PaneOf e u p → (p.st = .reserved → Filled e x p) ∧ (p.st ≠ .reserved → x.panes = e.panes ∧ x.raise = e.raise)) ∧
      (u.kind = 2 → x.window = e.window.map fun w => if w.index = u.sweep then { w with
        tiles := w.tiles.map fun t => if t.slot = (nth u.args 0 0).toNat / 2 ^ 16 % 16 ∧ t.st = .init then { t with st := .acc 0 } else t }
        else w) ∧
      (u.kind = 3 → x.panes = PanesAt e.panes ((nth u.args 0 0).toNat / 2 ^ 8 % 128) fun p => { p with normed := true }) ∧
      (4 ≤ u.kind → x.slots = (e.slots.filter fun n => n != (nth u.args 0 0).toNat / 2 ^ 16 % 16) ∧
        x.tops = e.tops.filter fun y => y.2 != (nth u.args 0 0).toNat / 2 ^ 16 % 16)) ∧
  ∀ o : K1Op, ∀ s : State, Ready s (.upfail o) → NoneLate s.dev → let d := s.dev
    ∀ e u, Serves d e u → ∃ t, exec (.upfail o) s = .next t ∧
      WalkAborted s t d.cur.core 2 ((d.readK o.ka.toNat).toNat % 2 ^ 32) e ∧
      (∃ r ∈ t.dev.hub.frecs, r.ctx = e.ctx ∧ r.cause = 15 ∧ r.tadr = BitVec.ofNat 64 e.recA ∧ r.core = d.cur.core ∧ r.fail = 2 ∧
        r.lanes = 0 ∧ r.gid = none) ∧
      ∀ c n l f, d.fibre? c n l = some f → d.cur.has f = false →
        (∀ g ∈ d.groups, g.lid = e.lid → d.gidOf f ≠ g.gid) → (∀ v ∈ d.saved, v.group.lid = e.lid → d.gidOf f ≠ v.group.gid) →
        ∃ g, t.dev.fibre? c n l = some g ∧ { g with win := f.win } = f ∧ (d.ms.regLines = [] → g = f)

/-- R187, R192 to R195, R202, R203, R212, R218, R221: the engine draws units, admits steps with their upcalls, delivers the oldest upcall
of a role, runs the array, aborts on a launch that failed elsewhere, and is saved after its grace. -/
def Obligations.WalkEngineSteps : Prop :=
  (∀ s : State, let d := s.dev; let core := d.arg.a
    ∀ w a, d.ms.wf = true → (d.core core).walk = some w → w.st = .running → w.drawDue = true → d.waits (.walkEng core w.lid) = false →
    (d.translate core w.ctx (w.rcd.wctr % 2 ^ 48) 3).1 = .ok a →
    let est := if w.first then w.rcd.units else w.rcd.units - (w.oldPrev + w.chunkPrev)
    let n := 2 * w.cores.length
    let chunk := min w.rcd.cmax (max w.rcd.cmin ((est + n - 1) / n))
    d.ms.pendingOf core = [] → isRegAddr a = false → isRegAddr (a + 7) = false →
    w.window ≠ [] ∨ (0 < chunk ∧ leVal ((List.range 8).map fun i => atomByte d.ms core (a + i)) < w.rcd.units) →
    ∃ t old x, exec .walkDraw s = .next t ∧ t.agenda = s.agenda ∧ t.pwr = s.pwr ∧ t.fw = s.fw ∧
      { t.dev with cores := d.cores, tlbs := d.tlbs, ms := d.ms } = d ∧ (∀ k, k ≠ core → t.dev.core k = d.core k) ∧
      AtomStep true 0 (BitVec.ofNat 64 chunk) 0 a (atomByte d.ms core) (atomByte t.dev.ms core) old ∧
      (t.dev.core core).walk = some x ∧ { x with first := w.first, oldPrev := w.oldPrev, chunkPrev := w.chunkPrev, drawDue := true,
                                                 noMore := w.noMore, units := w.units } = w ∧
      x.first = false ∧ x.oldPrev = old.toNat ∧ x.chunkPrev = chunk ∧ x.drawDue = false ∧
      (x.noMore = true ↔ w.noMore = true ∨ w.rcd.units ≤ old.toNat) ∧
      x.units = w.units ++ (((List.range chunk).map (old.toNat + ·)).filter fun i => decide (i < w.rcd.units))) ∧
  -- one more step of the sweep last admitted
  (∀ s : State, let d := s.dev; let core := d.arg.a
    ∀ w sw, (d.core core).walk = some w → w.st = .running → w.raise = [] → w.drained ≠ d.cycle + 1 → w.rcd.look = w.steps + 1 →
    d.drainReady core = false → w.window.find? (fun s => decide (s.admitted < w.rcd.ks)) = some sw → sw.kdone w.rcd.ks ≤ sw.admitted →
    ∃ t x, exec .walkStepAdmit s = .next t ∧ { t with dev := { t.dev with cores := d.cores } } = s ∧
      (∀ k, k ≠ core → t.dev.core k = d.core k) ∧ (t.dev.core core).walk = some x ∧
      { x with window := w.window, raise := w.raise, ups := w.ups, panes := w.panes, nseq := w.nseq } = w ∧
      x.window = w.window.map (fun y => if y.index = sw.index then { y with admitted := y.admitted + 1 } else y) ∧
      RaisedNow w x (List.replicate (w.rcd.rowsOf sw.index).length 0 ++ List.replicate (w.rcd.colsOf sw.index).length 1)) ∧
  -- the first step of the next sweep, with its slots
  (∀ s : State, let d := s.dev; let core := d.arg.a
    ∀ w n rest us, d.ms.wf = true → (d.core core).walk = some w → w.st = .running → w.raise = [] → w.drained ≠ d.cycle + 1 →
    w.rcd.look = w.steps + 1 → d.drainReady core = false → (∀ x ∈ w.window, w.rcd.ks ≤ x.admitted) → w.openSweeps.length ≤ 1 →
    (w.todo = n :: rest ∧ us = w.units) ∨ (w.todo = [] ∧ ∃ u, w.units = u :: us ∧ w.rcd.sweepsOf u = n :: rest) →
    let rows := w.rcd.rowsOf n; let cols := w.rcd.colsOf n; let tiles := rows.flatMap fun i => cols.map fun j => (i, j)
    let free := (List.range 16).filter fun i => !w.slots.contains i
    let tops := if w.rcd.epi = 2 ∨ w.rcd.epi = 3 then rows.filter fun r => !w.tops.any fun t => t.1 == r else []
    let slots := free.take (tiles.length + tops.length)
    rows ≠ [] → cols ≠ [] → 0 < w.rcd.ks → tiles.length + tops.length ≤ free.length →
    ∃ t x sw, exec .walkStepAdmit s = .next t ∧ { t with dev := { t.dev with cores := d.cores, ms := d.ms } } = s ∧
      (∀ k, k ≠ core → t.dev.core k = d.core k) ∧ (t.dev.core core).walk = some x ∧
      { x with todo := w.todo, units := w.units, window := w.window, slots := w.slots, tops := w.tops, raise := w.raise, ups := w.ups
               panes := w.panes, nseq := w.nseq, drawDue := w.drawDue } = w ∧
      x.todo = rest ∧ x.units = us ∧ x.window = w.window ++ [sw] ∧ sw.index = n ∧ sw.unit = w.rcd.unitOf n ∧ sw.admitted = 1 ∧
      sw.tiles.map (fun y => (y.row, y.col)) = tiles ∧ sw.tiles.map Tile.slot = slots.take tiles.length ∧
      (∀ y ∈ sw.tiles, y.st = if w.rcd.cinit then .init else .acc 0) ∧
      x.slots = w.slots ++ slots ∧ x.tops = w.tops ++ tops.zip (slots.drop tiles.length) ∧
      (x.drawDue = true ↔ w.drawDue = true ∨ (us = [] ∧ (w.rcd.sweepsOf (w.rcd.unitOf n)).head? = some n ∧ w.noMore = false)) ∧
      RaisedNow w x (List.replicate (if w.rcd.cinit then tiles.length else 0) 2 ++ List.replicate rows.length 0 ++
        List.replicate cols.length 1) ∧
      ∀ k y, let at_ (n : Nat) : Nat := slotBase core + 0x100000 + n * 0x4000
        ((∀ n ∈ slots, ¬(at_ n ≤ y ∧ y < at_ n + 0x4000)) → t.dev.ms.peek k y = d.ms.peek k y) ∧
        ((∃ n ∈ slots, at_ n ≤ y ∧ y < at_ n + 0x4000) → t.dev.ms.peek core y = 0)) ∧
  (∀ s : State, let d := s.dev; let core := d.arg.a; let role := d.arg.b
    ∀ w u x i, (d.core core).walk = some w → w.st = .running → nth w.offered role none ≠ some d.cycle → role < w.offered.length →
    (w.ups.filter fun u => (if u.kind < 3 then 0 else if u.kind = 3 then 2 else 1) == role && u.st == .queued).head? = some u →
    d.arrivals = [] → (d.warps.map fun w => (w.core, w.slot)).Nodup →
    let mayTake (y : Warp) : Prop := y.core = core ∧ y.occ = none ∧ (∃ j, WakesAt d y u.token j) ∧
      (y.gid = w.prod ∧ role ≠ 1 ∨ y.gid = w.cons ∧ role ≠ 0)
    x ∈ d.warps → role < 3 → mayTake x → (∀ y ∈ d.warps, mayTake y → x.slot ≤ y.slot) → WakesAt d x u.token i →
    ∃ t y, exec .upcallDelivery s = .next t ∧ OnlyDelivery s { t with dev := { t.dev with cores := d.cores } } ∧
      t.dev.warp? core x.slot = some y ∧ y.occ = some u.seq ∧ y.park = none ∧
      y.kd = (TokenIn (nth (x.park.getD []) i 0)).setWidth 64 :: (List.range 8).map (fun j => nth u.args j 0) ∧
      (∀ c n, (c, n) ≠ (core, x.slot) → t.dev.warp? c n = d.warp? c n) ∧
      (∀ l f, d.fibre? core x.slot l = some f → ∃ g, t.dev.fibre? core x.slot l = some g ∧
        AtHandler d x.gid (nth (x.park.getD []) i 0) f g) ∧
      (∀ k, k ≠ core → t.dev.core k = d.core k) ∧ (t.dev.core core).walk = some { w with
        offered := w.offered.set role (some d.cycle)
        ups := w.ups.map fun v => if v.seq = u.seq then { v with st := .delivered x.slot } else v }) ∧
  (∀ s : State, let d := s.dev; let core := d.arg.a
    ∀ w, d.ms.wf = true → (d.core core).walk = some w → ∃ t, exec .tileProduct s = .next t ∧
      (∀ p, w.busy = none → w.startable = some p → w.rcd.firstRead p = none →
        { t with dev := { t.dev with cores := d.cores } } = s ∧ ∃ x, (t.dev.core core).walk = some x ∧
          x.busy = some (d.cycle + (if w.rcd.fmta = 4 ∧ w.rcd.fmtb = 4 then 8 else
            if 2 ≤ w.rcd.fmta ∧ w.rcd.fmta ≤ 4 ∧ 2 ≤ w.rcd.fmtb ∧ w.rcd.fmtb ≤ 4 then 16 else 32) * (if w.rcd.kext = 1 then 2 else 1)) ∧
          { x with busy := w.busy, started := w.started, panes := w.panes } = w) ∧
      (∀ p c, w.busy = some c → c ≤ d.cycle → w.product = some p → p.pa.fmt ≤ 4 → p.pb.fmt ≤ 4 →
        { t with dev := { t.dev with cores := d.cores, ms := d.ms } } = s ∧
        (∀ i < 64, ∀ j < 64, let at_ := 0x100000 + p.tile.slot * 0x4000 + (i * 64 + j) * 4
          TileElement d core w.rcd.epi w.rcd.ke p.pa p.pb i j (InSpad d core at_ 4) (InSpad t.dev core at_ 4)) ∧
        (∀ x, (x < slotBase core + 0x100000 + p.tile.slot * 0x4000 ∨ slotBase core + 0x100000 + (p.tile.slot + 1) * 0x4000 ≤ x) →
          ∀ k, t.dev.ms.peek k x = d.ms.peek k x) ∧
        ∃ x, (t.dev.core core).walk = some x ∧ x.busy = none ∧ { x with busy := w.busy, panes := w.panes, window := w.window } = w ∧
          x.window = w.window.map fun y => if y.index = p.sweep then { y with tiles := y.tiles.map fun z =>
            if z.row = p.tile.row ∧ z.col = p.tile.col then { z with st := if p.k + 1 = w.rcd.ks then .complete else .acc (p.k + 1) } else z }
            else y) ∧
      (w.busy = none → w.startable.isNone = true → w.st = .stopping →
        { t with dev := { t.dev with cores := d.cores } } = s ∧
        (t.dev.core core).walk = some { w with st := .grace, grace := d.cycle + 20000 })) ∧
  (∀ s : State, let d := s.dev
    ∀ w l, (d.core d.arg.a).walk = some w → d.launch? w.lid = some l → l.status = 3 →
      ∃ t, exec .walkAbortRemote s = .next t ∧ WalkAborted s t d.arg.a 8 0 w) ∧
  -- a saved walk: its record says so, and it ends at its next restore, or at once where no role group is left
  (∀ s : State, let d := s.dev; let core := d.arg.a
    ∀ x, (d.core core).walk = none → d.walks.find? (fun x => x.core == core && x.abrt.isNone && (match d.launch? x.eng.lid with
        | some l => l.status == 3
        | none => false)) = some x →
      let mine (y : SavedWalk) : Prop := y.core = core ∧ y.eng.lid = x.eng.lid
      let left := ∃ g, (g = x.eng.prod ∨ g = x.eng.cons) ∧ (d.group? g ≠ none ∨ d.saved? g ≠ none)
      ∃ t, exec .walkAbortRemote s = .next t ∧ t.agenda = s.agenda ∧ t.pwr = s.pwr ∧ t.fw = s.fw ∧
        (left → { t.dev with walks := d.walks, ms := d.ms, hub := d.hub } = d ∧
          t.dev.walks = d.walks.map (fun y => if y.core == core && y.eng.lid == x.eng.lid then { y with abrt := some 8 } else y) ∧
          ∀ e, d.writeIpa (d.vfOf x.eng.ctx) (x.area + 0x34) [1, 0, 0, 0] = .ok e → t.dev.ms = e.ms) ∧
        (¬left → (∀ y ∈ t.dev.walks, ¬mine y) ∧ ∀ y ∈ d.walks, ¬mine y → y ∈ t.dev.walks)) ∧
  ∀ s : State, let d := s.dev; let core := d.arg.a
    ∀ w a e, (d.core core).walk = some w → w.st = .grace → w.grace ≤ d.cycle → d.waits (.ring w.ctx) = false →
      (d.hub.ctxs.map Ctx.no).Nodup → d.area? w.ctx (2 ^ 32 + core) w.saveLen = some a →
      Dev.writePieces (d.vfOf w.ctx) a ((0, w.position (d.walkId w) a) :: d.walkImages core w) d = .ok e →
      ∃ t, exec .walkGraceExpiry s = .next t ∧
        { t with dev := { t.dev with cores := d.cores, walks := d.walks, ms := d.ms } } = s ∧ t.dev.ms = e.ms ∧
        t.dev.walks = d.walks ++ [⟨core, a, { w with st := .running, busy := none }, none⟩] ∧
        (∀ k, k ≠ core → t.dev.core k = d.core k) ∧
        t.dev.core core = { d.core core with walk := none, wstat := 0, wstall := 0 }

/-- R187, R189, R191, R192: a walk that is next to be placed, on a core it names, with its record in order, is dispatched there: a producer
and a consumer group are released, and its engine starts with a draw. -/
def Obligations.WalkDispatch : Prop :=
  ∀ s : State, let d := s.dev
    ∀ l, ∀ a : Nat → Nat, d.waiting = [l] → l.kind = .walk → l.fixed = true → l.ncore = 1 → l.recA % 64 = 0 → (d.walkOn [] l 0 l.core0).isSome →
      (∀ i < 4, d.translateHub l.ctx ((l.recA % 2 ^ 48 + 64 * i) % 2 ^ 48) 1 = .ok (a i)) →
      let rcd := (List.range 4).flatMap fun i => d.ms.readHub (a i) 64
      badWalk rcd = false →
      (∀ g ∈ d.groups, g.gid < d.hub.nextGid) →
      ∃ t e p c, exec .walkDispatch s = .next t ∧ t.agenda = s.agenda ∧ t.pwr = s.pwr ∧ t.fw = s.fw ∧
        (t.dev.core l.core0).walk = some e ∧ e.lid = l.lid ∧ e.ctx = l.ctx ∧ e.rcd = walkRec rcd ∧ e.cores = [l.core0] ∧
        e.prod = d.hub.nextGid ∧ e.cons = d.hub.nextGid + 1 ∧ e.st = .running ∧ e.first = true ∧ e.drawDue = true ∧ e.noMore = false ∧
        e.units = [] ∧ e.window = [] ∧ e.ups = [] ∧ e.panes = [] ∧ e.slots = [] ∧ e.nseq = 0 ∧
        (∀ k, k ≠ l.core0 → t.dev.core k = d.core k) ∧
        t.dev.group? d.hub.nextGid = some p ∧ p.role = .producer ∧ p.core = l.core0 ∧ p.entry = l.entry ∧ p.slots.length = l.warps ∧
        p.ctx = l.ctx ∧ p.lid = l.lid ∧ p.groupid = 0 ∧
        t.dev.group? (d.hub.nextGid + 1) = some c ∧ c.role = .consumer ∧ c.core = l.core0 ∧ c.entry = l.centry ∧
        c.slots.length = l.cwarps ∧ c.ctx = l.ctx ∧ c.lid = l.lid ∧ c.groupid = 1 ∧
        (∀ g ∈ d.groups, g ∈ t.dev.groups) ∧ (∀ f ∈ d.fibres, f ∈ t.dev.fibres) ∧ ∀ w ∈ d.warps, w ∈ t.dev.warps

namespace Sys2Proof.Stmt

open Machine

/-! ## Recursion (09: R224 to R241) -/

/-- Nothing of the cores changes but the recursion of one. -/
def OnlyRec (d e : Dev) (core : Nat) (r : Option RecEng) : Prop :=
  (e.core core).rec_ = r ∧ (∀ k, k ≠ core → e.core k = d.core k) ∧ { e.core core with rec_ := (d.core core).rec_ } = d.core core

/-- Nothing changes but fibres, cores, memory and the counter of free values. -/
def OnlyRecursion (s t : State) : Prop := OnlyFibres s { t with dev := { t.dev with cores := s.dev.cores, ms := s.dev.ms } }

/-- Bytes of a core's slot outside [a, a + n) read as before, to every core. -/
def BytesKept (d e : Dev) (core a n : Nat) : Prop :=
  ∀ x, x < slotBase core + a ∨ slotBase core + a + n ≤ x → ∀ k, e.ms.peek k x = d.ms.peek k x

/-- The one active fibre of the batch is lane `x` of a live recursion, and no access of it can still fault. -/
def RunsLane (d : Dev) (f : Fibre) (r : RecEng) (x : RecLane) : Prop :=
  d.active = [f] ∧ f.late = none ∧ (d.core f.core).rec_ = some r ∧ f.slot = r.slot ∧ r.saved = false ∧ r.ls[f.lane]? = some x

/-- A new frame stands at an offset: its header with an ARG, its parent, id, index and depth, and nothing staged (R226). -/
def NewFrame (d : Dev) (core off arg parent fid cidx depth : Nat) : Prop :=
  let at_ (i n : Nat) : Nat := InSpad d core (off + i) n
  at_ 0 8 = arg ∧ at_ 8 8 = 0 ∧ at_ 0x10 4 = parent % 2 ^ 32 ∧ at_ 0x14 4 = fid % 2 ^ 32 ∧ at_ 0x18 1 = 0 ∧ at_ 0x19 1 = cidx % 2 ^ 8 ∧
  at_ 0x1A 1 = depth % 2 ^ 8 ∧ at_ 0x1B 1 = 0 ∧ at_ 0x1C 4 = 0 ∧ ∀ i < 4, at_ (0x20 + 8 * i) 8 = 0

/-- Bytes of a core's slot at offsets for which `p` does not hold read as before, to every core. -/
def KeptBut (d e : Dev) (core : Nat) (p : Nat → Prop) : Prop :=
  ∀ x, (∀ o, x = slotBase core + o → ¬p o) → ∀ k, e.ms.peek k x = d.ms.peek k x

/-- What RCHILD stages in a frame as child `n` (R237): the argument, and NCH. -/
def Staged (e : Dev) (core frame n v : Nat) : Prop :=
  InSpad e core (frame + 0x18) 1 = n + 1 ∧ InSpad e core (frame + 0x20 + 8 * n) 8 = v

/-- A fibre waits for the engine at its RECUR, its registers as before (R275). -/
def AtRecur (r : RecEng) (f g : Fibre) : Prop := g = { f with wait := .recur, pc := r.recurPc, cohort := 0 }

end Sys2Proof.Stmt

/-- R224 to R229, R233, R236, R275: RECUR of a whole warp with a good object starts a recursion with one frame for lane 0 and leaves every fibre
waiting; a warp whose recursion lives joins it; a routine starts with its frame, ARG and NCH in v0 to v2. -/
def Sys2Proof.Stmt.RecursionStartsRules : Prop :=
  (∀ o : K1Op, ∀ s : State, Ready s (.recur o) → let d := s.dev; let core := d.cur.core
    let off := (d.readK o.ka.toNat).toNat % 2 ^ 19; let at_ (i n : Nat) : Nat := InSpad d core (off + i) n
    d.ms.wf = true → d.grp.core = core → (d.core core).rec_ = none → WholeWarp d → d.recurTrap d.grp off = none →
    ∃ t r, exec (.recur o) s = .next t ∧ OnlyRecursion s t ∧ OthersKept d t.dev ∧ OnlyRec d t.dev core (some r) ∧
      (r.gid, r.slot, r.obj, r.recurPc, r.saved) = (d.grp.gid, d.cur.anchor, off, d.cur.pc, false) ∧
      (r.div, r.bas, r.comb) = (BitVec.ofNat 48 (at_ 0 8), BitVec.ofNat 48 (at_ 8 8), BitVec.ofNat 48 (at_ 0x10 8)) ∧
      (r.abase, r.asize, r.fsize, r.cmax, r.dmax, r.lanes) = (at_ 0x20 4, at_ 0x24 4, at_ 0x28 2, at_ 0x2A 1, at_ 0x2B 1, at_ 0x2C 1) ∧
      r.level = 0 ∧ r.nbr = 1 ∧ r.away = [] ∧ r.stage = (if r.lanes = 1 then 2 else 1) ∧ r.ls.length = r.lanes ∧
      (∀ i x, r.ls[i]? = some x → x.run = none ∧ x.next = if i = 0 then [(.divide, r.abase + 0x140)] else []) ∧
      InSpad t.dev core r.abase 1 = r.stage ∧ InSpad t.dev core (r.abase + 0x140) 8 = at_ 0x18 8 ∧
      InSpad t.dev core (r.abase + 0x150) 4 = 0xFFFFFFFF ∧ InSpad t.dev core (r.abase + 0x158) 4 = 0 ∧
      BytesKept d t.dev core r.abase (0x180) ∧
      ∀ f ∈ d.active, t.dev.fibre? f.core f.slot f.lane = some { f with wait := .recur, pc := d.cur.pc, cohort := 0 }) ∧
  (∀ o : K1Op, ∀ s : State, Ready s (.recur o) → let d := s.dev
    ∀ r, (d.core d.grp.core).rec_ = some r → r.gid = d.grp.gid → r.saved = false → (∀ m ∈ d.cur.members, m.1 = r.slot ∧ m.2 ∈ r.away) →
      ∃ t, exec (.recur o) s = .next t ∧ OnlyFibres s { t with dev := { t.dev with cores := d.cores } } ∧ OthersKept d t.dev ∧
        OnlyRec d t.dev d.grp.core (some { r with away := r.away.filter fun l => !d.cur.members.any fun m => m.2 == l }) ∧
        ∀ f ∈ d.active, t.dev.fibre? f.core f.slot f.lane = some { f with wait := .recur, cohort := 0 }) ∧
  (∀ o : K1Op, Traps (.recur o) (fun d => ¬WholeWarp d ∧ ∀ r, (d.core d.grp.core).rec_ = some r → r.gid = d.grp.gid → r.saved = false →
    ¬∀ m ∈ d.cur.members, m.1 = r.slot ∧ m.2 ∈ r.away) 3 0 (fun _ _ => 0) KeepsIll) ∧
  ∀ s : State, let d := s.dev; let core := d.arg.a; let lane := d.arg.b
    ∀ f r x k off rest, d.fibres.find? (fun f => f.core == core && f.lane == lane && d.startReady f) = some f →
      d.fibre? core f.slot lane = some f → d.recOf f = some (r, x) → x.next = (k, off) :: rest → 3 ≤ f.win.length →
      ∃ t g, exec .routineStart s = .next t ∧ { t with dev := { t.dev with fibres := d.fibres, cores := d.cores } } = s ∧
        OnlyRec d t.dev core (some { r with ls := r.ls.set lane { x with run := some k, frame := off, next := rest } }) ∧
        (∀ c n l, (c, n, l) ≠ (core, f.slot, lane) → t.dev.fibre? c n l = d.fibre? c n l) ∧
        t.dev.fibre? core f.slot lane = some g ∧ g.wait = .none ∧
        g.pc = (match k with | .divide => r.div | .base => r.bas | .combine => r.comb) ∧
        g.vreg 0 = BitVec.ofNat 64 off ∧ g.vreg 1 = BitVec.ofNat 64 (InSpad d core off 8) ∧
        g.vreg 2 = (if k = .combine then BitVec.ofNat 64 (InSpad d core (off + 0x18) 1) else 0) ∧
        g.outst = [] ∧ g.pred = f.pred ∧ g.fpctl = f.fpctl ∧ (g.lp0, g.lp1, g.lp2) = (f.lp0, f.lp1, f.lp2)

/-- R230, R232, R235, R237, R238: in a routine, RCHILD stages a child and with LAST ends the divide, RBASE hands the frame to the base routine,
RRES stores the result and ends its routine, and RARG reads the ARG of a breadth frame. -/
def Sys2Proof.Stmt.RecursionRoutinesRules : Prop :=
  (∀ o : K1Op, ∀ s : State, Ready s (.rchild o) → let d := s.dev; let k := d.readK o.ka.toNat
    ∀ f r x, d.ms.wf = true → RunsLane d f r x → x.run = some .divide → k.toNat % 8 = 0 → k.toNat % 2 ^ 16 + 8 ≤ r.fsize → r.cmax ≤ 4 →
    let n := InSpad d f.core (x.frame + 0x18) 1
    n < r.cmax → InSpad d f.core (x.frame + 0x1A) 1 ≠ r.dmax →
    (if r.stage = 1 then r.btop + (r.staged + 1) * (64 + r.fsize) ≤ r.abase + r.asize
      else x.top + (n + 1) * (64 + r.fsize) ≤ r.btop + (f.lane + 1) * r.stk) →
    let r1 := if r.stage = 1 then { r with staged := r.staged + 1 } else r
    ∃ t g, exec (.rchild o) s = .next t ∧ OnlyRecursion s t ∧ OthersKept d t.dev ∧
      t.dev.fibre? f.core f.slot f.lane = some g ∧
      let v := InSpad d f.core (x.frame + 0x40 + k.toNat % 2 ^ 16) 8
      let stage (o : Nat) : Prop := o = x.frame + 0x18 ∨ (x.frame + 0x20 + 8 * n ≤ o ∧ o < x.frame + 0x28 + 8 * n)
      (k.getLsbD 16 = false → WentOn f g ∧ Linked f g none ∧ KeepsRest f g ∧ OnlyRec d t.dev f.core (some r1) ∧
        Staged t.dev f.core x.frame n v ∧ KeptBut d t.dev f.core stage) ∧
      -- LAST in the breadth phase, other divides of the level being open
      (k.getLsbD 16 = true → r.stage = 1 → 2 ≤ r.openN →
        AtRecur r f g ∧ OnlyRec d t.dev f.core (some { r1 with openN := r.openN - 1, ls := r.ls.set f.lane { x with run := none } }) ∧
        Staged t.dev f.core x.frame n v ∧ InSpad t.dev f.core (x.frame + 0x1B) 1 = InSpad d f.core (x.frame + 0x1B) 1 ||| 2 ∧
        KeptBut d t.dev f.core fun o => stage o ∨ o = x.frame + 0x1B) ∧
      -- LAST in the breadth phase, the last divide of its level: the children of all its frames are the next level (R229)
      (k.getLsbD 16 = true → r.stage = 1 → r.openN = 1 → AtRecur r f g ∧
        let lv := nth r.levels r.level (0, 0); let fs := 64 + r.fsize
        let at_ (m : Nat) : Nat := r.abase + 0x140 + m * fs
        let kids (i : Nat) : Nat := if at_ (lv.1 + i) = x.frame then n + 1 else InSpad d f.core (at_ (lv.1 + i) + 0x18) 1
        let arg (i c : Nat) : Nat := if at_ (lv.1 + i) = x.frame ∧ c = n then v else InSpad d f.core (at_ (lv.1 + i) + 0x20 + 8 * c) 8
        let before (i : Nat) : Nat := ((List.range i).map kids).foldl (· + ·) 0
        let all := before lv.2
        lv.1 + lv.2 ≤ r.nbr → (∃ i < lv.2, x.frame = at_ (lv.1 + i)) → (∀ i < lv.2, kids i ≤ 4) →
        (∀ i < lv.2, (kids i ≠ 0 → InSpad t.dev f.core (at_ (lv.1 + i) + 0x1C) 4 = at_ (r.nbr + before i) % 2 ^ 32) ∧ ∀ c < kids i,
          NewFrame t.dev f.core (at_ (r.nbr + before i + c)) (arg i c) (at_ (lv.1 + i)) (r.nbr + before i + c) c
            (InSpad d f.core (at_ (lv.1 + i) + 0x1A) 1 + 1)) ∧
        KeptBut d t.dev f.core (fun o => stage o ∨ o = x.frame + 0x1B ∨ (r.abase ≤ o ∧ o < r.abase + 0x140) ∨
          (∃ i < lv.2, kids i ≠ 0 ∧ at_ (lv.1 + i) + 0x1C ≤ o ∧ o < at_ (lv.1 + i) + 0x20) ∨
          ∃ m < all, at_ (r.nbr + m) ≤ o ∧ o < at_ (r.nbr + m) + 64) ∧
        ∃ y, OnlyRec d t.dev f.core (some y) ∧ y.nbr = r.nbr + all ∧ y.levels = r.levels ++ [(r.nbr, all)] ∧ y.level = r.level + 1 ∧
          y.btop = at_ (r.nbr + all) ∧ y.stage = (if r.lanes ≤ all then 2 else 1)) ∧
      -- LAST in the depth phase: the children lie on the lane's stack (R230)
      (k.getLsbD 16 = true → r.stage = 2 → AtRecur r f g ∧ OnlyRec d t.dev f.core (some { r with ls := r.ls.set f.lane { x with
          run := none, top := x.top + (n + 1) * (64 + r.fsize), pushed := x.pushed + (n + 1)
          next := ((List.range (n + 1)).map fun i => (.divide, x.top + i * (64 + r.fsize))) ++ [(.combine, x.frame)] ++ x.next } }) ∧
        (x.frame + 64 ≤ x.top ∨ x.top + (n + 1) * (64 + r.fsize) ≤ x.frame →
          InSpad t.dev f.core (x.frame + 0x1C) 4 = x.top % 2 ^ 32 ∧
          InSpad t.dev f.core (x.frame + 0x1B) 1 = InSpad d f.core (x.frame + 0x1B) 1 ||| 2 ∧ Staged t.dev f.core x.frame n v ∧
          (∀ c ≤ n, NewFrame t.dev f.core (x.top + c * (64 + r.fsize))
            (if c = n then v else InSpad d f.core (x.frame + 0x20 + 8 * c) 8) x.frame (0x80000000 + f.lane * 2 ^ 24 + x.pushed + c) c
            (InSpad d f.core (x.frame + 0x1A) 1 + 1)) ∧
          KeptBut d t.dev f.core fun o => stage o ∨ (x.frame + 0x1B ≤ o ∧ o < x.frame + 0x20) ∨
            ∃ c ≤ n, x.top + c * (64 + r.fsize) ≤ o ∧ o < x.top + c * (64 + r.fsize) + 64))) ∧
  (∀ o : NulOp, ∀ s : State, Ready s (.rbase o) → let d := s.dev
    ∀ f r x, d.ms.wf = true → RunsLane d f r x → x.run = some .divide → InSpad d f.core (x.frame + 0x18) 1 = 0 →
    ∃ t g, exec (.rbase o) s = .next t ∧ OnlyRecursion s t ∧ OthersKept d t.dev ∧
      t.dev.fibre? f.core f.slot f.lane = some g ∧ AtRecur r f g ∧
      OnlyRec d t.dev f.core (some { r with ls := r.ls.set f.lane { x with run := none, next := (.base, x.frame) :: x.next } }) ∧
      InSpad t.dev f.core (x.frame + 0x1B) 1 = InSpad d f.core (x.frame + 0x1B) 1 ||| 3 ∧
      BytesKept d t.dev f.core (x.frame + 0x1B) 1) ∧
  (∀ o : K1Op, ∀ s : State, Ready s (.rres o) → let d := s.dev; let k := d.readK o.ka.toNat
    ∀ f r x, d.ms.wf = true → RunsLane d f r x → x.run = some .base ∨ x.run = some .combine → k.toNat % 8 = 0 → k.toNat % 2 ^ 16 + 8 ≤ r.fsize →
    (if r.stage = 2 then x.next ≠ [] else 2 ≤ r.openN) →
    ∃ t g, exec (.rres o) s = .next t ∧ OnlyRecursion s t ∧ OthersKept d t.dev ∧
      t.dev.fibre? f.core f.slot f.lane = some g ∧ AtRecur r f g ∧
      InSpad t.dev f.core (x.frame + 8) 8 = InSpad d f.core (x.frame + 0x40 + k.toNat % 2 ^ 16) 8 ∧
      InSpad t.dev f.core (x.frame + 0x1B) 1 = InSpad d f.core (x.frame + 0x1B) 1 ||| 4 ∧
      KeptBut d t.dev f.core (fun o => (x.frame + 8 ≤ o ∧ o < x.frame + 16) ∨ o = x.frame + 0x1B) ∧
      OnlyRec d t.dev f.core (some (if r.stage = 2 then { r with ls := r.ls.set f.lane { x with
          run := none, top := if x.run = some .combine then InSpad d f.core (x.frame + 0x1C) 4 else x.top } }
        else { r with openN := r.openN - 1, ls := r.ls.set f.lane { x with run := none } }))) ∧
  ∀ o : K2Op, ∀ s : State, Ready s (.rarg o) → HoldsK s.dev o.kd.toNat → let d := s.dev; let n := (d.readK o.ka.toNat).toNat % 2 ^ 32
    ∀ r, (d.core d.cur.core).rec_ = some r → r.gid = d.cur.gid → n < r.nbr →
    ∃ t, exec (.rarg o) s = .next t ∧ OnlyUniform s t ∧ AllGo s t (fun _ => none) ∧
      (∀ m, m ≠ o.kd.toNat → m < 64 → t.dev.kreg m = d.kreg m) ∧
      ⟨.k o.kd.toNat, d.cur.anchor, BitVec.ofNat 64 (InSpad d d.cur.core (r.abase + 0x140 + n * (64 + r.fsize)) 8), BitVec.allOnes 64⟩ ∈
        t.dev.grp.outst

/-- R224 to R229, R233, R236, R275: RECUR of a whole warp with a good object starts a recursion with one frame for lane 0 and leaves every fibre
waiting; a warp whose recursion lives joins it; a routine starts with its frame, ARG and NCH in v0 to v2.

R230, R232, R235, R237, R238: in a routine, RCHILD stages a child and with LAST ends the divide, RBASE hands the frame to the base routine,
RRES stores the result and ends its routine, and RARG reads the ARG of a breadth frame. -/
def Obligations.RecursionUnfolding : Prop := Stmt.RecursionStartsRules ∧ Stmt.RecursionRoutinesRules

namespace Sys2Proof.Stmt

open Machine

/-! ## The key-value cache (07: R163, R164; 20: R370 to R378) -/

/-- Memory is in its canonical form, no store to a register of another core is held back, and the batch is one fibre of a resident group,
which is no helper and waits for nothing, and whose operands pass the checks of R371 and R372 and name a map entry. -/
def NamesEntry (d : Dev) (o : R3Op) (maxOp acc code : Nat) (f : Fibre) (k : KvDesc) (t : KvAt) : Prop :=
  d.ms.wf = true ∧ d.ms.regLines = [] ∧ d.active = [f] ∧ f.helper = false ∧ f.wait = .none ∧ f.late = none ∧ (∃ g, d.group? d.cur.gid = some g) ∧
  d.kvPlan d.grp maxOp (widthOf o.ty) acc code (ArgB d f o) (ArgA d f o) = .ok (k, some t)

/-- Nothing changes but fibres, memory, the holds of the batch's group, the shutter table of its core, what is posted, and the counter of free
values. -/
def OnlyCache (s t : State) : Prop :=
  t.agenda = s.agenda ∧ t.pwr = s.pwr ∧ t.fw = s.fw ∧
  { t.dev with fibres := s.dev.fibres, groups := s.dev.groups, cores := s.dev.cores, ms := s.dev.ms, arrivals := s.dev.arrivals,
               posts := s.dev.posts, free := s.dev.free } = s.dev ∧
  (∀ n g, s.dev.group? n = some g → ∃ h, t.dev.group? n = some h ∧ { h with holds := g.holds } = g ∧ (n ≠ s.dev.grp.gid → h = g)) ∧
  ∀ k, { t.dev.core k with shut := (s.dev.core k).shut } = s.dev.core k ∧ (k ≠ s.dev.grp.core → t.dev.core k = s.dev.core k)

/-- Values are outstanding for lane registers from `vd` on, and the other lane registers and the mask registers are as before. -/
def Owes (f g : Fibre) (vd : Nat) (l : List W64) : Prop :=
  g.outst = (f.outst.filter fun o => (List.range l.length).all fun i => !(o.reg == .v (vd + i))) ++
    l.mapIdx (fun i x => ⟨.v (vd + i), 0, x, BitVec.allOnes 64⟩) ∧
  g.win.length = f.win.length ∧ g.pred = f.pred ∧ ∀ n, n < vd ∨ vd + l.length ≤ n → g.vreg n = f.vreg n

/-- The bytes of memory that a party of a core reads are those before with some stores, the later ones last. -/
def MemStored (core : Nat) (m m' : MemSys) (ws : List (Nat × List Byte)) : Prop :=
  ∀ x, isRegAddr x = false → m'.peek core x = afterStores (m.peek core x) x ws

/-- The stores of a push of a page on free ring `r`, at the slot `p` (R370). -/
def pushStores (d : Dev) (core : Nat) (k : KvDesc) (r p page : Nat) : List (Nat × List Byte) :=
  [(p, leBytes 4 page), (k.pa + 0x3C + 8 * r, leBytes 4 (((d.kvCounts core k r).2 + 1) % 2 ^ 32))]

/-- KVLD (R374, R375), of one fibre whose operands name an entry, by the state of the entry and the operation in B[7:0]. -/
def CacheLoad (i : R3Op → Instr) : Prop :=
  ∀ o : R3Op, ∀ s : State, Ready s (i o) → ∀ f k t, let d := s.dev; let g := d.grp; let n := widthOf o.ty / 8
    let op := (ArgB d f o).toNat % 256
    let e := d.kvGet g.core t.pa
    let hold := g.holdOn t e.page
    let shut := (d.core g.core).shut
    let row := d.kvAddr g.ctx (k.pool1 + BitVec.ofNat 64 (e.page * 2 ^ k.pgsh + t.row)) 1 0
    NamesEntry d o 2 1 0 f k t → (op = 2 → hold ≠ none) →
    ((e.state = 1 ∨ (e.state = 3 ∧ hold ≠ none)) → d.ms.pendingOf g.core = [] ∧ ∃ p, row = .ok p ∧ (p + n ≤ t.pa ∨ t.pa + 16 ≤ p) ∧
      ∀ j < n, d.ms.ownGet g.core (p + j) = none) →
    ∃ u, exec (i o) s = .next u ∧
      -- the fibre's two results and what it leaves
      (let done (x st : W64) : Prop := OnlyCache s u ∧ OthersKept d u.dev ∧ ∃ h, u.dev.fibre? f.core f.slot f.lane = some h ∧
         Owes f h (laneNo o.hv o.vd) [x, st] ∧ WentOn f h ∧ KeepsRest f h
       let quiet : Prop := u.dev.groups = d.groups ∧ u.dev.cores = d.cores ∧ u.dev.arrivals = d.arrivals ∧ u.dev.posts = d.posts
       let holds (l : List Hold) : Prop := u.dev.group? g.gid = some { g with holds := l }
       let others (h : Hold) : List Hold := g.holds.filter fun x => !(x.entry == h.entry && x.page == h.page)
       let noPost : Prop := u.dev.arrivals = d.arrivals ∧ u.dev.posts = d.posts
       let onlySnap : Prop := { u.dev.ms with snap := d.ms.snap } = d.ms
       (e.state = 0 → done 0 2 ∧ quiet ∧ u.dev.ms = d.ms) ∧
       (e.state = 2 → done 0 1 ∧ u.dev.groups = d.groups ∧ u.dev.cores = d.cores ∧
         let q := d.post g.ctx g.core k.mbox (ArgA d f o)
         (u.dev.ms, u.dev.arrivals, u.dev.posts) = (q.ms, q.arrivals, q.posts)) ∧
       (e.state = 3 → hold = none → done 0 3 ∧ quiet ∧ u.dev.ms = d.ms) ∧
       (e.state = 1 ∨ (e.state = 3 ∧ hold ≠ none) → ∀ p, row = .ok p →
         -- the row is read as by a strong load at DEVICE scope
         let was := BitVec.ofNat 64 (leVal (MemSys.strongLoads g.core 5 n p d.ms).1)
         let left := dropStream g.gid t.va e.page shut
         (op = 0 → done was 0 ∧ quiet ∧ onlySnap) ∧
         (op = 1 → ∀ h, hold = some h → h.count < 65535 →
           done was 0 ∧ onlySnap ∧ noPost ∧ u.dev.cores = d.cores ∧ holds (others h ++ [{ h with count := h.count + 1 }])) ∧
         (op = 1 → hold = none → e.strm ≠ 255 → shut.length < 32 →
           done was 0 ∧ noPost ∧
           MemStored g.core d.ms u.dev.ms [(t.pa, leBytes 16 { e with strm := e.strm + 1 }.word)] ∧
           (u.dev.core g.core).shut = shut ++ [streamShut g t.va e.page] ∧ holds (g.holds ++ [⟨t.va, k.va.toNat, e.page, 1⟩])) ∧
         (op = 1 → (hold = none ∧ (e.strm = 255 ∨ 32 ≤ shut.length)) ∨ (∃ h, hold = some h ∧ 65535 ≤ h.count) →
           { u with dev := { u.dev with fibres := d.fibres, pipe := d.pipe } } = s ∧ AllWait s u .held) ∧
         (op = 2 → ∀ h, hold = some h → 1 < h.count →
           done was 0 ∧ onlySnap ∧ noPost ∧ u.dev.cores = d.cores ∧ holds (others h ++ [{ h with count := h.count - 1 }])) ∧
         (op = 2 → ∀ h, hold = some h → h.count ≤ 1 → e.state = 1 ∨ 1 < e.strm →
           done was 0 ∧ noPost ∧ MemStored g.core d.ms u.dev.ms [(t.pa, leBytes 16 { e with strm := e.strm - 1 }.word)] ∧
           (u.dev.core g.core).shut = left ∧ holds (others h)) ∧
         (op = 2 → ∀ h q, hold = some h → h.count ≤ 1 → e.state = 3 → e.strm ≤ 1 → d.kvPush g.ctx g.core k 1 = .ok q →
           done was 0 ∧ noPost ∧ MemStored g.core d.ms u.dev.ms
             (pushStores d g.core k 1 q e.page ++ [(t.pa, leBytes 16 { e with strm := 0, state := 0, pin := false }.word)]) ∧
           (u.dev.core g.core).shut = left ∧ holds (others h))))

/-- The rows of R376 that do nothing, with their status: 0 APPEND, 1 UNREF, 2 PAGEIN, 3 COMMIT, 4 RETAIN. -/
def idleStatus (op : Nat) (e : KvEnt) : Option Nat :=
  match op with
  | 0 => if e.state = 2 then some 1 else if e.state = 3 then some 3 else none
  | 1 => if e.state = 0 then some 2 else if e.state = 3 then some 3 else if e.state = 2 ∧ e.pin then some 1
    else if e.ref = 0 then some 2 else none
  | 2 => if e.state ≠ 2 then some 3 else if e.pin then some 1 else none
  | 3 => if e.state ≠ 2 then some 3 else if e.pin then none else some 1
  | 4 => if e.state = 0 then some 2 else if e.state = 3 then some 3 else if e.ref = 65535 then some 2 else none
  | _ => none

/-- The rows that change the entry alone. -/
def entryAfter (op : Nat) (e : KvEnt) : Option KvEnt :=
  match op with
  | 1 => if (e.state = 1 ∨ (e.state = 2 ∧ e.pin = false)) ∧ 1 < e.ref then some { e with ref := e.ref - 1 }
    else if e.state = 1 ∧ e.ref = 1 ∧ e.strm ≠ 0 then some { e with ref := 0, state := 3 } else none
  | 4 => if (e.state = 1 ∨ e.state = 2) ∧ e.ref ≠ 65535 then some { e with ref := e.ref + 1 } else none
  | _ => none

/-- The rows that change the entry and push a page: the entry, the ring and the page. -/
def entryFreed (op : Nat) (e : KvEnt) : Option (KvEnt × Nat × Nat) :=
  match op with
  | 1 => if e.state = 1 ∧ e.ref = 1 ∧ e.strm = 0 then some ({ e with ref := 0, state := 0 }, 1, e.page)
    else if e.state = 2 ∧ e.pin = false ∧ e.ref = 1 then some ({ e with ref := 0, state := 0 }, 2, e.t2) else none
  | 3 => if e.state = 2 ∧ e.pin = true then some ({ e with state := 1, pin := false }, 2, e.t2) else none
  | _ => none

/-- KVAPP (R376, R377), of one fibre whose operands name an entry; region-closing (R253). -/
def CacheUpdate (i : R3Op → Instr) : Prop :=
  ∀ o : R3Op, ∀ s : State, Ready s (i o) → ∀ f k t, let d := s.dev; let g := d.grp; let w := widthOf o.ty
    let op := (ArgB d f o).toNat % 256
    let e := d.kvGet g.core t.pa
    let x := d.readV f (laneNo o.hv o.va + 1)
    let r := if op = 3 then d.release g.core 5 else d
    let head : Nat × List Byte := (k.pa + 0x40, leBytes 4 (((d.kvCounts g.core k 1).1 + 1) % 2 ^ 32))
    let row (page : Nat) := d.kvAddr g.ctx (k.pool1 + BitVec.ofNat 64 (page * 2 ^ k.pgsh + t.row)) 2 1
    let value := d.kvValue g k w (ArgA d f o) x
    let done (u : State) (st : Nat) : Prop :=
      exec (i o) s = .next u ∧ OnlyFibres s { u with dev := { u.dev with ms := d.ms } } ∧ OthersKept d u.dev ∧
      ∃ h, u.dev.fibre? f.core f.slot f.lane = some h ∧ Owes f h (laneNo o.hv o.vd) [BitVec.ofNat 64 st] ∧
        h.mdone = (if Resumes f then 0 else f.mdone) ∧ Closed f { h with mdone := f.mdone }
    let bytes (p : Nat) (v : W64) : Nat × List Byte := (p, leBytes (w / 8) v.toNat)
    NamesEntry d o 4 3 3 f k t →
    (∀ st, idleStatus op e = some st → ∃ u, done u st ∧ u.dev.ms = d.ms) ∧
    (∀ e', entryAfter op e = some e' → ∃ u, done u 0 ∧ MemStored g.core d.ms u.dev.ms [(t.pa, leBytes 16 e'.word)]) ∧
    (∀ e' ring page q, entryFreed op e = some (e', ring, page) → r.kvPush g.ctx g.core k ring = .ok q →
      ∃ u, done u 0 ∧ MemStored g.core r.ms u.dev.ms (pushStores r g.core k ring q page ++ [(t.pa, leBytes 16 e'.word)])) ∧
    (op = 2 → e.state = 2 → e.pin = false → (d.kvRoom g.core k 1 = 0 → ∃ u, done u 2 ∧ u.dev.ms = d.ms) ∧
      (d.kvRoom g.core k 1 ≠ 0 → ∀ page, d.kvPop g k = .ok page →
        ∃ u, done u 0 ∧ MemStored g.core d.ms u.dev.ms [head, (t.pa, leBytes 16 { e with pin := true, page := page }.word)])) ∧
    (op = 0 → e.state = 1 → ∀ p v, isRegAddr p = false → isRegAddr (p + 7) = false → row e.page = .ok p → value = .ok v → ∃ u, done u 0 ∧ MemStored g.core d.ms u.dev.ms [bytes p v]) ∧
    (op = 0 → e.state = 0 → (d.kvRoom g.core k 1 = 0 → ∃ u, done u 2 ∧ u.dev.ms = d.ms) ∧
      (d.kvRoom g.core k 1 ≠ 0 → ∀ page p v, isRegAddr p = false → isRegAddr (p + 7) = false → d.kvPop g k = .ok page → row page = .ok p → value = .ok v →
        ∃ u, done u 0 ∧ MemStored g.core d.ms u.dev.ms
          [head, (t.pa, leBytes 16 { e with state := 1, ref := 1, strm := 0, page := page }.word), bytes p v])) ∧
    ∀ v, value = .ok v → (k.flags % 2 = 0 ∨ w ≠ 64 → v = x) ∧
      (k.flags % 2 = 1 → w = 64 → ∀ a, d.kvAddr g.ctx (k.theta + BitVec.ofNat 64 (4 * ((ArgA d f o).toNat % 2 ^ 12 / 8))) 1 0 = .ok a →
        0x3F800000 < leVal (d.ms.peeks g.core a 4) % 2 ^ 31 ∨ IsNaN .f32 (x.toNat % 2 ^ 32) ∨ IsNaN .f32 (x.toNat / 2 ^ 32) →
        v = 0x7FC000007FC00000)

end Sys2Proof.Stmt

/-- R374 to R377, R370: KVLD and KVAPP of one fibre on an entry in each of its states, under every constructor of theirs (the operation
stands in B); a CLOSE without a hold traps; a hold left behind by a group is released later. -/
def Obligations.CacheInstructions : Prop :=
  (CacheLoad .kvldRead ∧ CacheLoad .kvldOpen ∧ CacheLoad .kvldClose) ∧
  (CacheUpdate .kvappAppend ∧ CacheUpdate .kvappUnref ∧ CacheUpdate .kvappPagein ∧ CacheUpdate .kvappCommit ∧ CacheUpdate .kvappRetain) ∧
  (∀ o : R3Op, Traps (.kvldClose o) (fun d => ∃ f k t, NamesEntry d o 2 1 0 f k t ∧ (ArgB d f o).toNat % 256 = 2 ∧
      d.grp.holdOn t (d.kvGet d.grp.core t.pa).page = none) 14 0 (fun d f => ArgA d f o) KeepsIll) ∧
  ∀ s : State, let d := s.dev; let no := 512
    ∀ r ep, d.ms.wf = true → d.ms.regLines = [] → d.hub.releases[d.arg.a]? = some r → (d.hub.ctx? r.ctx).isSome → d.waits (.stream r.id) = false →
      let kv : W64 := (BitVec.ofNat 48 r.hold.desc).signExtend 64
      d.kvAddr r.ctx ((BitVec.ofNat 48 r.hold.entry).signExtend 64) 3 3 = .ok ep →
      let e := d.kvGet no ep
      let out (t : State) : Prop := exec .streamRelease s = .next t ∧ { t with dev := { t.dev with ms := d.ms, hub := d.hub } } = s ∧
        t.dev.hub = { d.hub with releases := d.hub.releases.filter fun x => x.id != r.id }
      -- the descriptor is needed only where the page becomes free
      (e.state ≠ 3 ∨ 1 < e.strm → ∃ t, out t ∧ MemStored no d.ms t.dev.ms [(ep, leBytes 16 { e with strm := e.strm - 1 }.word)]) ∧
      (e.state = 3 → e.strm ≤ 1 → ∀ kp, d.kvAddr r.ctx kv 3 3 = .ok kp → let k := kvDesc kv kp (d.ms.readDevice kp 256)
        ∀ q, d.kvPush r.ctx no k 1 = .ok q → ∃ t, out t ∧ MemStored no d.ms t.dev.ms
          (pushStores d no k 1 q e.page ++ [(ep, leBytes 16 { e with strm := 0, state := 0, pin := false }.word)]))

namespace Sys2Proof.Stmt

open Machine

/-! ## Corgon (22: R391 to R393) -/

/-- Corgon core `n` stands as `c`; the other Corgon cores and the rest of firmware, power and the agenda are as before. -/
def OnlyCorgon (s t : State) (n : Nat) (c : Corgon) : Prop :=
  t.agenda = s.agenda ∧ t.pwr = s.pwr ∧ { t.fw with corgons := s.fw.corgons } = s.fw ∧
  getBy Corgon.no n t.fw.corgons = some c ∧ ∀ m, m ≠ n → getBy Corgon.no m t.fw.corgons = getBy Corgon.no m s.fw.corgons

/-- A Corgon core writes the result `v` to register `rd` (x0 stays 0) and goes on; minstret counts (log 11). -/
def CorDone (c c' : Corgon) (rd : Nat) (v : W64) : Prop :=
  c'.pc = c.pc + 4 ∧ c'.minstret = c.minstret + 1 ∧ { c' with x := c.x, pc := c.pc, minstret := c.minstret } = c ∧ ∀ n < 32, c'.get n = if n = rd ∧ n ≠ 0 then v else c.get n

/-- A Corgon core takes a custom exception: no register is written; mcause and mtval as R391 says, the rest of the entry PRESUMED (log 11). -/
def CorTrap (c c' : Corgon) (cause : Nat) (tval : W64) : Prop :=
  c'.mcause = BitVec.ofNat 64 cause ∧ c'.mtval = tval ∧ c'.mepc = c.pc ∧ c'.pc = c.mtvec &&& ~~~(3 : W64) ∧
  { c' with pc := c.pc, mepc := c.mepc, mcause := c.mcause, mtval := c.mtval, mstatus := c.mstatus } = c

/-- A group has been released on a core by DISP, as a record says (R393), and whatever was there before still is. -/
def DispGroup (d e : Dev) (b : List Byte) (core : Nat) (g : Group) : Prop :=
  e.group? d.hub.nextGid = some g ∧ g.gid = d.hub.nextGid ∧ g.core = core ∧ g.role = .plain ∧
  g.entry = BitVec.ofNat 48 (fieldOf b 0 8) ∧ g.launchid = BitVec.ofNat 32 (fieldOf b 0x18 4) ∧ g.ctx = fieldOf b 0x1C 1 ∧
  g.cls = fieldOf b 0x1D 1 ∧ g.teamid = fieldOf b 0x1E 2 ∧ g.groupid = fieldOf b 0x20 1 ∧ g.slots.length = fieldOf b 0x21 1 ∧
  (fieldOf b 0x24 1 = 0 → g.spad = []) ∧ (fieldOf b 0x24 1 ≠ 0 → ∃ u, g.spad = [⟨u, fieldOf b 0x24 1⟩]) ∧
  g.aslots.length = fieldOf b 0x25 1 ∧ (fieldOf b 8 8 = 0 → ∀ n < 55, nth g.ks n 0 = 0) ∧
  d.groups <+: e.groups ∧ d.fibres <+: e.fibres ∧ d.warps <+: e.warps ∧
  { e with fibres := d.fibres, warps := d.warps, groups := d.groups, saved := d.saved, hub := d.hub, ms := d.ms, free := d.free } = d ∧
  e.saved.map (fun x => { x with for_ := 0 }) = d.saved.map fun x => { x with for_ := 0 }

end Sys2Proof.Stmt

/-- R391 to R393, R346: RFETCH, XBFE, SWAIT and its wake, DISP and the core-signal register, with their faults. The exception entry of a Corgon
core beyond mcause, mtval and the unwritten rd is PRESUMED (log 11). -/
def Obligations.CorgonInstructions : Prop :=
  (∀ s : State, s.cor.x.length = 31 → ∀ o : XcOp, let c := s.cor; let a := c.get o.rs1.toNat; let b := c.get o.rs2.toNat
    let p := b.toNat % 64; let n := b.toNat / 64 % 64 + 1
    let field (i : XcOp → Instr) (bit : Nat → Bool) : Prop := ∃ t c', exec (i o) s = .next t ∧ t.dev = s.dev ∧ OnlyCorgon s t s.fw.curCorgon c' ∧
      (b.toNat < 2 ^ 12 ∧ p + n ≤ 64 → ∃ v : W64, CorDone c c' o.rd.toNat v ∧ ∀ i < 64, v.getLsbD i = bit i) ∧
      (¬(b.toNat < 2 ^ 12 ∧ p + n ≤ 64) → CorTrap c c' 25 b)
    field .xbfe (fun i => decide (i < n) && a.getLsbD (p + i)) ∧ field .xbfeS fun i => a.getLsbD (p + min i (n - 1))) ∧
  (∀ s : State, s.cor.x.length = 31 → ∀ o : XcWOp, let c := s.cor; let m := c.get o.rs1.toNat; let h := s.dev.hub
    ∃ t c', exec (.swait o) s = .next t ∧ OnlyCorgon s t s.fw.curCorgon c' ∧ { t.dev with hub := h } = s.dev ∧
      (m = 0 → CorTrap c c' 26 0 ∧ t.dev.hub = h) ∧
      (h.signals &&& m ≠ 0 → CorDone { c with waiting := none } c' o.rd.toNat (h.signals &&& m) ∧
        t.dev.hub = { h with signals := h.signals &&& ~~~m }) ∧
      (m ≠ 0 → h.signals &&& m = 0 → c' = { c with waiting := some (m, o.rd.toNat) } ∧ t.dev.hub = h)) ∧
  (∀ s : State, let h := s.dev.hub; ∀ c m rd, getBy Corgon.no s.dev.arg.a s.fw.corgons = some c → c.x.length = 31 →
    c.waiting = some (m, rd) → ∃ t, exec .swaitWake s = .next t ∧ (h.signals &&& m = 0 → t = s) ∧
      (h.signals &&& m ≠ 0 → ∃ c', OnlyCorgon s t s.dev.arg.a c' ∧ CorDone { c with waiting := none } c' rd (h.signals &&& m) ∧
        t.dev = { s.dev with hub := { h with signals := h.signals &&& ~~~m } })) ∧
  (∀ s : State, let n := s.dev.arg.v.toNat % 2 ^ 32; ∃ t, exec .coreSignalWrite s = .next t ∧
    t = if n < 8 then { s with dev := { s.dev with hub := { s.dev.hub with signals := s.dev.hub.signals ||| BitVec.ofNat 64 (2 ^ (48 + n)) } } }
      else s) ∧
  (∀ s : State, s.cor.x.length = 31 → ∀ o : XcOp, let c := s.cor; let d := s.dev; let slot := (c.get o.rs1.toNat).toNat % 256
    ∃ t c', exec (.rfetch o) s = .next t ∧ OnlyCorgon s t s.fw.curCorgon c' ∧
      { t.dev with hub := d.hub, ms := d.ms } = d ∧
      (d.hub.queues.find? (fun q => q.hw == some slot) = none → CorDone c c' o.rd.toNat 3 ∧ t.dev = d) ∧
      ∀ q, d.hub.queues.find? (fun q => q.hw == some slot) = some q → q.stopped = false →
        (q.h = q.f → CorDone c c' o.rd.toNat 2 ∧ t.dev = d) ∧
        (q.h ≠ q.f → (q.h - q.f).toNat < 2 ^ 31 → q.half = [] → ∀ half1, d.hubHalf q.ctx (q.slotVa q.f + 64) = .ok half1 →
          (fieldOf half1 63 1 ≠ markOf q.f q.size → CorDone c c' o.rd.toNat 1 ∧ t.dev.ms = d.ms ∧
            t.dev.hub = d.hub.setQueue { q with paused := true }) ∧
          (fieldOf half1 63 1 = markOf q.f q.size → ∀ half0 a, d.hubHalf q.ctx (q.slotVa q.f) = .ok half0 → d.translateHub q.ctx q.ridx 2 = .ok a →
            let h := d.hub.setQueue { q with f := q.f + 1, half := [] }
            CorDone c c' o.rd.toNat 0 ∧ t.dev.ms = d.ms.poke .hub a (leBytes 4 (q.f + 1).toNat) ∧ { t.dev.hub with sram := h.sram } = h ∧
            (d.hub.sram.wf = true → t.dev.hub.sram.read (c.get o.rs2.toNat).toNat (half0 ++ half1).length = half0 ++ half1))) ∧
        (q.h ≠ q.f → (q.h - q.f).toNat < 2 ^ 31 → q.half = [] → ∀ u, d.hubHalf q.ctx (q.slotVa q.f + 64) = .error u → CorTrap c c' 24 (c.get o.rs1.toNat) ∧ t.dev.ms = d.ms ∧
          t.dev.hub = { d.hub.setQueue { q with stopped := true } with
            frecs := d.hub.frecs ++ [bareRec q.ctx (5 + 3 * 2 ^ 10) (vaOf (q.slotVa q.f + 64)) 0] })) ∧
  ∀ s : State, s.cor.x.length = 31 → ∀ o : XcOp, let c := s.cor; let d := s.dev; let core := (c.get o.rs2.toNat).toNat
    let b := d.hub.sram.read (c.get o.rs1.toNat).toNat 64
    ∃ t c', exec (.disp o) s = .next t ∧ OnlyCorgon s t s.fw.curCorgon c' ∧
      (511 < core → CorTrap c c' 27 (c.get o.rs2.toNat) ∧ t.dev = d) ∧
      (core ≤ 511 → badDisp d.hub b = true → CorTrap c c' 27 (c.get o.rs1.toNat) ∧ t.dev = d) ∧
      (core ≤ 511 → badDisp d.hub b = false → fieldOf b 0x10 8 = 0 → (∀ g ∈ d.groups, g.gid < d.hub.nextGid) →
        ((d.dispNew b core).isSome → CorDone c c' o.rd.toNat 0 ∧ ∃ g, DispGroup d t.dev b core g) ∧
        (d.dispNew b core = none → CorDone c c' o.rd.toNat 1 ∧ t.dev = d)) ∧
      (core ≤ 511 → badDisp d.hub b = false → fieldOf b 0x10 8 ≠ 0 →
        (d.dispSaved b = none → CorTrap c c' 27 (c.get o.rs1.toNat) ∧ t.dev = d) ∧
        ∀ v, d.dispSaved b = some v →
          (v.warps.length ≠ fieldOf b 0x21 1 ∨ d.mayRestore v core = false → CorTrap c c' 27 (c.get o.rs1.toNat) ∧ t.dev = d) ∧
          (v.warps.length = fieldOf b 0x21 1 → d.mayRestore v core = true →
            d.saved.find? (fun x => x.group.gid == v.group.gid && x.partial_ == v.partial_) = some v →
            (∀ w ∈ d.walks, w.eng.prod ≠ v.group.gid ∧ w.eng.cons ≠ v.group.gid) →
            let no := CorDone c c' o.rd.toNat 1 ∧ t.dev = d
            (d.eligible v = false → no) ∧ (∀ u, d.readSaved v = .error u → no) ∧
            ∀ u, d.eligible v = true → d.readSaved v = .ok u →
              (d.putBack u core = none → no) ∧ ∀ e, d.putBack u core = some e → CorDone c c' o.rd.toNat 0 ∧ t.dev = e ∧
                ∀ x ∈ e.saved, ¬(x.group.gid = v.group.gid ∧ x.partial_ = v.partial_)))

namespace Sys2Proof.Stmt

open Machine

/-! ## The fault path (10: R249 to R251; 17: R332 to R336; 19: R341; 22: R386 to R388) -/

/-- A resident group is on the fault path, none of its atomics is at an engine, its page faults are all known, and the fibres of it that have
trapped belong to one warp. -/
def OneWarpTrapped (d : Dev) (g : Group) (wid : Nat) : Prop :=
  d.group? d.arg.a = some g ∧ g.gid ≠ 0 ∧ g.stat = .faulting ∧ (∀ v ∈ d.saved, v.group.gid ≠ g.gid) ∧
  (∀ f ∈ d.fibres, d.gidOf f = g.gid → f.late = none ∧ f.wait ≠ .atomic ∧ (f.trapped = true → f.warpid = wid)) ∧
  ∃ f ∈ d.fibres, d.gidOf f = g.gid ∧ f.trapped = true

/-- Outstanding writes of a fibre's lane registers have arrived: each register holds the latest value owed to each of its bits. -/
def Landed (f g : Fibre) : Prop :=
  { g with win := f.win, outst := f.outst } = f ∧ g.outst = [] ∧ g.win.length = f.win.length ∧
  ∀ r, r < f.win.length → ∀ i < 64, (g.vreg r).getLsbD i =
    match (f.outst.filter fun o => o.reg == .v r && o.bits.getLsbD i).getLast? with
    | some o => o.value.getLsbD i
    | none => (f.vreg r).getLsbD i

/-- The record of a warp describes a trapped fibre (R249). -/
def RecordOf (g : Group) (f : Fibre) (lanes : LaneMap) : FRec :=
  { ctx := g.ctx, cause := f.trapcause, tpc := f.trappc, tadr := f.trapaddr, rec_ := f.rec_, repc := f.repc, mdone := f.mdone
    launchid := g.launchid, fibreid := f.slot * 32 + f.lane, core := g.core, lanes := lanes, groupid := g.groupid, fail := 0, gid := some g.gid }

/-- What the fault path leaves when the group has stopped: every fibre's writes have arrived (R79) and the group is descheduled. -/
def Descheduled (d e : Dev) (g : Group) : Prop :=
  { e with fibres := d.fibres, groups := d.groups, warps := d.warps, hub := d.hub, free := d.free } = d ∧
  (∀ k x, d.group? k = some x → ∃ y, e.group? k = some y ∧
    if k = g.gid then y.stat = .descheduled ∧ y.outst = [] ∧ { y with stat := x.stat, outst := x.outst, ks := x.ks } = x else y = x) ∧
  (∀ c n w, d.warp? c n = some w → ∃ x, e.warp? c n = some x ∧ { x with kd := w.kd } = w) ∧
  ∀ c n l f, d.fibre? c n l = some f → ∃ h, e.fibre? c n l = some h ∧
    if d.gidOf f = g.gid then Landed f h else h = f

/-- Request `n` of a function covers a unit of a context and is outstanding: it has been sent, or a free slot is about to send it (R332,
R333). -/
def Outstanding (fn : Fn) (n ctx : Nat) (u : FaultUnit) : Prop :=
  (∃ r ∈ fn.reqs, r.id = n ∧ r.stage = u.stage ∧ r.ctx = ctx ∧ r.page = u.page ∧ r.acc ||| u.acc = r.acc) ∨
  ∃ r ∈ fn.raised.take (32 - fn.reqs.length),
    r.id = n ∧ r.u.stage = u.stage ∧ r.ctx = ctx ∧ r.u.page = u.page ∧ r.u.acc ||| u.acc = r.u.acc

/-- The 64 bytes of a fault record (R249). -/
def recordBytes (r : FRec) : List Byte :=
  leBytes 8 r.cause.toNat ++ leBytes 8 r.tpc.toNat ++ leBytes 8 r.tadr.toNat ++ leBytes 8 r.rec_.toNat ++ leBytes 8 r.repc.toNat ++
  leBytes 8 r.mdone.toNat ++ leBytes 4 r.launchid.toNat ++ leBytes 2 r.fibreid ++ leBytes 2 r.core ++ leBytes 4 r.lanes.toNat ++
  leBytes 1 r.groupid ++ leBytes 1 r.fail ++ leBytes 2 0

/-- Record `i` of those waiting is tried, its ring translating: with room it stands in the ring, FRWR has advanced in the context and in its
descriptor, and the record waits no longer; without, line 6 is raised once and the record waits (R341, R392). -/
def RecordTried (s t : State) (i : Nat) : Prop :=
  let d := s.dev; let h := d.hub
  ∀ r c rd wr p, h.frecs[i]? = some r → h.ctx? r.ctx = some c →
    d.translateIpa c.vf (c.desc + 0x2C) 1 = .ok rd → d.translateIpa c.vf (c.desc + 0x30) 2 = .ok wr →
    d.translateIpa c.vf (c.fring + c.frwr.toNat % c.frsz * 64) 2 = .ok p →
    let held := (c.frwr.toNat + 2 ^ 32 - leVal (d.ms.mem.read rd 4)) % 2 ^ 32
    { t with dev := { t.dev with hub := h, ms := d.ms } } = s ∧
    (held < c.frsz → t.dev.ms = (d.ms.poke .hub p (recordBytes r)).poke .hub wr (leBytes 4 ((c.frwr.toNat + 1) % 2 ^ 32)) ∧
      t.dev.hub.frecs = h.frecs.eraseIdx i ∧
      (∃ x, t.dev.hub.ctx? r.ctx = some x ∧ { x with frwr := c.frwr, frecs := c.frecs } = c ∧ x.frwr = c.frwr + 1 ∧
        x.frecs = match r.gid with | some g => c.frecs ++ [(c.frwr, g)] | none => c.frecs) ∧
      (h.frozen = false → t.dev.hub.lastev.getLast? = some ⟨h.hubt, 1, r.core, r.ctx, r.cause⟩)) ∧
    (c.frsz ≤ held → t.dev.ms = d.ms ∧ (r.waiting = true → t = s) ∧
      (r.waiting = false → t.dev.hub.signals.getLsbD 6 = true ∧ t.dev.hub.frecs = h.frecs.set i { r with waiting := true } ∧
        { t.dev.hub with frecs := h.frecs, signals := h.signals, sram := h.sram } = h))

end Sys2Proof.Stmt

/-- R249, R332 to R334, R335, R341, R386: the fault path deschedules a group, with page requests for page faults and a record at once for another
cause; the next request is issued with the lowest free slot's tag, as a PRI message or a stage-2 record; records go to their rings; PRI is
re-enabled. -/
def Obligations.FaultPath : Prop :=
  (∀ s : State, let d := s.dev; ∀ g wid, OneWarpTrapped d g wid →
    let hit (f : Fibre) : Prop := f ∈ d.fibres ∧ d.gidOf f = g.gid ∧ f.trapped = true
    let pf (f : Fibre) : Prop := f.trapcause.toNat % 256 = 5
    let fn := d.hub.fn (d.vfOf g.ctx)
    ((∀ f, hit f → ¬pf f) → ∃ t f lanes, exec .faultPath s = .next t ∧ t.agenda = s.agenda ∧ t.pwr = s.pwr ∧ t.fw = s.fw ∧ Descheduled d t.dev g ∧
      t.dev.hub = { d.hub with frecs := d.hub.frecs ++ [RecordOf g f lanes] } ∧ hit f ∧ (∀ x, hit x → f.lane ≤ x.lane) ∧
      ∀ l < 32, lanes.getLsbD l = true ↔ ∃ x, hit x ∧ x.lane = l) ∧
    ((∀ f, hit f → pf f ∧ f.units ≠ [] ∧ ∀ u ∈ f.units, u.stage ≠ 0) → fn.priOff = false →
      ∃ (t : State) (c : Case) (us : List FaultUnit) (new : List Raised),
        exec .faultPath s = .next t ∧ t.agenda = s.agenda ∧ t.pwr = s.pwr ∧ t.fw = s.fw ∧ Descheduled d t.dev g ∧
        t.dev.hub = { d.hub.setFn { fn with raised := fn.raised ++ new } with
          cases := d.hub.cases ++ [c], nextReq := d.hub.nextReq + new.length } ∧
        c.who = .group g.gid ∧ c.ctx = g.ctx ∧ c.vf = d.vfOf g.ctx ∧ c.failed = false ∧ c.lost = [] ∧ c.addr = wid ∧
        (∀ u, u ∈ c.units ↔ ∃ f, hit f ∧ u ∈ f.units) ∧
        -- the distinct units, by lowest faulting address
        us.Pairwise (fun u v => u.va ≤ v.va) ∧ (us.map fun u => (u.stage, u.page)).Nodup ∧
        (∀ f, hit f → ∀ u ∈ f.units, ∃ x ∈ us, x.stage = u.stage ∧ x.page = u.page ∧ x.va ≤ u.va ∧ x.acc ||| u.acc = x.acc) ∧
        (∀ x ∈ us, ∃ f u, hit f ∧ u ∈ f.units ∧ u.stage = x.stage ∧ u.page = x.page ∧ u.va = x.va) ∧
        -- each joins an outstanding request that covers it, or raises one of its own
        c.waiting.length = us.length ∧
        (∀ (k : Nat) (u : FaultUnit) (n : Nat), us[k]? = some u → c.waiting[k]? = some n →
          Outstanding fn n g.ctx u ∨ ((∀ m, ¬Outstanding fn m g.ctx u) ∧ ⟨n, g.ctx, u⟩ ∈ new)) ∧
        (∀ r ∈ new, ∃ k : Nat, us[k]? = some r.u ∧ c.waiting[k]? = some r.id ∧ r.ctx = g.ctx) ∧
        new.map Raised.id = (List.range new.length).map (d.hub.nextReq + ·) ∧ new.Pairwise fun x y => x.u.va ≤ y.u.va)) ∧
  (∀ s : State, let d := s.dev; let h := d.hub; let vf := d.arg.a; let fn := h.fn vf
    ∀ r rest i, fn.raised = r :: rest → i < 32 → (∀ q ∈ fn.reqs, q.slot ≠ i) → (∀ j < i, ∃ q ∈ fn.reqs, q.slot = j) →
    let gen := nth fn.gens i 0 % 16; let tag := gen * 32 + i
    let q : PageReq := { id := r.id, slot := i, gen := gen, stage := r.u.stage, ctx := r.ctx, page := r.u.page, acc := r.u.acc }
    let h' := h.setFn { fn with raised := rest, reqs := fn.reqs ++ [q], gens := fn.gens.set i (gen + 1) }
    ∃ t, exec .pageRequestIssue s = .next t ∧ { t with dev := { t.dev with hub := h } } = s ∧ t.dev.hub = if r.u.stage = 1 then
      { h' with pri := h.pri ++ [{ vf := vf, pasid := ((h.ctx? r.ctx).map Ctx.pasid).getD 0, page := r.u.page, acc := r.u.acc, tag := tag,
                                   last := true }] }
      else { h' with s2recs := h.s2recs ++ [⟨vf, r.ctx, r.u, tag⟩] }) ∧
  (∀ s : State, let d := s.dev; let h := d.hub
    ∀ r rest, h.s2recs = r :: rest → 4 ≤ h.s2size → h.s2size ≤ 12 → (h.s2wr - h.s2rd).toNat < 2 ^ h.s2size →
    ∃ t, exec .stage2RequestRecord s = .next t ∧ t = { s with dev := { d with
      hub := { h with s2recs := rest, s2wr := h.s2wr + 1 }
      ms := d.ms.poke .hub (h.s2ring + 32 * (h.s2wr.toNat % 2 ^ h.s2size))
        (leBytes 8 (r.u.page * 2 ^ 16) ++ leBytes 8 r.u.va ++ leBytes 1 r.vf ++ leBytes 1 r.ctx ++ leBytes 1 r.u.acc ++ leBytes 1 r.u.kind ++
         leBytes 2 r.tag ++ leBytes 1 r.u.level ++ leBytes 9 0) } }) ∧
  (∀ s : State, ∃ t, exec .faultRecord s = .next t ∧ RecordTried s t s.dev.arg.a) ∧
  (∀ s : State, ∃ t, exec .faultRingPoll s = .next t ∧ ∀ i r, s.dev.hub.frecs[i]? = some r → r.ctx = s.dev.arg.a →
    (∀ j < i, ∀ x : FRec, s.dev.hub.frecs[j]? = some x → x.ctx ≠ s.dev.arg.a) → s.dev.waits (.ring s.dev.arg.a) = false → RecordTried s t i) ∧
  ∀ s : State, ∃ t, exec .priReenable s = .next t ∧ t = { s with dev := { s.dev with
    hub := s.dev.hub.setFn { s.dev.hub.fn s.dev.arg.a with priOff := false } } }

namespace Sys2Proof.Stmt

open Machine

/-- A trapped fibre of a resumed group continues (R251): after an imprecise trap at REPC with MDONE not valid, after HALT behind it, else at
TRAPPC; a parked one issues its WAITANY again (R170, R250); any other is as before, cohorts apart. -/
def Resumed (now : Nat) (f g : Fibre) : Prop :=
  if f.trapped then
    { g with pc := f.pc, mdone := f.mdone, trapped := true, units := f.units, wait := f.wait, age := f.age, ready := f.ready
             cohort := f.cohort } = f ∧
    g.trapped = false ∧ g.wait = .none ∧ g.age = now ∧
    if f.trapcause.getLsbD 16 then g.pc = f.repc.setWidth 48 ∧ g.mdone = f.mdone &&& ~~~(BitVec.ofNat 64 (2 ^ 48))
    else g.mdone = f.mdone ∧ g.pc = if f.trapcause.toNat % 256 = 18 then f.trappc.setWidth 48 + 4 else f.trappc.setWidth 48
  else if f.wait = .parked then g = { f with wait := .none, age := now, ready := now + 1, cohort := g.cohort }
  else g = { f with cohort := g.cohort }

/-- A group that was descheduled runs again. The cohorts of its trapped fibres divide by the PCs at which those continue (R274). -/
def Runs (d e : Dev) (gid : Nat) : Prop :=
  let hit (z : Fibre) : Prop := z ∈ d.fibres ∧ d.gidOf z = gid ∧ z.trapped = true
  let apart (f : Fibre) : Prop := f.cohort = 0 ∨ ∀ z, hit z → z.cohort ≠ f.cohort
  (∀ k x, d.group? k = some x → e.group? k = some (if k = gid then { x with stat := .running } else x)) ∧
  (∀ c n w, d.warp? c n = some w → e.warp? c n = some (if w.gid = gid then { w with park := none } else w)) ∧ SavedDivided d e hit ∧
  ∀ c n l f, d.fibre? c n l = some f → ∃ h, e.fibre? c n l = some h ∧ (apart f → h.cohort = f.cohort) ∧
    (if d.gidOf f = gid then Resumed d.cycle f h else h = { f with cohort := h.cohort }) ∧
    ∀ c n l f', d.fibre? c n l = some f' → ∃ h', e.fibre? c n l = some h' ∧
      (f'.cohort = f.cohort → ¬apart f → (h'.cohort = h.cohort ↔ h'.pc = h.pc))

/-- A reply to a request (R335, R336): one without a request is discarded with an entry of the last-events record; otherwise its slot is free
again, and the one group that waited for it alone runs again on Success and has its fault recorded on failure; Response Failure also
fails every other request of the function and turns its PRI off. -/
def Reply (i : Instr) (vf tag : Dev → Nat) (code : Nat) : Prop :=
  ∀ s : State, let d := s.dev; let h := d.hub; let fn := h.fn (vf d)
    let matches_ (r : PageReq) : Bool := r.gen % 16 * 32 + r.slot == tag d
    ((∀ r ∈ fn.reqs, matches_ r = false) → ∃ t, exec i s = .next t ∧ { t with dev := { t.dev with hub := h } } = s ∧
      { t.dev.hub with lastev := h.lastev, frozen := h.frozen } = h ∧
      (h.frozen = false → t.dev.hub.lastev.getLast? = some ⟨h.hubt, 2, 0x8000 + vf d, 0xFF, BitVec.ofNat 64 (tag d)⟩)) ∧
    ∀ r c g, fn.reqs.find? matches_ = some r → h.cases = [c] → c.waiting = [r.id] → (∀ u ∈ c.units, u.stage ≠ 0) →
      c.who = .group g.gid → g.gid ≠ 0 → d.group? g.gid = some g → g.stat = .descheduled →
      (∀ x ∈ h.frecs, x.gid ≠ some g.gid) → (∀ x ∈ h.ctxs, ∀ y ∈ x.frecs, y.2 ≠ g.gid) → (∀ v ∈ d.saved, v.group.gid ≠ g.gid) →
      (∃ f ∈ d.fibres, d.gidOf f = g.gid ∧ f.trapped = true ∧ f.warpid = c.addr) →
      ∃ t, exec i s = .next t ∧
        { t with dev := { t.dev with hub := h, fibres := d.fibres, groups := d.groups, warps := d.warps, saved := d.saved, free := d.free } } = s ∧
        (code = 0 → c.failed = false → Runs d t.dev g.gid ∧ t.dev.hub = { h.setFn { fn with reqs := fn.reqs.erase r } with cases := [] }) ∧
        (code ≠ 0 → { t.dev with hub := h } = d ∧ ∃ f lanes,
          f ∈ d.fibres ∧ d.gidOf f = g.gid ∧ f.trapped = true ∧ f.warpid = c.addr ∧
          (∀ x ∈ d.fibres, d.gidOf x = g.gid → x.trapped = true → x.warpid = c.addr → f.lane ≤ x.lane) ∧
          t.dev.hub = { h.setFn (if code = 15 then { fn with reqs := [], raised := [], priOff := true }
            else { fn with reqs := fn.reqs.erase r }) with cases := [], frecs := h.frecs ++ [RecordOf g f lanes] })

end Sys2Proof.Stmt

/-- R335, R336, R387, R251, R249, R388: replies to page requests by a PRG response and by S2REPLY, and the two actions of FREPLY. -/
def Obligations.Replies : Prop :=
  (let prg (d : Dev) : Nat := d.arg.b
   Reply .prgResponseSuccess (fun d => d.arg.a) prg 0 ∧ Reply .prgResponseInvalidRequest (fun d => d.arg.a) prg 1 ∧
   Reply .prgResponseFailure (fun d => d.arg.a) prg 15) ∧
  (let vf (d : Dev) : Nat := d.arg.v.toNat / 2 ^ 16 % 64; let tag (d : Dev) : Nat := d.arg.v.toNat % 512
   Reply .s2replySuccess vf tag 0 ∧ Reply .s2replyInvalidRequest vf tag 1 ∧ Reply .s2replyResponseFailure vf tag 15) ∧
  ∀ s : State, let d := s.dev; let v := d.arg.v; let vf := d.arg.a
    ∀ c r g, d.hub.frecs = [] → d.hub.ctx? (v.toNat / 2 ^ 32 % 64) = some c → c.vf = vf → r ∈ c.frecs → r.1 = v.extractLsb' 0 32 →
      (∀ x ∈ c.frecs, x.1 = r.1 → x = r) → r.2 = g.gid → g.gid ≠ 0 → g.ctx = c.no → d.group? g.gid = some g →
      (v.toNat / 2 ^ 62 = 1 → g.stat = .descheduled → (∀ x ∈ d.hub.cases, x.who ≠ .group g.gid) → (∀ x ∈ d.saved, x.group.gid ≠ g.gid) →
        ∃ t, exec .freplyResume s = .next t ∧ Runs d t.dev g.gid ∧ t.dev.hub.signals.getLsbD 5 = true ∧
          { t with dev := { t.dev with hub := d.hub, fibres := d.fibres, groups := d.groups, warps := d.warps, saved := d.saved
                                       free := d.free } } = s ∧
          (∀ k, t.dev.hub.ctx? k = (d.hub.ctx? k).map fun x => if k = c.no then { x with frecs := x.frecs.filter fun y => y.2 != g.gid } else x)) ∧
      (v.toNat / 2 ^ 62 = 2 → ∃ t, exec .freplyTerminate s = .next t ∧ t.agenda = s.agenda ∧ t.pwr = s.pwr ∧ t.fw = s.fw ∧
        t.dev.hub.signals.getLsbD 5 = true ∧ (∀ f ∈ t.dev.fibres, t.dev.gidOf f ≠ g.gid) ∧
        ((∃ f ∈ d.fibres, d.gidOf f = g.gid) → (∀ x ∈ d.saved, x.group.gid ≠ g.gid) → (d.groups.map Group.gid).Nodup →
          t.dev.group? g.gid = none ∧ ∀ l, t.dev.launch? g.lid = some l → l.status ≠ 0))

/-- R328, R330, R331, R388, R320: a walk caches its translation in both TLBs, and those of the table pages it read in the cluster's;
invalidations by ATS and S2INV become pending, and complete by dropping every translation they cover; a pending compatibility-mode store
becomes available. -/
def Obligations.TranslationsAndInvalidations : Prop :=
  (∀ s : State, let d := s.dev; let core := d.arg.a; let va := d.arg.c % 2 ^ 48; let w := d.arg.d / 2 % 2 == 1; let x := d.arg.d / 4 % 2 == 1
    let place := 512 + core / 16
    ∀ c, core < 512 → d.hub.ctx? d.arg.b = some c → (∀ t ∈ d.tlbs, t.hits core d.arg.b c.vf va w x = false ∧
        t.hits place d.arg.b c.vf va w x = false) →
      -- the cached translations of the context's table pages
      let tabs := d.tlbs.filter fun e => e.table && e.place == place && e.ctx == d.arg.b && e.vf == c.vf
      ∃ t, exec .translationWalk s = .next t ∧ { t with dev := { t.dev with tlbs := d.tlbs } } = s ∧
        -- what is new: the translation found, and those of table pages by stage 2 alone
        (∀ e ∈ t.dev.tlbs, e ∈ d.tlbs ∨ (e.table = false ∧ ∃ l, stages d.hub d.ms d.free c tabs w x va = .ok l ∧ e.va = va / l.size * l.size) ∨
          (e.table = true ∧ e.place = place ∧ e.ctx = d.arg.b ∧ e.vf = c.vf ∧ ∃ p l, stage2 d.hub d.ms d.free c.vf false false p = .ok l ∧
            e.size = l.size ∧ e.va = p / l.size * l.size ∧ e.pa = l.out - p % l.size)) ∧
        ∀ l, stages d.hub d.ms d.free c tabs w x va = .ok l →
          let piece (n : Nat) : Tlb := { place := n, ctx := d.arg.b, vf := c.vf, va := va / l.size * l.size, size := l.size, pa := l.out - va % l.size,
                                         w := l.w, x := l.x, from_ := va / l.span * l.span, span := l.span, table := false }
          piece core ∈ t.dev.tlbs ∧ piece place ∈ t.dev.tlbs) ∧
  (∀ s : State, let a := s.dev.arg; let h := s.dev.hub; ∃ t, exec .atsInvalidationRequest s = .next t ∧
    t = { s with dev := { s.dev with hub := { h with invals := h.invals ++ [⟨a.a, some a.b, if a.d = 0 then none else some (a.c, a.d)⟩] } } }) ∧
  (∀ s : State, let h := s.dev.hub; let v := s.dev.arg.v.toNat; let busy : Prop := ∃ i ∈ h.invals, i.pasid = none
    let put (r : Option (Nat × Nat)) : State := { s with dev := { s.dev with hub := { h with invals := h.invals ++ [⟨v / 2 ^ 58, none, r⟩] } } }
    let lsz := v / 2 ^ 6 % 64; let bad : Prop := lsz < 12 ∨ 48 < lsz ∨ v / 2 ^ 12 % 2 ^ 36 % 2 ^ (lsz - 12) ≠ 0
    (∃ t, exec .s2invRange s = .next t ∧ (busy ∨ bad → t = s) ∧ (¬busy → ¬bad → t = put (some (v / 2 ^ 12 % 2 ^ 36 * 4096, 2 ^ lsz)))) ∧
    ∃ t, exec .s2invAll s = .next t ∧ (busy → t = s) ∧ (¬busy → t = put none)) ∧
  (∀ s : State, let d := s.dev; ∀ i, d.hub.invals[d.arg.a]? = some i → ∃ t, exec .invalidationComplete s = .next t ∧
    { t with dev := { t.dev with tlbs := d.tlbs, hub := d.hub } } = s ∧
    let clear : Prop := (∀ c ∈ d.clusters, c.queue = []) ∧ d.fabric = [] ∧ d.ms.compat = []
    (¬clear → t = s) ∧ (clear → t.dev.hub = { d.hub with invals := d.hub.invals.eraseIdx d.arg.a } ∧
      ∀ e, e ∈ t.dev.tlbs ↔ e ∈ d.tlbs ∧ ¬(e.vf = i.vf ∧ ∀ p, i.pasid = some p →
        e.table = false ∧ ((d.hub.ctx? e.ctx).map Ctx.pasid).getD 0 = p ∧
        ∀ a n, i.range = some (a, n) → e.from_ < a + n ∧ a < e.from_ + e.span))) ∧
  ∀ s : State, let d := s.dev; let ms := d.ms; let core := d.arg.a; let mine := ms.compat.filter fun c => c.core == core
    ∀ c, mine[d.arg.b]? = some c → (∀ x ∈ mine, x.bytes ≠ []) → ∃ t p, exec .storeBecomesAvailable s = .next t ∧
      { t with dev := { t.dev with ms := ms, fibres := d.fibres } } = s ∧ p ∈ mine ∧ t.dev.ms.compat = ms.compat.erase p ∧
      -- it is the store named, or one that keeps its order: none of the core's that must come before it is left (R309, R320)
      (¬(∃ e ∈ mine.takeWhile (fun e => e != c), MemSys.compatTied e c = true) → p = c) ∧
      (∀ e ∈ mine.takeWhile fun e => e != p, MemSys.compatTied e p = false) ∧
      (ms.wf = true → ∀ k < p.bytes.length, ms.ownGet core (p.addr + k) ≠ none →
        (isRegAddr (p.addr + k) = false → t.dev.ms.availDevice (p.addr + k) = nth p.bytes k 0) ∧
        -- a register of a window is written
        ((d.fibres.map fun f => (f.core, f.slot, f.lane)).Nodup → isRegAddr (p.addr + k) = true →
          let a := (p.addr + k) / 8 * 8; d.regOwner (regAt a).1 (regAt a).2.1 (regAt a).2.2 ≠ none →
          (t.dev.regWord a).extractLsb' (8 * ((p.addr + k) % 8)) 8 = nth p.bytes k 0)) ∧
      (ms.regLines = [] → t.dev.fibres = d.fibres)

namespace Sys2Proof.Stmt

open Machine

/-! ## Pre-emption (10: R258, R263 to R269; 08: R221; 19: R365, R366) -/

/-- A stop of the warps that satisfy `p` has begun: they are stopping, and with one of a walk's role groups or of a recursion's group the warps of
both role groups or of that group; a running walk that it reaches finishes its step, its undelivered upcalls withdrawn; each group and
each walk has a save area, or line 10 is raised (R263, R221, R341). `lid` is the launch that an eviction makes room for, or 0. -/
def StopBegun (d e : Dev) (lid : Nat) (p : Warp → Prop) : Prop :=
  let pulls (v w : Warp) : Prop := p v ∧ v.core = w.core ∧
    ((∃ r, (d.core w.core).rec_ = some r ∧ v.gid = r.gid ∧ w.gid = r.gid) ∨
     ∃ k, (d.core w.core).walk = some k ∧ (v.gid = k.prod ∨ v.gid = k.cons) ∧ (w.gid = k.prod ∨ w.gid = k.cons))
  { e with warps := d.warps, cores := d.cores, hub := d.hub } = d ∧
  (∀ c n w, d.warp? c n = some w → ∃ x, e.warp? c n = some x ∧ { x with stopping := w.stopping, for_ := w.for_ } = w ∧
    (x.stopping = true ↔ w.stopping = true ∨ p w ∨ ∃ v ∈ d.warps, pulls v w) ∧
    (p w ∨ (∃ v ∈ d.warps, pulls v w) → x.for_ = max lid w.for_) ∧ (¬(p w ∨ ∃ v ∈ d.warps, pulls v w) → x.for_ = w.for_)) ∧
  (∀ core, { e.core core with walk := (d.core core).walk } = d.core core ∧
    ∀ k, (d.core core).walk = some k → ∃ x, (e.core core).walk = some x ∧
      ((∃ v ∈ d.warps, p v ∧ v.core = core ∧ (v.gid = k.prod ∨ v.gid = k.cons)) ∧ k.st = .running →
        x.st = .stopping ∧ { x with st := k.st, stopAt := k.stopAt, ups := k.ups } = k ∧
        x.ups = k.ups.map fun u => if u.st = .queued then { u with st := .withdrawn } else u) ∧
      (¬((∃ v ∈ d.warps, p v ∧ v.core = core ∧ (v.gid = k.prod ∨ v.gid = k.cons)) ∧ k.st = .running) → x = k) ∧
      ((∃ v ∈ d.warps, p v ∧ v.core = core ∧ (v.gid = k.prod ∨ v.gid = k.cons)) →
        (∃ c, e.hub.ctx? k.ctx = some c ∧ ∃ a ∈ c.areas, a.2.2 = 2 ^ 32 + core) ∨ e.hub.signals.getLsbD 10 = true)) ∧
  ∀ w ∈ d.warps, p w → ∀ g, d.group? w.gid = some g →
    (∃ c, e.hub.ctx? g.ctx = some c ∧ ∃ a ∈ c.areas, a.2.2 = g.gid) ∨ e.hub.signals.getLsbD 10 = true

/-- A warp of a context. -/
def OfCtx (d : Dev) (ctx : Nat) (w : Warp) : Prop := ∃ g, d.group? w.gid = some g ∧ g.ctx = ctx

/-- A whole stopped group has been saved as `sv` (R263, R267): its registers, warps and fibres, their outstanding writes arrived (R79), stand
in the record and in the save area; it is gone from its core, and a grant over its windows with no live copy into it has lapsed (R284). -/
def GroupSaved (d e : Dev) (g : Group) (sv : Saved) : Prop :=
  sv ∈ e.saved ∧ { sv.group with infl := g.infl, outst := g.outst, grants := g.grants, ks := g.ks } = g ∧ sv.partial_ = false ∧
  (sv.replay = true ↔ g.stat = .descheduled) ∧
  (∀ w ∈ d.warps, w.gid = g.gid → ∃ x ∈ sv.warps, x.stopping = false ∧
    { x with kd := w.kd, stopping := w.stopping, park := w.park, for_ := w.for_ } = w) ∧
  (∀ c n l f, d.fibre? c n l = some f → if d.gidOf f = g.gid then ∃ h ∈ sv.fibres, Landed f h else e.fibre? c n l = some f) ∧
  e.group? g.gid = none ∧ (∀ w ∈ e.warps, w.gid ≠ g.gid) ∧
  (∀ k x, k ≠ g.gid → d.group? k = some x → ∃ y, e.group? k = some y ∧ { y with slots := x.slots, grants := x.grants } = x ∧
    ∀ i r, nth x.grants i none = some r →
      let gone : Prop := ∃ f ∈ d.fibres, d.gidOf f = g.gid ∧ f.core = x.core ∧ r.touches f = true
      (¬gone → nth y.grants i none = some r) ∧ (gone → r.next = none → d.copyInto x r = false → nth y.grants i none = none)) ∧
  ∀ c n w, d.warp? c n = some w → w.gid ≠ g.gid → ∃ x, e.warp? c n = some x ∧ { x with kd := w.kd } = w

end Sys2Proof.Stmt

/-- R258, R263 to R269, R341, R365, R366: a mask's end, pre-emption, the save and the restore of a group, partial eviction, and a context's energy
quota. -/
def Obligations.Preemption : Prop :=
  (∀ s : State, let d := s.dev; ∀ w, d.warp? d.arg.a d.arg.b = some w →
    ∃ t, exec .maskBudgetExpiry s = .next t ∧ { t with dev := { t.dev with warps := d.warps, fibres := d.fibres, saved := d.saved, free := d.free } } = s ∧
      (w.masked = false ∨ w.budget ≠ 0 → t = s) ∧ (w.masked = true → w.budget = 0 →
        -- the fibres that go back to their region entries leave their cohorts (R274)
        let moved (z : Fibre) : Prop := w.stopping = true ∧ z ∈ d.fibres ∧ z.core = w.core ∧ z.slot = w.slot
        t.dev.warp? w.core w.slot = some { w with masked := false, park := if w.stopping then none else w.park } ∧
        (∀ c n, (c, n) ≠ (w.core, w.slot) → t.dev.warp? c n = d.warp? c n) ∧ SavedDivided d t.dev moved ∧
        ∀ c n l f, d.fibre? c n l = some f → ∃ g, t.dev.fibre? c n l = some g ∧ ((∀ z, moved z → z.cohort ≠ f.cohort) → g.cohort = f.cohort) ∧
          { g with cohort := f.cohort } = if c = w.core ∧ n = w.slot ∧ w.stopping = true ∧ f.repc ≠ 0 then { f with
            pc := f.repc.setWidth 48, mdone := f.mdone &&& ~~~(BitVec.ofNat 64 (2 ^ 48)), wait := .none, outst := [], late := none }
          else f)) ∧
  (∀ s : State, ∃ t, exec .preemptionRequest s = .next t ∧ { t with dev := s.dev } = s ∧
    StopBegun s.dev t.dev 0 fun w => w.core = s.dev.arg.b ∧ OfCtx s.dev s.dev.arg.a w) ∧
  (∀ s : State, let d := s.dev; ∀ g a ps, d.group? d.arg.a = some g → (∀ w ∈ d.warps, w.gid = g.gid → w.core = g.core ∧ w.stopping = true) →
    (d.warps.map fun w => (w.core, w.slot)).Nodup → g.gid ≠ 0 → d.saveReady g = true → (d.core g.core).rec_ = none → (∀ v ∈ d.saved, v.group.gid ≠ g.gid) →
    (∀ f ∈ d.fibres, d.gidOf f = g.gid → f.late = none ∧ (∃ w, d.warp? f.core f.slot = some w)) → d.ms.regLines = [] →
    let l := (d.landGroup g.gid).release g.core 6
    let v0 := l.savedOf ((l.group? g.gid).getD g) (l.leaving g.gid) none false
    let sv := { v0 with area := a }
    sv.halted = (match (d.hub.ctx? g.ctx).bind Ctx.stopBy with | some m => m != g.gid | none => false) ∧
    (d.area? g.ctx g.gid (saveLen v0.warps v0.fibres) = some a → l.ipaPages (d.vfOf g.ctx) a sv.bytes.length 2 = .ok ps →
    ∃ t, exec .groupSave s = .next t ∧ t.agenda = s.agenda ∧ t.pwr = s.pwr ∧ t.fw = s.fw ∧ GroupSaved d t.dev g sv ∧
      t.dev.ms = MemSys.pokeIpa ps a sv.bytes l.ms)) ∧
  (∀ s : State, let d := s.dev; ∀ v v1, d.arg.flag = false → d.group? d.arg.a = none →
    d.saved.find? (fun x => x.group.gid == d.arg.a && x.partial_ == false) = some v → (∀ x ∈ d.walks, x.eng.prod ≠ d.arg.a ∧ x.eng.cons ≠ d.arg.a) →
    d.eligible v = true → d.mayRestore v d.arg.b = true → d.readSaved v = .ok v1 → (d.putBack v1 d.arg.b).isSome → v.replay = false →
    ∃ t g, exec .groupRestore s = .next t ∧ t.agenda = s.agenda ∧ t.pwr = s.pwr ∧ t.fw = s.fw ∧
      t.dev.group? d.arg.a = some g ∧ g.core = d.arg.b ∧ g.stat = .running ∧ g.slots.length = v1.warps.length ∧
      { g with core := v1.group.core, stat := v1.group.stat, slots := v1.group.slots } = v1.group ∧
      (∀ x ∈ t.dev.saved, x ∈ d.saved ∧ ¬(x.group.gid = d.arg.a ∧ x.partial_ = false)) ∧
      (∀ w ∈ v1.warps, ∃ x ∈ t.dev.warps, x.core = d.arg.b ∧ x.slot ∈ g.slots ∧ { x with core := w.core, slot := w.slot } = w) ∧
      (∀ f ∈ v1.fibres, ∃ h ∈ t.dev.fibres, h.core = d.arg.b ∧ (∀ n, (h.wait = .bar n ↔ f.wait = .bar n) ∧ (h.wait = .tbar n ↔ f.wait = .tbar n)) ∧
        { h with core := f.core, slot := f.slot, winbase := f.winbase, wait := f.wait, age := f.age, ready := f.ready, infl := f.infl, pace := f.pace } = f) ∧
      d.groups <+: t.dev.groups ∧ d.warps <+: t.dev.warps ∧ d.fibres <+: t.dev.fibres) ∧
  (∀ s : State, let d := s.dev; ∀ l, d.launch? d.arg.a = some l → let out (w : Warp) : Prop := w.core = d.arg.b ∧ (w.core, w.slot) ∈ d.evictPlan l
    ∃ t, exec .partialEviction s = .next t ∧ { t with dev := d } = s ∧
      (¬(l.cls ≤ 1 ∧ l.passed d.cycle 21000 = true) ∨ (∀ p ∈ d.evictPlan l, p.1 ≠ d.arg.b) → t = s) ∧
      (l.cls ≤ 1 → l.passed d.cycle 21000 = true → (∃ p ∈ d.evictPlan l, p.1 = d.arg.b) → StopBegun d t.dev l.lid out)) ∧
  -- what is evicted for a launch of one group on a core of its own, nothing being ahead of it and no stop under way
  (∀ d : Dev, ∀ l : Launch, (∀ w ∈ d.warps, w.stopping = false) → d.waiting = [l] → l.kind = .launch → l.fixed = true → l.gpt = 1 → l.teams = 1 →
    l.placed = [] → let core := l.core0; let fits (e : Dev) : Bool := (e.placeOn [] l (l.shape 0 0) core).isSome
    (fits d = true ∨ d.evictees core l.cls fits = none → d.evictPlan l = []) ∧
    ∀ vs, fits d = false → d.evictees core l.cls fits = some vs → d.evictPlan l = vs.map (fun w => (core, w.slot)) ∧
      (∀ v ∈ vs, v ∈ d.warps ∧ v.core = core) ∧ fits (d.vacate core vs) = true ∧
      -- lower priorities, the youngest group and the highest WARPID first, as few as make room
      ∃ (ys : List Warp) (n : Nat), (∀ y, y ∈ ys ↔ y ∈ d.warps ∧ y.core = core ∧ y.stopping = false ∧ ∃ g, d.group? y.gid = some g ∧ l.cls < g.cls) ∧
        (ys.Pairwise fun x y => (∀ w ∈ ys, w.warpid < 32) → d.bornOf y < d.bornOf x ∨ (d.bornOf y = d.bornOf x ∧ y.warpid ≤ x.warpid)) ∧
        let take (m : Nat) : List Warp := d.warps.filter (d.stopSet core fun w => (ys.take m).contains w)
        vs = take n ∧ ∀ m < n, fits (d.vacate core (take m)) = false) ∧
  (∀ s : State, let d := s.dev; ∀ c, d.hub.ctx? d.arg.a = some c → ∃ t, exec .energyQuotaExhausted s = .next t ∧ { t with dev := d } = s ∧
    (∃ x, t.dev.hub.ctx? d.arg.a = some x ∧ { x with quotaOut := c.quotaOut, areas := c.areas } = c ∧ x.quotaOut = true) ∧
    t.dev.hub.signals.getLsbD 9 = true ∧ StopBegun d t.dev 0 (OfCtx d d.arg.a)) ∧
  ∀ s : State, let h := s.dev.hub; ∃ t, exec .energyPeriodStart s = .next t ∧
    t = { s with dev := { s.dev with hub := CtxChanged h s.dev.arg.a fun c => { c with
      energy := c.eq, quotaOut := false, period := if c.period ≤ s.dev.cycle then c.period + 1050 * c.eper else c.period } } }

namespace Sys2Proof.Stmt

open Machine

/-! ## Queues (19: R342 to R346, R359 to R363) -/

/-- A 64-bit address is a multiple of `n` and canonical. -/
def GoodAddr (a n : Nat) : Prop := a % n = 0 ∧ (a < 2 ^ 47 ∨ 2 ^ 64 - 2 ^ 47 ≤ a)

/-- Nothing of the hub changes but one queue. -/
def OnlyQueue (h h' : Hub) (q : Queue) : Prop :=
  { h' with queues := h.queues } = h ∧ (∀ n, n ≠ q.qid → h'.queue? n = h.queue? n) ∧ h'.queue? q.qid = some q

/-- Index `i` is ahead of index `f` (R345, R346). -/
def AheadOf (i f : BitVec 32) : Prop := 1 ≤ (i - f).toNat ∧ (i - f).toNat < 2 ^ 31

/-- The queue has work (R359). -/
def HasWork (q : Queue) : Prop := (q.stopped = false ∧ q.h ≠ q.f) ∨ q.pend ≠ []

/-- The queue has stopped on an address that cannot be translated (R346). -/
def QueueStopped (d e : Dev) (q : Queue) (va : Nat) : Prop :=
  e.ms = d.ms ∧ e.hub.frecs = d.hub.frecs ++ [bareRec q.ctx (5 + 3 * 2 ^ 10) (vaOf va) 0] ∧
  ∃ x : Queue, OnlyQueue d.hub { e.hub with frecs := d.hub.frecs } x ∧ x.stopped = true ∧
    { x with stopped := q.stopped, half := q.half, f := q.f } = q

/-- Half 1 of the packet at F being read, the fetcher reads half 0, advances F, publishes it and hands the packet over (R346). -/
def FetchedRest (d e : Dev) (q : Queue) (half1 : List Byte) : Prop :=
  let va := (q.ring + 128 * (q.f.toNat % 2 ^ q.size)) % 2 ^ 48
  (∀ u, d.hubHalf q.ctx va = .error u → QueueStopped d e q va) ∧
  ∀ half0, d.hubHalf q.ctx va = .ok half0 →
    (∀ u, d.translateHub q.ctx q.ridx 2 = .error u → QueueStopped d e q q.ridx) ∧
    ∀ a, d.translateHub q.ctx q.ridx 2 = .ok a →
      e.ms = d.ms.poke .hub a (leBytes 4 (q.f + 1).toNat) ∧ ∃ (x : Queue) (k : Nat), OnlyQueue d.hub e.hub x ∧
        { x with f := q.f, half := q.half, pend := q.pend, kicks := q.kicks } = q ∧
        x.f = q.f + 1 ∧ x.half = [] ∧ x.pend = q.pend ++ [⟨q.f, k, half0 ++ half1⟩] ∧
        ∀ o w l, q.kicks = (o, w) :: l → AheadOf w q.f → k = o

/-- The fetcher has looked at slot F of a mapped queue that is behind, as R346 says; `part`: only at half 1. -/
def Fetched (s t : State) (q : Queue) (part : Bool) : Prop :=
  let d := s.dev; let va := (q.ring + 128 * (q.f.toNat % 2 ^ q.size)) % 2 ^ 48
  { t with dev := { t.dev with hub := d.hub, ms := d.ms } } = s ∧
  (q.half ≠ [] → FetchedRest d t.dev q q.half) ∧
  (q.half = [] →
    (∀ u, d.hubHalf q.ctx (va + 64) = .error u → QueueStopped d t.dev q (va + 64)) ∧
    ∀ half1, d.hubHalf q.ctx (va + 64) = .ok half1 →
      (fieldOf half1 63 1 ≠ (if q.f.toNat / 2 ^ q.size % 2 = 1 then 0 else 1) →
        t.dev.ms = d.ms ∧ OnlyQueue d.hub t.dev.hub { q with paused := true }) ∧
      (fieldOf half1 63 1 = (if q.f.toNat / 2 ^ q.size % 2 = 1 then 0 else 1) →
        (part = true → t.dev.ms = d.ms ∧ OnlyQueue d.hub t.dev.hub { q with half := half1 }) ∧
        (part = false → FetchedRest d t.dev q half1)))

/-- A queue descriptor is in order (R342). -/
def GoodQueue (h : Hub) (b : List Byte) : Prop :=
  let f (o n : Nat) : Nat := fieldOf b o n
  f 0xB 1 = 0 ∧ f 0xE 2 = 0 ∧ f 0x18 40 = 0 ∧ GoodAddr (f 0 8) 128 ∧ 4 ≤ f 8 1 ∧ f 8 1 ≤ 16 ∧ f 9 1 ≤ 3 ∧ GoodAddr (f 0x10 8) 4 ∧
  ∃ c, h.ctx? (f 0xA 1) = some c ∧ c.dying = false ∧ c.classmin ≤ f 9 1

/-- A queue after a driver reset: H and F are 0 (log 27), nothing is fetched, mapped, stopped or paused. -/
def ResetQueue (q : Queue) : Prop :=
  q.h = 0 ∧ q.f = 0 ∧ q.hw = none ∧ q.ticks = 0 ∧ q.wait = 0 ∧ q.stopped = false ∧ q.paused = false ∧ q.kicks = [] ∧ q.half = [] ∧ q.pend = []

/-- What a tick finds of a queue before any is mapped (R359): a mapped one without work leaves its slot. -/
def QueueTicked (q x : Queue) : Prop :=
  (∀ n, q.hw = some n → HasWork q → x = { q with ticks := q.ticks + 1 }) ∧
  (∀ n, q.hw = some n → ¬HasWork q → x = { q with hw := none, ticks := 0 }) ∧ (q.hw = none → x = q)

/-- A queue waits for a slot, and its context runs. -/
def WantsSlot (h : Hub) (q : Queue) : Prop :=
  q.hw = none ∧ HasWork q ∧ q.refused = false ∧ ∃ c, h.ctx? q.ctx = some c ∧ c.quotaOut = false ∧ c.dying = false

/-- The effective priority of a queue (R361): one more for every 100 µs, 160,000 hub cycles (R3), that it has waited. -/
def prio (h : Hub) (q : Queue) : Nat := min (nth h.base q.cls 0 + q.wait / 160000) (nth h.ceil q.cls 0)

/-- One queue is ranked before another (R360); 250 µs are 400,000 hub cycles (R3). -/
def RankedBefore (h : Hub) (x y : Queue) : Prop :=
  let rest : Prop := y.wait < x.wait ∨ (x.wait = y.wait ∧ x.qid < y.qid)
  (400000 ≤ x.wait ∧ y.wait < 400000) ∨
  (400000 ≤ x.wait ∧ 400000 ≤ y.wait ∧ (y.wait < x.wait ∨ (x.wait = y.wait ∧ (prio h y < prio h x ∨ (prio h x = prio h y ∧ rest))))) ∨
  (x.wait < 400000 ∧ y.wait < 400000 ∧ (prio h y < prio h x ∨ (prio h x = prio h y ∧ rest)))

/-- No queue holds a hardware slot. -/
def SlotOpen (l : List Queue) (s : Nat) : Prop := ∀ q ∈ l, q.hw ≠ some s

/-- A queue is mapped to a slot (R359). -/
def MappedTo (q : Queue) (s : Nat) : Queue := { q with hw := some s, ticks := 0, wait := 0, paused := false }

end Sys2Proof.Stmt

/-- R342, R343, R346, R359 to R361: a driver reset makes a queue known, and of one that is known takes the descriptor or refuses it; the fetcher reads half 1, then half 0, of slot F in order,
pauses on a wrong mark, and stops the queue on an address it cannot translate; at a tick queues get general slots in rank order. Where the
descriptor lies is an event operand, and H = F = 0 after a reset is the model's choice (log 27). -/
def Obligations.QueuesAndFetching : Prop :=
  (∀ s : State, let d := s.dev; let b := d.ms.readHub d.arg.a 64; let f (o n : Nat) : Nat := fieldOf b o n
    ∃ t q, exec .queueReset s = .next t ∧ { t with dev := { t.dev with hub := d.hub } } = s ∧ q.qid = f 0xC 2 ∧ q.desc = d.arg.a ∧ ResetQueue q ∧
      (d.hub.queue? (f 0xC 2) = none → OnlyQueue d.hub t.dev.hub q ∧ q.fresh = true ∧ q.refused = false ∧ q.live = []) ∧
      ∀ x : Queue, d.hub.queue? (f 0xC 2) = some x →
        OnlyQueue d.hub { t.dev.hub with frecs := d.hub.frecs } q ∧ (q.refused = true ↔ ¬GoodQueue d.hub b) ∧ q.fresh = false ∧ q.live = x.live ∧
        q.ctx = f 0xA 1 ∧ q.cls = f 9 1 ∧ q.size = f 8 1 ∧ q.ring = f 0 8 % 2 ^ 48 ∧ q.ridx = f 0x10 8 % 2 ^ 48 ∧
        (GoodQueue d.hub b ∨ d.hub.ctx? (f 0xA 1) = none → t.dev.hub.frecs = d.hub.frecs) ∧
        (¬GoodQueue d.hub b → d.hub.ctx? (f 0xA 1) ≠ none → t.dev.hub.frecs = d.hub.frecs ++ [bareRec (f 0xA 1) 14 d.arg.a 0])) ∧
  (∀ s : State, ∀ q : Queue, s.dev.hub.queue? s.dev.arg.a = some q → q.hw ≠ none → q.stopped = false → AheadOf q.h q.f →
    ∃ t, exec .packetFetch s = .next t ∧ (q.paused = true → t = s) ∧ (q.paused = false → Fetched s t q s.dev.arg.flag)) ∧
  (∀ s : State, ∀ q : Queue, s.dev.hub.queue? s.dev.arg.a = some q → q.hw ≠ none → q.stopped = false → AheadOf q.h q.f → q.paused = true →
    ∃ t, exec .fetcherRetry s = .next t ∧ Fetched s t { q with paused := false } false) ∧
  ∀ s : State, let h := s.dev.hub
    (h.queues.map Queue.qid).Nodup → (∀ q ∈ h.queues, q.qid < 2 ^ 16 ∧ q.wait < 2 ^ 30 ∧ q.ticks < 2 ^ 30 ∧ q.cls < 4 ∧ ∀ n, q.hw = some n → n < 256) → (∀ n < 4, nth h.ceil n 0 ≤ 15) →
    ∃ t, exec .mappingTick s = .next t ∧ { t with dev := { t.dev with hub := h } } = s ∧
      { t.dev.hub with queues := h.queues, signals := h.signals, mapTicks := h.mapTicks } = h ∧ t.dev.hub.signals.getLsbD 1 = true ∧
      t.dev.hub.mapTicks = h.mapTicks + 1 ∧ ∃ l : List Queue, l.length = h.queues.length ∧ (∀ (i : Nat) (q : Queue), h.queues[i]? = some q → ∃ x : Queue, l[i]? = some x ∧ QueueTicked q x) ∧
        -- what becomes of each queue, from its place after the tick
        (∀ x ∈ l, ∃ y, t.dev.hub.queue? x.qid = some y ∧
          (x.hw = none → ¬WantsSlot h x → y = x) ∧
          (WantsSlot h x → y = x ∨ ∃ n, h.rsv0 ≤ n ∧ n < 256 ∧ y = MappedTo x n) ∧
          (∀ n, x.hw = some n → y = x ∨ (y = { x with hw := none, ticks := 0, wait := 0 } ∧ h.rsv0 ≤ n ∧ 1 ≤ x.ticks ∧
            ∃ z ∈ l, WantsSlot h z ∧ 400000 ≤ z.wait ∧ t.dev.hub.queue? z.qid = some (MappedTo z n)))) ∧
        -- slots go in rank order, and a free one is used
        (∀ x ∈ l, ∀ y ∈ l, WantsSlot h x → WantsSlot h y → RankedBefore h x y →
          t.dev.hub.queue? x.qid = some x → t.dev.hub.queue? y.qid = some y) ∧
        (∀ x ∈ l, WantsSlot h x → (∀ y ∈ l, WantsSlot h y → y = x) → ∀ n, h.rsv0 ≤ n → n < 256 → SlotOpen l n →
          (∀ m, h.rsv0 ≤ m → m < n → ¬SlotOpen l m) → t.dev.hub.queue? x.qid = some (MappedTo x n)) ∧
        -- an overdue queue displaces the lowest class base, the one mapped longest, the higher QID
        ∀ x ∈ l, WantsSlot h x → (∀ y ∈ l, WantsSlot h y → y = x) → 400000 ≤ x.wait → (∀ m, h.rsv0 ≤ m → m < 256 → ¬SlotOpen l m) →
          ∀ v ∈ l, ∀ n, v.hw = some n → h.rsv0 ≤ n → n < 256 → 1 ≤ v.ticks →
          (∀ z ∈ l, z ≠ v → ∀ m, z.hw = some m → h.rsv0 ≤ m → 1 ≤ z.ticks → let b (q : Queue) : Nat := nth h.base q.cls 0
            b v < b z ∨ (b v = b z ∧ (z.ticks < v.ticks ∨ (z.ticks = v.ticks ∧ z.qid < v.qid)))) →
          t.dev.hub.queue? x.qid = some (MappedTo x n) ∧ t.dev.hub.queue? v.qid = some { v with hw := none, ticks := 0, wait := 0 }

namespace Sys2Proof.Stmt

open Machine

/-! ## Packets (19: R349 to R351, R353 to R358) -/

/-- A number lies from `lo` to `hi`. -/
def From (lo x hi : Nat) : Prop := lo ≤ x ∧ x ≤ hi

/-- The bytes of a packet are in order (R349 to R351). -/
def GoodPacket (b : List Byte) : Prop :=
  let f (o n : Nat) : Nat := fieldOf b o n
  let place := f 0x18 8; let core0 := place % 512; let ncore := place / 2 ^ 16 % 512 + 1; let fixed : Prop := 2 ^ 63 ≤ place
  f 1 1 < 4 ∧ f 2 1 ≤ 16 ∧ f 3 1 ≤ 8 ∧ f 4 4 = 0 ∧ GoodAddr (f 8 8) 8 ∧ GoodAddr (f 0x10 8) 8 ∧
  place / 2 ^ 9 % 2 ^ 7 = 0 ∧ place / 2 ^ 25 % 2 ^ 38 = 0 ∧
  ((f 0 1 = 1 ∧ GoodAddr (f 0x60 8) 4 ∧ From 1 (f 0x68 1) 32 ∧ From 1 (f 0x69 1) 32 ∧ From 1 (f 0x6A 1) 16 ∧ From 1 (f 0x6B 1) 16 ∧
      From 1 (f 0x6C 2) 4096 ∧ f 0x6E 1 ≤ 128 ∧ f 0x6F 1 ≤ 16 ∧ f 0x70 15 = 0 ∧
      (fixed → core0 + f 0x6C 2 * f 0x6B 1 ≤ 512 ∧ ∀ t < f 0x6C 2, ∀ n < f 0x6B 1,
        (core0 + t * f 0x6B 1 + n) / 16 = (core0 + t * f 0x6B 1) / 16)) ∨
   (f 0 1 = 2 ∧ GoodAddr (f 0x60 8) 1 ∧ GoodAddr (f 0x68 8) 4 ∧ GoodAddr (f 0x70 8) 4 ∧ From 1 (f 0x78 1) 32 ∧ From 1 (f 0x79 1) 16 ∧
      From 1 (f 0x7A 1) 32 ∧ From 1 (f 0x7B 1) 16 ∧ f 0x7C 1 ≤ 128 ∧ f 0x7D 2 = 0 ∧ (fixed → core0 + ncore ≤ 512)) ∨
   (f 0 1 = 3 ∧ GoodAddr (f 0x60 8) 4 ∧ GoodAddr (f 0x68 8) 64 ∧ From 1 (f 0x70 1) 32 ∧ From 1 (f 0x71 1) 16 ∧ f 0x72 1 ≤ 128 ∧
      f 0x73 12 = 0) ∨
   (f 0 1 = 4 ∧ f 0x68 1 ≤ 8 ∧ f 0x69 22 = 0))

/-- A 256-bit mask of a packet: WAIT at 0x20, SET at 0x40. -/
def maskAt (b : List Byte) (off : Nat) : EvVec := BitVec.ofNat 256 (fieldOf b off 32)

/-- The head of a queue is taken (R353): the queue is mapped, its context runs, every bit of WAIT is set, and with ORD no earlier packet is
live. -/
def Takes (d : Dev) (q : Queue) (c : Ctx) (p : Pend) (rest : List Pend) : Prop :=
  d.hub.queue? d.arg.a = some q ∧ q.pend = p :: rest ∧ q.hw ≠ none ∧ d.hub.ctx? q.ctx = some c ∧ c.dying = false ∧ c.quotaOut = false ∧
  (∀ i < 256, (maskAt p.bytes 0x20).getLsbD i = true → c.events.getLsbD i = true) ∧ (fieldOf p.bytes 1 1 % 2 = 1 → q.live = []) ∧
  ∀ l ∈ d.hub.launches, l.lid < d.hub.nextLid

/-- What taking a packet changes besides the list of launches: its queue has one packet less and the launches `live`, its context the
next launch number, and `ev` of its vectors. -/
def TakenFrom (d e : Dev) (q : Queue) (rest : List Pend) (live : List Nat) (ev : Ctx → Ctx) : Prop :=
  { e with hub := d.hub, ms := d.ms } = d ∧
  { e.hub with ctxs := d.hub.ctxs, queues := d.hub.queues, launches := d.hub.launches, nextLid := d.hub.nextLid } = d.hub ∧
  e.hub.nextLid = d.hub.nextLid + 1 ∧ (∀ n, n ≠ q.qid → e.hub.queue? n = d.hub.queue? n) ∧
  e.hub.queue? q.qid = some { q with pend := rest, live := live } ∧
  ∀ n, e.hub.ctx? n = (d.hub.ctx? n).map fun c => if n = q.ctx then
    ev { c with nextLaunch := if c.nextLaunch = BitVec.allOnes 32 then 1 else c.nextLaunch + 1 } else c

/-- A packet taken completes at once with a status (R351, R354, R355, R358): its SET bits, its error bits on a status other than 0, and its
completion word where its address translates; `ev` comes before. -/
def EndedWith (d e : Dev) (q : Queue) (c : Ctx) (p : Pend) (rest : List Pend) (st : Nat) (ev : Ctx → Ctx) : Prop :=
  let set := maskAt p.bytes 0x40; let compl := fieldOf p.bytes 0x10 8
  let done (m : MemSys) : Prop := TakenFrom d e q rest (q.live.filter (· ≠ d.hub.nextLid)) (fun c => let c := ev c
    { c with events := c.events ||| set, errors := if st = 0 then c.errors else c.errors ||| set }) ∧
    e.hub.launches = d.hub.launches ∧ e.ms = m
  (compl = 0 ∨ ¬GoodAddr compl 8 → done d.ms) ∧
  (compl ≠ 0 → GoodAddr compl 8 → ∀ a, d.translateHub q.ctx (compl % 2 ^ 48) 2 = .ok a →
    done (d.ms.poke .hub a (leBytes 8 (c.nextLaunch.toNat + st * 2 ^ 32))))

/-- A launch is what a packet describes (R349, R350, R355). -/
def LaunchIs (q : Queue) (c : Ctx) (p : Pend) (l : Launch) : Prop :=
  let b := p.bytes; let f (o n : Nat) : Nat := fieldOf b o n
  l.ctx = q.ctx ∧ l.qid = q.qid ∧ l.cls = q.cls ∧ l.launchid = c.nextLaunch ∧ l.set = maskAt b 0x40 ∧ l.compl = f 0x10 8 ∧
  (l.fixed = true ↔ 2 ^ 63 ≤ f 0x18 8) ∧ l.core0 = f 0x18 8 % 512 ∧ l.ncore = f 0x18 8 / 2 ^ 16 % 512 + 1 ∧ l.kickOrder = p.order ∧
  l.placed = [] ∧ l.livegroups = 0 ∧ l.status = 0 ∧ l.finished = false ∧
  (f 0 1 = 1 → l.kind = .launch ∧ l.entry = BitVec.ofNat 48 (f 0x60 8) ∧ l.warps = f 0x68 1 ∧ l.nfib = f 0x69 1 ∧ l.win = f 0x6A 1 ∧
    l.gpt = f 0x6B 1 ∧ l.teams = f 0x6C 2 ∧ l.spad = f 0x6E 1 ∧ l.aslots = f 0x6F 1 ∧ l.image = []) ∧
  (f 0 1 = 2 → l.kind = .walk ∧ l.recA = f 0x60 8 ∧ l.entry = BitVec.ofNat 48 (f 0x68 8) ∧ l.centry = BitVec.ofNat 48 (f 0x70 8) ∧
    l.warps = f 0x78 1 ∧ l.win = f 0x79 1 ∧ l.cwarps = f 0x7A 1 ∧ l.cwin = f 0x7B 1 ∧ l.spad = f 0x7C 1 ∧ l.nfib = 32) ∧
  (f 0 1 = 3 → l.kind = .recur ∧ l.entry = BitVec.ofNat 48 (f 0x60 8) ∧ l.warps = 1 ∧ l.nfib = f 0x70 1 ∧ l.win = f 0x71 1 ∧
    l.spad = f 0x72 1 ∧ l.gpt = 1 ∧ l.teams = 1)

/-- The packet at the head of a queue is taken by an event of its type, with the checks in the order of R354. -/
def TakesPacket (i : Instr) (type : Nat) : Prop :=
  ∀ s : State, let d := s.dev; ∀ (q : Queue) (c : Ctx) (p : Pend) (rest : List Pend), Takes d q c p rest → fieldOf p.bytes 0 1 = type →
    let b := p.bytes; let f (o n : Nat) : Nat := fieldOf b o n
    let spread : Prop := f 1 1 / 2 % 2 = 1 ∧ ∃ i < 256, (maskAt b 0x20).getLsbD i = true ∧ c.errors.getLsbD i = true
    let args := if f 2 1 + f 3 1 = 0 then .ok [] else d.hubWords q.ctx (f 8 8 % 2 ^ 48) (f 2 1 + f 3 1)
    let image := d.hubHalf q.ctx (f 0x68 8 % 2 ^ 48)
    let goesOn : Prop := GoodPacket b ∧ ¬spread
    ∃ t, exec i s = .next t ∧ { t with dev := s.dev } = s ∧
      (¬GoodPacket b → EndedWith d t.dev q c p rest 1 id) ∧
      (GoodPacket b → spread → EndedWith d t.dev q c p rest 4 id) ∧
      (goesOn → ((∃ u, args = .error u) ∨ (type = 3 ∧ ∃ u, image = .error u)) → EndedWith d t.dev q c p rest 2 id) ∧
      ∀ a, goesOn → args = .ok a →
        (type = 4 → ∃ ev : Ctx → Ctx, EndedWith d t.dev q c p rest 0 ev ∧ ∀ x : Ctx,
          { ev x with events := x.events, errors := x.errors } = x ∧ ∀ i < 256,
            let hit : Prop := ∃ k < f 0x68 1, f (0x60 + k) 1 = i
            ((ev x).events.getLsbD i = true ↔ x.events.getLsbD i = true ∧ ¬hit) ∧
            ((ev x).errors.getLsbD i = true ↔ x.errors.getLsbD i = true ∧ ¬hit)) ∧
        (∀ img, type = 3 → image = .ok img → badImage img (f 0x70 1) (f 0x72 1) = true → EndedWith d t.dev q c p rest 1 id) ∧
        ∀ img, type = 1 ∨ type = 2 ∨ (type = 3 ∧ image = .ok img ∧ badImage img (f 0x70 1) (f 0x72 1) = false) →
          TakenFrom d t.dev q rest (q.live ++ [d.hub.nextLid]) id ∧ t.dev.ms = d.ms ∧
          ∃ l, t.dev.hub.launches = d.hub.launches ++ [l] ∧ l.lid = d.hub.nextLid ∧ LaunchIs q c p l ∧ (type = 3 → l.image = img) ∧
            l.kargs = ((List.range (f 2 1)).map fun i => BitVec.ofNat 64 (fieldOf a (8 * i) 8)) ∧
            l.largs = (List.range (f 3 1)).map fun i => BitVec.ofNat 64 (fieldOf a (8 * (f 2 1 + i)) 8)

/-- A group of a launch has been placed and released on a core (R15, R27, R356, R357), an acquire (R310); stores of earlier holders to what it
has been given do not reach it (R8). -/
def GroupPlaced (d e : Dev) (l : Launch) (core team n : Nat) : Prop :=
  ∃ g ws fs, e.groups = d.groups ++ [g] ∧ e.warps = d.warps ++ ws ∧ e.fibres = d.fibres ++ fs ∧
    g.gid = d.hub.nextGid ∧ g.core = core ∧ g.ctx = l.ctx ∧ g.cls = l.cls ∧ g.lid = l.lid ∧ g.launchid = l.launchid ∧ g.teamid = team ∧
    g.groupid = n ∧ g.entry = l.entry ∧ g.role = .plain ∧ g.stat = .running ∧ g.slots.length = l.warps ∧ g.slots.Nodup ∧
    g.aslots.length = l.aslots ∧ (l.spad = 0 → g.spad = []) ∧ (l.spad ≠ 0 → ∃ u, g.spad = [⟨u, l.spad⟩] ∧
      ∀ i < l.spad, d.unitFree core (u + i) = true) ∧
    (∀ i < 55, nth g.ks i 0 = nth l.kargs i 0) ∧ (∀ x ∈ g.slots, d.warp? core x = none) ∧
    (∀ w ∈ ws, w.core = core ∧ w.gid = g.gid ∧ nth g.slots w.warpid 64 = w.slot ∧ ∀ i < 9, nth w.kd i 0 = 0) ∧ ws.length = l.warps ∧
    fs.length = l.warps * ((l.nfib + 3) / 4 * 4) ∧
    (∀ f ∈ fs, f.core = core ∧ nth g.slots f.warpid 64 = f.slot ∧ (f.helper = true ↔ l.nfib ≤ f.lane) ∧ f.pc = l.entry ∧
      f.win.length = 8 * l.win ∧ (∀ i < f.win.length, f.vreg i = nth l.largs i 0) ∧ f.pred = 0 ∧ f.trapped = false ∧ f.wait = .none ∧
      f.fpctl = 0 ∧ f.trapcause = 0 ∧ f.repc = 0 ∧ f.mdone = 0 ∧ f.outst = [] ∧ f.infl = []) ∧
    ∃ given : Nat → Bool, e.ms = (d.ms.acquire core 6).forget given ∧ ∀ a, given a = true ↔
      (∃ f ∈ fs, isWindow core f.lane f.winbase f.win.length a = true) ∨
      (∃ x ∈ g.spad, slotBase core + x.first * 4096 ≤ a ∧ a < slotBase core + x.first * 4096 + x.len * 4096) ∨
      ∃ k ∈ g.aslots, slotBase core + accAt k ≤ a ∧ a < slotBase core + accAt k + 0x4000

end Sys2Proof.Stmt

/-- R349 to R351, R353 to R355, R358: the head of a queue is taken by an event of its type; a packet out of order is rejected, an error
propagates, an argument fault ends the launch, an EVENT clears its bits, and any other launch waits for placement. -/
def Obligations.PacketsTaken : Prop :=
  TakesPacket .launch 1 ∧ TakesPacket .walk 2 ∧ TakesPacket .recurPacket 3 ∧ TakesPacket .event 4 ∧
  -- a packet of no known type is rejected
  ∀ s : State, let d := s.dev; ∀ (q : Queue) (c : Ctx) (p : Pend) (rest : List Pend), Takes d q c p rest →
    ¬(From 1 (fieldOf p.bytes 0 1) 4) → ∃ t, exec .launch s = .next t ∧ { t with dev := s.dev } = s ∧ EndedWith d t.dev q c p rest 1 id

/-- R15, R27, R356 to R358: a group of a launch with fixed cores is placed on its core if that has room, with its arguments; the groups of one
team go together into one cluster; a launch passed over for 100 µs blocks; a completion word that had to wait is written. -/
def Obligations.PlacementAndCompletion : Prop :=
  (∀ s : State, let d := s.dev; ∀ l : Launch, d.waiting = [l] → l.kind = .launch → l.gpt = 1 → l.fixed = true → l.teams = 1 → l.placed = [] →
    (l ∈ d.hub.launches) → (∀ x ∈ d.hub.launches, x.lid = l.lid → x = l) → l.image = [] →
    ∃ t, exec .groupPlacement s = .next t ∧ { t with dev := s.dev } = s ∧
      (d.placeGroup l.core0 l.cls l (l.shape 0 0) = none → t = s) ∧
      ((d.placeGroup l.core0 l.cls l (l.shape 0 0)).isSome → GroupPlaced d t.dev l l.core0 0 0 ∧
        { t.dev with groups := d.groups, warps := d.warps, fibres := d.fibres, hub := d.hub, ms := d.ms, free := d.free, oracle := d.oracle
                     saved := d.saved } = d ∧
        -- what was evicted for it may come back (R365)
        t.dev.saved = d.saved.map (fun x => if x.for_ = l.lid then { x with for_ := 0 } else x) ∧
        t.dev.hub = { d.hub with nextGid := d.hub.nextGid + 1
                                 launches := d.hub.launches.map fun x => if x.lid = l.lid then { x with placed := [0], livegroups := x.livegroups + 1 } else x })) ∧
  (∀ s : State, let d := s.dev; ∀ l : Launch, d.waiting = [l] → l.kind = .launch →
    ∃ t, exec .groupPlacement s = .next t ∧ { t with dev := s.dev } = s ∧ (t = s ∨ ∃ gs team, t.dev.groups = d.groups ++ gs ∧ gs.length = l.gpt ∧
      team < l.teams ∧ team ∉ l.placed ∧ (∀ (n : Nat) (g : Group), gs[n]? = some g → g.groupid = n ∧ g.teamid = team ∧ g.lid = l.lid ∧
        (l.fixed = true → g.core = l.core0 + team * l.gpt + n)) ∧
      (l.fixed = false → ∀ g ∈ gs, ∀ x ∈ gs, g.core / 16 = x.core / 16 ∧ g.core < 512))) ∧
  (∀ s : State, ∃ t, exec .passedOverTimeout s = .next t ∧ t = { s with dev := { s.dev with hub := { s.dev.hub with
    launches := s.dev.hub.launches.map fun l => if l.lid = s.dev.arg.a ∧ l.finished = false ∧ l.placed.length < l.teams ∧
      l.since + 105000 ≤ s.dev.cycle then { l with blocking := true } else l } } }) ∧
  ∀ s : State, let d := s.dev; ∀ (l : Launch) (a : Nat), d.launch? d.arg.a = some l → l.finished = true → l.wordDue = true →
    d.waits (.compl l.lid) = false → d.translateHub l.ctx (l.compl % 2 ^ 48) 2 = .ok a → ∃ t, exec .completionWordWrite s = .next t ∧
      t = { s with dev := { d with
        ms := d.ms.poke .hub a (leBytes 8 (l.launchid.toNat + l.status * 2 ^ 32 + l.fail * 2 ^ 40))
        hub := { d.hub with launches := d.hub.launches.filter fun x => x.lid != l.lid } } }

namespace Sys2Proof.Stmt

open Machine

/-! ## The host's side (22: R384 to R392; 19: R340) -/

/-- Nothing of the hub changes but one function's record. -/
def OnlyFn (h h' : Hub) (f : Fn) : Prop :=
  { h' with fns := h.fns } = h ∧ (∀ n, n ≠ f.no → h'.fn n = h.fn n) ∧ h'.fn f.no = f

/-- A function's record with the CTXST that a command leaves (R386). -/
def WithCtxst (h : Hub) (vf : Nat) (v : W64) (err done : Bool) : Fn :=
  { h.fn vf with ctxst := BitVec.ofNat 64 (v.toNat % 256 + (if done then 256 else 0) + (if err then 512 else 0)) }

/-- A context descriptor is in order for a function (R340). -/
def GoodContext (b : List Byte) (vf : Nat) : Prop :=
  let f (o n : Nat) : Nat := fieldOf b o n
  f 8 4 < 2 ^ 20 ∧ f 0xE 2 = 0 ∧ f 0x34 4 = 0 ∧ f 0x50 176 = 0 ∧ GoodAddr (f 0 8) 4096 ∧ GoodAddr (f 0x40 8) 4096 ∧
  GoodAddr (f 0x20 8) 64 ∧ GoodAddr (f 0x38 8) 32 ∧ f 0x48 8 ≠ 0 ∧ f 0x48 8 % 4096 = 0 ∧ f 0xD 1 ≤ 3 ∧
  (f 0x10 4 = 0 ∨ From 1024 (f 0x10 4) 1048576) ∧ (∃ k, From 4 k 12 ∧ f 0x28 4 = 2 ^ k) ∧ (f 0x14 4 = 0 ∨ f 0x18 8 ≠ 0) ∧ f 0xC 1 = vf

/-- A context holds the fields of a descriptor at an IPA. -/
def HoldsDescriptor (c : Ctx) (b : List Byte) (ipa : Nat) : Prop :=
  let f (o n : Nat) : Nat := fieldOf b o n
  c.desc = ipa ∧ c.vf = f 0xC 1 ∧ c.s1root = f 0 8 % 2 ^ 48 ∧ c.pasid = f 8 4 ∧ c.classmin = f 0xD 1 ∧ c.tmb = f 0x10 4 ∧ c.eper = f 0x14 4 ∧
  c.eq = f 0x18 8 ∧ c.fring = f 0x20 8 % 2 ^ 48 ∧ c.frsz = f 0x28 4 ∧ c.wqt = f 0x38 8 % 2 ^ 48 ∧ c.savep = f 0x40 8 % 2 ^ 48 ∧
  c.savesz = f 0x48 8

/-- The descriptor that a CTXCMD names is read through the function's stage 2. -/
def ReadsDescriptor (d : Dev) (vf : Nat) (v : W64) (b : List Byte) : Prop :=
  v.toNat / 256 * 256 < 2 ^ 48 ∧ ∃ a, d.translateIpa vf (v.toNat / 256 * 256) 1 = .ok a ∧ b = d.ms.readSystem a 256

/-- A raise of a line with detail (R392): the line is up, and the signal log has an entry more, or LOST is 1 where it has no room. -/
def LineRaised (h h' : Hub) (line src val : Nat) : Prop :=
  { h' with signals := h.signals, sram := h.sram } = h ∧ (∀ i < 64, h'.signals.getLsbD i = (h.signals.getLsbD i || i == line)) ∧
  (h.sram.wf = true → let wr := h.sram32 0x84000; let held := (wr + 2 ^ 32 - h.sram32 0x84004) % 2 ^ 32
    (held < 1024 → h'.sram32 0x84000 = (wr + 1) % 2 ^ 32 ∧
      h'.sram.read (0x80000 + 16 * (wr % 1024)) 16 = leBytes 8 (line + src * 2 ^ 16) ++ leBytes 8 val) ∧
    (1024 ≤ held → h'.sram32 0x84008 = 1 ∧ h'.sram32 0x84000 = wr))

/-- The last-events record has an entry more, unless it is frozen (R405). -/
def EventNoted (h h' : Hub) (code src ctx : Nat) (detail : W64) : Prop :=
  { h' with lastev := h.lastev, frozen := h.frozen } = h ∧ (h.frozen = true → h' = h) ∧
  (h.frozen = false → h'.lastev.getLast? = some ⟨h.hubt, code, src, ctx, detail⟩ ∧ (h'.frozen = true ↔ code = 7) ∧
    (h.lastev.length < 4096 → h'.lastev = h.lastev ++ [⟨h.hubt, code, src, ctx, detail⟩]) ∧
    (h.lastev.length = 4096 → h'.lastev.length = 4096))

/-- A link has changed (R390). -/
def LinkChanged (h h' : Hub) (p : Nat) (up : Bool) : Prop :=
  if 12 ≤ p then h' = h else
    (∀ i < 12, h'.links.getLsbD i = if i = p then up else h.links.getLsbD i) ∧
    ∃ m : Hub, LineRaised { h with links := h'.links } m 7 p (if up then 1 else 0) ∧ EventNoted m h' 3 0x8000 0xFF (BitVec.ofNat 64 (p + if up then 256 else 0))

/-- One naturally aligned transaction of at most 64 bytes (R385). -/
def OneTransaction (a n : Nat) : Prop := (∃ k ≤ 6, n = 2 ^ k) ∧ a % n = 0

/-- Device memory, tier 1 or installed tier 2, holds `n` bytes at an address (R384). -/
def InDevice (h : Hub) (a n : Nat) : Prop :=
  a + n ≤ 0x8000000000 ∨ (0x010000000000 ≤ a ∧ a + n ≤ 0x010000000000 + h.tier2Bytes)

end Sys2Proof.Stmt

/-- R340, R386: CTXCMD with its three operations, refused on any ground of R340 or R386 with ERR and nothing else changed; a destroyed
context loses what waits for it but for its copies, which run to completion, and CTXST.DONE follows when nothing of it remains. What a
reread that changes EPER does to the period under way is the model's choice (log 14). -/
def Obligations.ContextCommands : Prop :=
  (∀ s : State, let d := s.dev; let v := d.arg.v; let vf := d.arg.a; let no := v.toNat % 64; let allowed := (d.hub.fn vf).allot.getLsbD no
    (∃ t, exec .ctxcmdCreate s = .next t ∧ { t with dev := { t.dev with hub := d.hub } } = s ∧
      (v.toNat / 64 % 4 ≠ 1 → t = s) ∧
      (v.toNat / 64 % 4 = 1 →
        ((∀ b, ReadsDescriptor d vf v b → allowed = true → GoodContext b vf → d.hub.ctx? no ≠ none) →
          OnlyFn d.hub t.dev.hub (WithCtxst d.hub vf v true true)) ∧
        ∀ b, ReadsDescriptor d vf v b → allowed = true → GoodContext b vf → d.hub.ctx? no = none →
          OnlyFn d.hub { t.dev.hub with ctxs := d.hub.ctxs } (WithCtxst d.hub vf v false true) ∧
          (∀ n, n ≠ no → t.dev.hub.ctx? n = d.hub.ctx? n) ∧ ∃ c, t.dev.hub.ctx? no = some c ∧ HoldsDescriptor c b (v.toNat / 256 * 256) ∧
            c.no = no ∧ c.events = 0 ∧ c.errors = 0 ∧ c.nextLaunch = 1 ∧ c.perfReq = 0 ∧ c.energy = fieldOf b 0x18 8 ∧ c.quotaOut = false ∧
            c.frwr = BitVec.ofNat 32 (fieldOf b 0x30 4) ∧ c.born = d.cycle ∧ c.period = d.cycle + 1050 * fieldOf b 0x14 4 ∧ c.frecs = [] ∧ c.areas = [] ∧ c.stopBy = none ∧
            c.dying = false)) ∧
    ∃ t, exec .ctxcmdReread s = .next t ∧ { t with dev := { t.dev with hub := d.hub } } = s ∧
      (v.toNat / 64 % 4 ≠ 2 → t = s) ∧
      (v.toNat / 64 % 4 = 2 →
        ((∀ b c, ReadsDescriptor d vf v b → allowed = true → GoodContext b vf → d.hub.ctx? no = some c → c.dying = true) →
          OnlyFn d.hub t.dev.hub (WithCtxst d.hub vf v true true)) ∧
        ∀ b c, ReadsDescriptor d vf v b → allowed = true → GoodContext b vf → d.hub.ctx? no = some c → c.dying = false →
          OnlyFn d.hub { t.dev.hub with ctxs := d.hub.ctxs } (WithCtxst d.hub vf v false true) ∧
          (∀ n, n ≠ no → t.dev.hub.ctx? n = d.hub.ctx? n) ∧ ∃ x, t.dev.hub.ctx? no = some x ∧ HoldsDescriptor x b (v.toNat / 256 * 256) ∧
            { x with desc := c.desc, vf := c.vf, s1root := c.s1root, pasid := c.pasid, classmin := c.classmin, tmb := c.tmb, eper := c.eper
                     eq := c.eq, fring := c.fring, frsz := c.frsz, wqt := c.wqt, savep := c.savep, savesz := c.savesz
                     quotaOut := c.quotaOut, energy := c.energy, period := c.period } = c ∧
            -- periods of another length count from the creation too; a quota disabled stops nothing, one enabled begins whole
            (x.eper = c.eper → x.quotaOut = c.quotaOut ∧ x.energy = c.energy ∧ x.period = c.period) ∧
            (x.eper ≠ c.eper → x.eper = 0 → x.quotaOut = false) ∧
            (x.eper ≠ c.eper → x.eper ≠ 0 → let n := 1050 * x.eper; x.quotaOut = c.quotaOut ∧ (x.energy = if c.eper = 0 then x.eq else c.energy) ∧
              x.period = c.born + ((d.cycle - c.born) / n + 1) * n))) ∧
  (∀ s : State, let d := s.dev; let v := d.arg.v; let vf := d.arg.a; let no := v.toNat % 64; let allowed := (d.hub.fn vf).allot.getLsbD no
    ∃ t, exec .ctxcmdDestroy s = .next t ∧ t.agenda = s.agenda ∧ t.pwr = s.pwr ∧ t.fw = s.fw ∧
      (v.toNat / 64 % 4 ≠ 3 → t = s) ∧
      (v.toNat / 64 % 4 = 3 →
        ((∀ c, d.hub.ctx? no = some c → allowed = true → c.dying = false → c.vf ≠ vf) →
          { t with dev := { t.dev with hub := d.hub } } = s ∧ OnlyFn d.hub t.dev.hub (WithCtxst d.hub vf v true true)) ∧
        ∀ c, d.hub.ctx? no = some c → allowed = true → c.dying = false → c.vf = vf → let e := t.dev; let h := e.hub
          (∃ x, h.ctx? no = some x ∧ { x with dying := c.dying, frecs := c.frecs, areas := c.areas } = c ∧ x.dying = true ∧ x.frecs = [] ∧ x.areas = []) ∧
          (h.fn vf).ctxst = BitVec.ofNat 64 (v.toNat % 256) ∧
          (∀ g ∈ e.groups, g.ctx ≠ no) ∧ (∀ q ∈ h.queues, q.ctx = no → q.fresh = true) ∧ (∀ l ∈ h.launches, l.ctx ≠ no) ∧ (∀ r ∈ h.frecs, r.ctx ≠ no) ∧
          (∀ x ∈ e.arrivals, x.ctx ≠ no) ∧ (∀ x ∈ e.posts, x.ctx ≠ no) ∧ (∀ x ∈ e.handoffs, x.ctx ≠ no) ∧ (∀ x ∈ e.tlbs, x.ctx ≠ no) ∧
          -- where it holds no group and no walk, nothing else changes
          ((∀ g ∈ d.groups, g.ctx ≠ no) → (∀ x ∈ d.saved, x.group.ctx ≠ no) → (∀ k ∈ d.cores, ∀ w, k.walk = some w → w.ctx ≠ no) →
            (∀ x ∈ d.walks, x.eng.ctx ≠ no) →
            { e with tlbs := d.tlbs, arrivals := d.arrivals, posts := d.posts, handoffs := d.handoffs, clusters := d.clusters, hub := d.hub } = d ∧
            e.tlbs = d.tlbs.filter (fun x => x.ctx != no) ∧ e.arrivals = d.arrivals.filter (fun x => x.ctx != no) ∧
            e.posts = d.posts.filter (fun x => x.ctx != no) ∧ e.handoffs = d.handoffs.filter (fun x => x.ctx != no) ∧
            h.queues = d.hub.queues.filter (fun x => x.ctx != no || x.fresh) ∧ h.launches = d.hub.launches.filter (fun x => x.ctx != no) ∧
            (∀ n, n ≠ no → h.ctx? n = d.hub.ctx? n) ∧
            (∀ n, { h.fn n with ctxst := (d.hub.fn n).ctxst, raised := (d.hub.fn n).raised } = d.hub.fn n) ∧
            { h with ctxs := d.hub.ctxs, fns := d.hub.fns, queues := d.hub.queues, launches := d.hub.launches, frecs := d.hub.frecs
                     cases := d.hub.cases } = d.hub ∧
            -- the page requests of its copies go on
            ∀ x ∈ d.hub.cases, ∀ i j k, x.who = .chan i j k → x ∈ h.cases ∧
              ∀ n, ∀ r ∈ (d.hub.fn n).raised, x.ctx = no → r.id ∈ x.waiting → r ∈ (h.fn n).raised))) ∧
  ∀ s : State, let d := s.dev; let no := d.arg.a; ∀ c, d.hub.ctx? no = some c →
    let gone : Prop := (∀ k ∈ d.cores, ∀ x ∈ k.chans, x.ctx = no → x.reqs = []) ∧ (∀ r ∈ d.hub.releases, r.ctx ≠ no) ∧
      (∀ f ∈ d.hub.fns, ∀ r ∈ f.reqs, r.ctx ≠ no) ∧ (∀ g ∈ d.groups, g.ctx ≠ no) ∧ ∀ x ∈ d.saved, x.group.ctx ≠ no
    ∃ t, exec .contextDestroyDone s = .next t ∧ t.agenda = s.agenda ∧ t.pwr = s.pwr ∧ t.fw = s.fw ∧
      (¬(c.dying = true ∧ gone) → t = s) ∧
      (c.dying = true → gone → t.dev.hub.ctx? no = none ∧ (∀ n, n ≠ no → t.dev.hub.ctx? n = d.hub.ctx? n) ∧
        { t.dev with tlbs := d.tlbs, arrivals := d.arrivals, posts := d.posts, handoffs := d.handoffs, clusters := d.clusters
                     cores := d.cores, hub := d.hub } = d ∧
        ∀ n, (t.dev.hub.fn n).ctxst =
          if n = c.vf ∧ (d.hub.fn n).ctxst.toNat % 256 = 3 * 64 + no then (d.hub.fn n).ctxst ||| 256 else (d.hub.fn n).ctxst)

/-- R384 to R386, R389, R390, R392, R403 to R405: writes of S2ROOT and of the register page; accesses of the host and of peers; links; the sensors.
An access that the rules do not allow does nothing. SRC and DETAIL of the last-events entries are the model's choice (log 42). -/
def Obligations.HostAccessesAndLinks : Prop :=
  (∀ s : State, let d := s.dev; let vf := d.arg.a; let held : Prop := 64 ≤ vf ∨ ∃ c ∈ d.hub.ctxs, c.vf = vf
    ∃ t, exec .s2rootWrite s = .next t ∧ { t with dev := { t.dev with hub := d.hub } } = s ∧ (held → t = s) ∧
      (¬held → OnlyFn d.hub t.dev.hub { d.hub.fn vf with s2root := d.arg.v.toNat / 4096 % 2 ^ 36 * 4096 })) ∧
  (∀ s : State, let d := s.dev; let x := d.arg; let v := x.v
    ∃ t, exec .registerWrite s = .next t ∧ t.agenda = s.agenda ∧ t.fw = s.fw ∧
      (x.c ≠ 8 ∨ x.b % 8 ≠ 0 ∨ 64 ≤ x.a ∨ 0x1000 ≤ x.b ∨ (x.a ≠ 0 ∧ 0x200 ≤ x.b) → t = s) ∧
      (x.c = 8 → x.b % 8 = 0 → x.a < 64 →
        (x.a = 0 → ∀ n < 64, x.b = 0xC00 + 8 * n → t = { s with pwr := { s.pwr with plceil := s.pwr.plceil.set n (v.toNat % 8) } }) ∧
        (0x100 ≤ x.b → x.b < 0x180 → t = { s with dev := { d with
          ms := d.ms.poke .outside (0xFE0101000000 + x.a * 0x1000 + x.b) (leBytes 8 v.toNat) } }) ∧
        (x.b = 0x180 → ∃ h, LineRaised d.hub h 4 x.a x.a ∧
          let page := 0xFE0101000000 + x.a * 0x1000
          let answer (st : Nat) : Prop := t = { s with dev := { d with
            hub := h, ms := d.ms.poke .hub (page + 0x140) (d.ms.readSystem (page + 0x100) 2 ++ [BitVec.ofNat 8 st]) } }
          ((d.hub.fn x.a).dbgBusy = true → answer 2) ∧
          ((d.hub.fn x.a).dbgBusy = false → d.monitor x.a = none → answer 3) ∧
          ((d.hub.fn x.a).dbgBusy = false → d.monitor x.a ≠ none →
            ((t.dev.hub.fn x.a).dbgBusy = true ↔ From 1 (fieldOf (d.ms.readSystem (page + 0x100) 1) 0 1) 6))) ∧
        (x.a = 0 → 0x200 ≤ x.b → x.b < 0x280 → t = { s with dev := { d with
          hub := { d.hub with cmdmb := patch d.hub.cmdmb (x.b - 0x200) (leBytes 8 v.toNat) } } }) ∧
        (x.a = 0 → x.b = 0x300 → { t with dev := { t.dev with hub := d.hub } } = s ∧ t.dev.hub.signals.getLsbD 3 = true ∧
          { t.dev.hub with signals := d.hub.signals, cmdmb := d.hub.cmdmb, cmdBusy := d.hub.cmdBusy } = d.hub ∧
          let known : Prop := From 1 (fieldOf d.hub.cmdmb 0 1) 6
          let answer (st : Nat) : Prop := t.dev.hub.cmdBusy = d.hub.cmdBusy ∧ t.dev.hub.cmdmb = patch d.hub.cmdmb 64 (d.hub.cmdmb.take 2 ++ [BitVec.ofNat 8 st])
          (d.hub.cmdBusy = true → answer 2) ∧ (d.hub.cmdBusy = false → ¬known → answer 1) ∧
          (d.hub.cmdBusy = false → known → t.dev.hub.cmdBusy = true ∧ t.dev.hub.cmdmb = d.hub.cmdmb)) ∧
        (x.a = 0 → x.b = 0x610 → t = { s with dev := { d with hub := { d.hub with s2ring := v.toNat / 32 % 2 ^ 43 * 32 } } }) ∧
        (x.a = 0 → x.b = 0x618 → t = { s with dev := { d with hub := { d.hub with
          s2rd := v.extractLsb' 32 24, s2size := if 4 ≤ v.toNat % 256 ∧ v.toNat % 256 ≤ 12 then v.toNat % 256 else d.hub.s2size } } }))) ∧
  (∀ s : State, let d := s.dev; let a := d.arg.a; let b := d.arg.data
    let allowed : Prop := OneTransaction a b.length ∧ (InDevice d.hub a b.length ∨ (0x400000000000 ≤ a ∧ a < 0x800000000000))
    ∃ t, exec .hostWrite s = .next t ∧ (¬allowed → t = s) ∧ (allowed → t = { s with dev := { d with ms := d.ms.poke .outside a b } }) ∧
      (allowed → d.ms.wf = true → ∀ i < b.length, t.dev.ms.availDevice (a + i) = b.getD i 0 ∧
        ∀ k, d.ms.ownGet k (a + i) = none → t.dev.ms.peek k (a + i) = b.getD i 0)) ∧
  (∀ s : State, let d := s.dev; let x := d.arg; let n := if x.flag then 8 else 4; let b := x.data
    ∃ t, exec .peerAccess s = .next t ∧
      (x.b = 1 → let allowed : Prop := (OneTransaction x.a b.length ∧ InDevice d.hub x.a b.length) ∨
          (0x800000000000 ≤ x.a ∧ x.a < 0x800000000000 + 12 * 0x40000000000)
        (allowed → t = { s with dev := { d with ms := d.ms.poke .outside x.a b } }) ∧ (¬allowed → t = s)) ∧
      (x.b = 2 → let allowed : Prop := InDevice d.hub x.a n ∧ x.a % n = 0
        (allowed → t = { s with dev := { d with
          ms := d.ms.poke .outside x.a (leBytes n (atomVal x.flag x.c (BitVec.ofNat 64 (d.ms.atomRead x.a n)) x.v x.w).toNat) } }) ∧
        (¬allowed → t = s)) ∧
      (x.b ≠ 1 → x.b ≠ 2 → t = s)) ∧
  (∀ s : State, ∃ t, exec .linkUp s = .next t ∧ { t with dev := { t.dev with hub := s.dev.hub } } = s ∧
    LinkChanged s.dev.hub t.dev.hub s.dev.arg.a true) ∧
  (∀ s : State, let d := s.dev; let into (a : Nat) : Prop := 0x800000000000 ≤ a ∧ a < 0x800000000000 + 12 * 0x40000000000 ∧
      (a - 0x800000000000) / 0x40000000000 = d.arg.a
    -- `lost`: the atomics under way that the peer has not received, an open choice (log 1); as of one with no translation (R329), they fault
    ∃ (t : State) (lost : List AtomReq), exec .linkDown s = .next t ∧ LinkChanged d.hub t.dev.hub d.arg.a false ∧
      (∀ e, e ∈ t.dev.tlbs ↔ e ∈ d.tlbs ∧ ¬into e.pa) ∧ (∀ r ∈ lost, r ∈ d.fabric ∧ into r.addr) ∧
      (∀ r, r ∈ t.dev.fabric ↔ r ∈ d.fabric ∧ r ∉ lost) ∧
      (lost = [] → { t with dev := { t.dev with hub := d.hub, tlbs := d.tlbs, oracle := d.oracle } } = s) ∧
      { t with dev := { t.dev with hub := d.hub, tlbs := d.tlbs, fabric := d.fabric, fibres := d.fibres, groups := d.groups, saved := d.saved
                                   free := d.free, oracle := d.oracle } } = s ∧
      let hit (f : Fibre) : Prop := f ∈ d.fibres ∧ ∃ r ∈ lost, r.core = f.core ∧ r.slot = f.slot ∧ r.lane = f.lane
      SavedDivided d t.dev hit ∧ ∀ c n l f, d.fibre? c n l = some f → ∃ g, t.dev.fibre? c n l = some g ∧
        (∀ r, lost.find? (fun r => r.core == c && r.slot == n && r.lane == l) = some r →
          let b := { f with pc := r.pc, rec_ := r.rec_, repc := r.repc, lp0 := r.lps.1, lp1 := r.lps.2.1, lp2 := r.lps.2.2 }
          TookTrap d b g 5 0 3 r.va ∧ (f.late = none → ∀ u ∈ g.units, u.stage = 0)) ∧
        (lost.find? (fun r => r.core == c && r.slot == n && r.lane == l) = none → { g with cohort := f.cohort } = f ∧
          ((∀ z, hit z → z.cohort ≠ f.cohort) → g = f))) ∧
  (∀ s : State, ∃ t, exec .temperatureThreshold s = .next t ∧ { t with dev := { t.dev with hub := s.dev.hub } } = s ∧
    LineRaised s.dev.hub t.dev.hub 8 s.dev.arg.a s.dev.arg.b) ∧
  ∀ s : State, ∃ t, exec .uncorrectedError s = .next t ∧ { t with dev := { t.dev with hub := s.dev.hub } } = s ∧
    ∃ m, LineRaised s.dev.hub m 11 s.dev.arg.a s.dev.arg.b ∧ (s.dev.arg.flag = false → t.dev.hub = m) ∧
      (s.dev.arg.flag = true → EventNoted m t.dev.hub 7 0x8000 0xFF (BitVec.ofNat 64 (s.dev.arg.b % 2 ^ 32 + s.dev.arg.a * 2 ^ 32)))

namespace Sys2Proof.Stmt

open Machine

/-! ## Power (22: R397 to R401) -/

/-- The floors of all functions together. -/
def floors (p : Power) : Nat := p.floors.sum

/-- One level has been taken from a cluster with the highest grant, one that `hot` names where there is such a one (R399). -/
def Lowered (hot : Nat → Prop) (gs hs : List Nat) : Prop :=
  ((∀ x ∈ gs, x = 0) ∧ hs = gs) ∨
  ∃ (c x : Nat), gs[c]? = some x ∧ 0 < x ∧ (∀ y ∈ gs, y ≤ x) ∧ (hot c ∨ ∀ b : Nat, gs[b]? = some x → ¬hot b) ∧ hs = gs.set c (x - 1)

/-- A fibre of a cluster whose pass count goes from `old` to `new`: what is left of its waits is so many slots of the new length (R71, R140),
and no earlier result is in flight. -/
def Repaced (now old new : Nat) (f g : Fibre) : Prop :=
  let left (n : Nat) : Nat := now + (n - now + old - 1) / old * new
  { g with ready := f.ready, wait := f.wait, infl := f.infl, pace := f.pace } = f ∧ g.infl = [] ∧
  (g.ready = if f.pace.lane = true ∧ now < f.ready then left f.ready else f.ready) ∧
  (g.wait = match f.wait with | .yielding n => .yielding (left n) | w => w)

end Sys2Proof.Stmt

/-- R398 to R401, R405: writes of CAP and of FLOOR; an evaluation of the power controller, which lowers the highest grants first, and among them
those of functions above their FLOOR. How far it must, what the functions draw, the pass count the cap or the temperature needs and the energy
used are free values (log 15). -/
def Obligations.PowerControl : Prop :=
  (∀ s : State, let p := s.pwr; let c := s.dev.arg.v.toNat % 2 ^ 16; let fixed := s.fw.capFixed
    ∃ t, exec .capWrite s = .next t ∧ { t with pwr := p, dev := { t.dev with hub := s.dev.hub } } = s ∧
      EventNoted s.dev.hub t.dev.hub 4 0x8000 0xFF s.dev.arg.v ∧
      (c < floors p → t.pwr = { p with code := 2 }) ∧ (floors p ≤ c → fixed = true → t.pwr = { p with code := 1 }) ∧
      (floors p ≤ c → fixed = false →
        (c < p.idlefl → t.pwr = { p with cap := p.idlefl, code := 1 }) ∧
        (p.idlefl ≤ c → 2200 < c → t.pwr = { p with cap := 2200, code := 1 }) ∧
        (p.idlefl ≤ c → c ≤ 2200 → t.pwr = { p with cap := c, code := 0 }))) ∧
  (∀ s : State, let p := s.pwr; let v := s.dev.arg.a; let w := s.dev.arg.v.toNat % 2 ^ 16; let q := { p with floors := p.floors.set v w }
    ∃ t, exec .floorWrite s = .next t ∧ { t with pwr := p, dev := { t.dev with hub := s.dev.hub } } = s ∧
      EventNoted s.dev.hub t.dev.hub 4 (0x8000 + v % 64) 0xFF s.dev.arg.v ∧ (64 ≤ v → t.pwr = p) ∧
      (v < 64 → p.cap < floors q → t.pwr = { p with code := 2 }) ∧ (v < 64 → floors q ≤ p.cap → t.pwr = { q with code := 0 })) ∧
  ∀ s : State, let d := s.dev; let p := s.pwr
    ∃ t, exec .powerEvaluation s = .next t ∧ t.agenda = s.agenda ∧ t.fw = s.fw ∧ t.pwr = { p with evals := p.evals + 1 } ∧
      { t.dev with clusters := d.clusters, hub := d.hub, fibres := d.fibres, free := d.free } = d ∧ t.dev.free = d.free + 1 ∧
      { t.dev.hub with signals := d.hub.signals, ctxs := d.hub.ctxs } = d.hub ∧ t.dev.hub.signals.getLsbD 2 = true ∧
      (∀ n, t.dev.hub.ctx? n = (d.hub.ctx? n).map fun c => if c.eper ≠ 0 ∧ ∃ g ∈ d.groups, g.ctx = n
        then { c with energy := c.energy - Config.energyUse d.free n } else c) ∧
      (∃ steps : List (List Nat), steps.length = Config.capSteps d.free % 225 + 1 ∧
        (∀ W, steps[0]? = some W → W.length = 32 ∧ ∀ n < 32, let top := if s.fw.nobias = true then 4 else 7
          let asks (g : Group) : Nat := match d.hub.ctx? g.ctx with | some x => min x.perfReq (nth p.plceil x.vf 7) | none => 0
          ((∀ g ∈ d.groups, g.core / 16 ≠ n) → nth W n 0 = min 4 top) ∧
          (∀ g ∈ d.groups, g.core / 16 = n → (∀ x ∈ d.groups, x.core / 16 = n → asks x ≤ asks g) → nth W n 0 = min (asks g) top)) ∧
        (∀ (i : Nat) (gs hs : List Nat), steps[i]? = some gs → steps[i + 1]? = some hs → Lowered (fun n => ∃ g ∈ d.groups, g.core / 16 = n ∧
          nth p.floors (d.vfOf g.ctx) 0 < Config.functionDraw d.free (d.vfOf g.ctx)) gs hs) ∧
        ∀ n < 32, (t.dev.cluster n).grant = nth (steps.getLastD []) n 0) ∧
      (∀ c n l f, d.fibre? c n l = some f → ∃ g, t.dev.fibre? c n l = some g ∧ let k := d.cluster (c / 16); let k' := t.dev.cluster (c / 16)
        (32 ≤ c / 16 ∨ k'.pass = k.pass → g = f) ∧ (c / 16 < 32 → k'.pass ≠ k.pass → Repaced d.cycle k.pass k'.pass f g)) ∧
      ∀ n < 32, let c := d.cluster n; let e := t.dev.cluster n; let least := if e.grant ≤ 1 then 4 else if e.grant ≤ 3 then 2 else 1
        let quiet : Prop := ∀ f ∈ d.fibres, f.core / 16 = n → ∀ x ∈ f.infl, x.ready ≤ f.elapsed d.cycle c.pass
        { e with grant := c.grant, want := c.want, pass := c.pass } = c ∧
        least ≤ e.want ∧ (s.fw.degraded = true → 2 ≤ e.want) ∧ (e.want = 1 ∨ e.want = 2 ∨ e.want = 4) ∧
        (quiet → e.pass = e.want) ∧ (¬quiet → e.pass = c.pass)

namespace Sys2Proof.Stmt

open Machine

/-! ## Boot and the mailboxes (22: R394 to R397, R403 to R405) -/

/-- Corgon has management command `n` to answer. -/
def HasCommand (s : State) (n : Nat) : Prop := s.dev.hub.cmdBusy = true ∧ fieldOf s.dev.hub.cmdmb 0 1 = n

/-- The hub after the reply of a management command (R403): its CMD and SEQ, and a status; the mailbox is free again. -/
def Answered (h : Hub) (st : Nat) : Hub :=
  { h with cmdmb := patch h.cmdmb 64 (h.cmdmb.take 2 ++ [BitVec.ofNat 8 st]), cmdBusy := false }

/-- Double-word `i` of a command's arguments (log 25). -/
def argOf (s : State) (i : Nat) : Nat := fieldOf s.dev.hub.cmdmb (8 + 8 * i) 8

/-- An image is signed with the image key that the boot ROM knows (R394): the key has the digest there, and the signature of the signed part
holds under it. Where an image holds these is free (log 16). -/
def SignedImage (img : List Byte) : Prop :=
  let x := Config.imageParts img
  sm3 x.1 = Config.imageKeyDigest ∧ sm2Verify x.1 x.2.1 x.2.2 = true

/-- The state after a command that wrote bytes to a host buffer and has its reply. -/
def WroteHost (s : State) (a : Nat) (b : List Byte) (h : Hub) : State :=
  { s with dev := { s.dev with ms := s.dev.ms.poke .hub (2 ^ 46 + a % 2 ^ 46) b, hub := Answered h 0 } }

/-- RESULT of a boot step, its attempt succeeding or not, after the step's latest entry (R397): 0 OK, 1 FAIL, 2 SKIP, 3 DEGR, 4 DFAIL. -/
def StepResultIs (n last : Nat) (good : Bool) (r : Nat) : Prop :=
  let optional : Prop := n ∈ [11, 13, 16, 20, 23]
  let degraded : Prop := n ∈ [2, 3, 4, 5, 7, 8, 9, 10, 12, 14, 17, 21] ∧ (last = 1 ∨ last = 3 ∨ last = 4)
  (optional → last = 1 → r = 2) ∧ (degraded → r = if good then 3 else 4) ∧
  (¬(optional ∧ last = 1) → ¬degraded → r = if good then 0 else 1)

/-- A step whose failure or degraded failure stops the boot (R397). -/
def Halts (n r : Nat) : Prop := n ∉ [11, 13, 16, 20, 23] ∧ (r = 1 ∨ r = 4)

/-- RESULT of the latest entry of a step in the record of the last 64, 0 where it has none. -/
def latestOf (l : List BootEnt) (n : Nat) : Nat := (((l.drop (l.length - 64)).filter fun e => e.step == n).getLast?.map BootEnt.result).getD 0

/-- The hub cycle at which boot steps that began at one have all ended. -/
def endOf (start free : Nat) (es : List BootEnt) : Nat := start + (es.map fun e => Config.stepTime free e.step).sum

/-- What an event's list says of a boot step, n + 256 k + 512 DETAIL (log 17): its attempt fails unless k is 1, and its DETAIL; a step that is not
listed succeeds with DETAIL 0. -/
def NoteIs (notes : List Nat) (n : Nat) (good : Bool) (detail : Nat) : Prop :=
  match notes.find? fun x => x % 256 == n with
  | some x => (good = true ↔ x / 256 % 2 = 1) ∧ detail = x / 512
  | none => good = true ∧ detail = 0

/-- A boot has run steps in order, as R396 and R397 say, until one stopped it: `es` are their entries, each with its own time. -/
def BootRan (old new es : List BootEnt) (stop : Option Nat) (bootno free : Nat) (steps notes : List Nat) (start : Nat) : Prop :=
    new = (old ++ es).drop (old.length + es.length - 64) ∧ es.map BootEnt.step <+: steps ∧
    (∀ (i : Nat) (e : BootEnt), es[i]? = some e → e.bootno = bootno ∧ e.hubt = endOf start free (es.take (i + 1)) ∧
      (∃ good detail, NoteIs notes e.step good detail ∧ (e.detail = if e.result = 2 then 0 else BitVec.ofNat 16 detail) ∧
        StepResultIs e.step (latestOf (old ++ es.take i) e.step) good e.result) ∧ (i + 1 < es.length → ¬Halts e.step e.result)) ∧
    ((stop = none ∧ es.map BootEnt.step = steps ∧ ∀ e, es.getLast? = some e → ¬Halts e.step e.result) ∨
     ∃ e, es.getLast? = some e ∧ Halts e.step e.result ∧ stop = some e.step)

/-- The entries of the last-events record for boot steps (R405). -/
def stepNotes (hubt : Nat) (es : List BootEnt) : List LastEv :=
  es.map fun e => ⟨hubt, 5, 0x8000, 0xFF, BitVec.ofNat 64 (e.step + e.result * 256)⟩

/-- The measurements of a boot (R395, R396): SM3 digests of the boot ROM, the Corgon image that runs, the hub configuration, the boot record up
to that step, the capability list, the configuration space and the power tables; the rest is 0. What these hold is free (log 16). -/
def measuredBy (t : State) (early : List BootEnt) : List Byte :=
  let record (e : BootEnt) : List Byte := leBytes 4 e.bootno ++ leBytes 1 e.step ++ leBytes 1 e.result ++ leBytes 2 e.detail.toNat ++ leBytes 8 e.hubt
  ([Config.bootRom, if latestOf early 3 = 3 then t.fw.altImage else Config.corgonImage,
    Config.hubConfig [15, 8, 4, 0, 15, 14, 11, 7, 0, 0, 0, 0], (early.drop (early.length - 64)).flatMap record, t.capList 0,
    Config.pfConfig t.fw.bootno, Config.powerTables].flatMap sm3) ++ List.replicate 32 0

/-- What a cold and a warm reset have in common: no fibre, group, context, queue or launch is left, and power is at its reset values. -/
def BootedFrom (s t : State) (new : List BootEnt) (idle : Nat) : Prop :=
  t.agenda = s.agenda ∧ { t.dev with hub := .reset, ms := .empty, free := 0 } = Dev.reset ∧
  { t.dev.hub with present := BitVec.allOnes 512, links := 0, isX := false, tier2 := 0, lastev := [], frozen := false, levread := false
                   sram := [], hubt := 0 } = Hub.reset ∧
  t.pwr = { cap := if latestOf new 20 = 2 then 1500 else 2200, code := 0, floors := List.replicate 64 0, plceil := List.replicate 64 7
            idlefl := idle, evals := 0 } ∧
  t.fw.bootrec = new ∧ (t.fw.degraded = true ↔ latestOf new 21 = 3)

/-- The monitor of a function answers the debug mailbox (R404): CMD, SEQ, STATUS, and data from byte 16 on, after a release at SYSTEM scope. -/
def DebugReplied (d e : Dev) (m : Monitor) (st : Nat) (data : List Byte) : Prop :=
  let page := 0xFE0101000000 + m.vf * 0x1000; let r := d.release m.g.core 6
  { e with ms := r.ms, hub := r.hub } = r ∧ OnlyFn d.hub e.hub { d.hub.fn m.vf with dbgBusy := false } ∧
  e.ms = r.ms.poke .hub (page + 0x140)
    ((d.ms.readSystem (page + 0x100) 64).take 2 ++ [BitVec.ofNat 8 st] ++ leBytes 13 0 ++ data)

/-- A group answers debug command `n` of a function as its monitor; `c` is the command. -/
def Monitors (d : Dev) (n : Nat) (m : Monitor) (c : List Byte) : Prop :=
  d.monitorOf d.arg.a d.arg.b n = some m ∧ c = d.ms.readSystem (0xFE0101000000 + m.vf * 0x1000 + 0x100) 64

/-- The monitor's first fibre has trapped, and no other: a trap of the monitor goes to the fault path, whatever its group's UHV (R404). -/
def MonitorTrapped (d e : Dev) (m : Monitor) (t : Trap) : Prop :=
  let hit (f : Fibre) : Prop := f ∈ d.fibres ∧ (f.core, f.slot, f.lane) = (m.f.core, m.f.slot, m.f.lane)
  { e with fibres := d.fibres, groups := d.groups, warps := d.warps, saved := d.saved, free := d.free } = d ∧ SavedDivided d e hit ∧
  (∀ c n w, d.warp? c n = some w → e.warp? c n = some (if (c, n) = (m.f.core, m.f.slot) then { w with mon := true } else w)) ∧
  ∀ c n l f, d.fibre? c n l = some f → ∃ g, e.fibre? c n l = some g ∧
    if (c, n, l) = (m.f.core, m.f.slot, m.f.lane) then
      g.trapped = true ∧ (d.warp? m.f.core m.f.slot ≠ none → t.impr = false → TookTrap e f g t.cause t.code t.acc t.addr)
    else { g with cohort := f.cohort } = f ∧ ((∀ z, hit z → z.cohort ≠ f.cohort) → g = f)

end Sys2Proof.Stmt

/-- R394, R395, R397, R403, R405: the management commands, each answered once. The report holds the digests measured at boot and a signature of the
identity key by SM2. The key, the numbers of a signature that the standard leaves open, certificates and the layout of a signed image are free
values, and SM3 and SM2 are PRESUMED from their standards (log 16); the places of arguments in the mailbox are the model's choice (log 25). -/
def Obligations.ManagementCommands : Prop :=
  (∀ s : State, s.dev.hub.cmdmb.length = 128 → s.fw.digests.length = 256 →
    ∃ t, exec .attest s = .next t ∧ (¬HasCommand s 1 → t = s) ∧ (HasCommand s 1 → ∃ r,
      t = WroteHost s (argOf s 4) r s.dev.hub ∧ r.length = 0x168 ∧ fieldOf r 0 2 = 1 ∧ fieldOf r 2 2 = 0 ∧ fieldOf r 4 4 = s.fw.bootno % 2 ^ 32 ∧
      (r.drop 8).take 32 = (s.dev.hub.cmdmb.drop 8).take 32 ∧
      (r.drop 0x28).take 256 = s.fw.digests ∧ ∃ ks, r.drop 0x128 = sm2Sign s.fw.idKey.toNat ks (r.take 0x128))) ∧
  (∀ s : State, ∃ t, exec .cert s = .next t ∧ (¬HasCommand s 2 → t = s) ∧ (HasCommand s 2 →
    t = WroteHost s (argOf s 0) ((List.range (min (argOf s 1) Config.certLen)).map Config.certByte) s.dev.hub)) ∧
  (∀ s : State, ∃ t, exec .bootclr s = .next t ∧ (¬HasCommand s 3 → t = s) ∧ (HasCommand s 3 → ∃ es,
    t = { s with dev := { s.dev with hub := Answered { s.dev.hub with frozen := s.dev.hub.frozen && !s.dev.hub.levread, levread := false } 0 }
                 fw := { s.fw with bootrec := (s.fw.bootrec ++ es).drop (s.fw.bootrec.length + 24 - 64) } } ∧
    es.map BootEnt.step = (List.range 24).map (· + 1) ∧ ∀ e ∈ es, e.result = 0)) ∧
  (∀ s : State, ∃ t, exec .allot s = .next t ∧ (¬HasCommand s 4 → t = s) ∧
    (HasCommand s 4 → 64 ≤ argOf s 0 → t = { s with dev := { s.dev with hub := Answered s.dev.hub 3 } }) ∧
    (HasCommand s 4 → argOf s 0 < 64 → { t with dev := { t.dev with hub := s.dev.hub } } = s ∧
      OnlyFn (Answered s.dev.hub 0) t.dev.hub { s.dev.hub.fn (argOf s 0) with allot := BitVec.ofNat 64 (argOf s 1) })) ∧
  (∀ s : State, s.dev.hub.lastev.length ≤ 4096 → ∃ t, exec .levread s = .next t ∧ (¬HasCommand s 5 → t = s) ∧ (HasCommand s 5 → ∃ b,
    t = WroteHost s (argOf s 0) b { s.dev.hub with levread := s.dev.hub.frozen } ∧ b.length = 131072 ∧
    ∀ (i : Nat) (e : LastEv), s.dev.hub.lastev[i]? = some e → (b.drop (32 * i)).take 32 =
      leBytes 8 e.hubt ++ leBytes 2 e.code ++ leBytes 2 e.src ++ leBytes 1 e.ctx ++ leBytes 3 0 ++ leBytes 16 e.detail.toNat)) ∧
  ∀ s : State, let img := s.dev.ms.readSystem (2 ^ 46 + argOf s 0 % 2 ^ 46) (argOf s 1)
    ∃ t, exec .update s = .next t ∧ (¬HasCommand s 6 → t = s) ∧
      (HasCommand s 6 → SignedImage img →
        t = { s with dev := { s.dev with hub := Answered s.dev.hub 0 }, fw := { s.fw with altImage := img } }) ∧
      (HasCommand s 6 → ¬SignedImage img → t = { s with dev := { s.dev with hub := Answered s.dev.hub 3 } })

/-- R404: the debug commands, each answered by the monitor of the function; without one in the event nothing changes. -/
def Obligations.DebugCommands : Prop :=
  (∀ s : State, ∀ i n, (i, n) ∈ [(Instr.stopCmd, 1), (.goCmd, 2), (.rdmem, 3), (.wrmem, 4), (.rdsave, 5), (.breakCmd, 6)] →
    s.dev.monitorOf s.dev.arg.a s.dev.arg.b n = none → exec i s = .next s) ∧
  (∀ s : State, let d := s.dev; ∀ m c, Monitors d 1 m c → ∃ t e, exec .stopCmd s = .next t ∧ { t with dev := d } = s ∧
    DebugReplied e t.dev m 0 [] ∧
    -- HALTED of the groups that are saved already, in State and in their areas
    let held (x : Saved) : Prop := x.group.ctx = m.g.ctx ∧ x.group.gid ≠ m.g.gid ∧ x.partial_ = false
    let b : Dev := { d with hub := CtxChanged d.hub m.g.ctx fun c => { c with stopBy := some m.g.gid } }
    ∃ h : Dev, { h with saved := d.saved, ms := d.ms } = b ∧ h.saved.length = d.saved.length ∧
      (∀ (i : Nat) (x : Saved), d.saved[i]? = some x → ∃ y, h.saved[i]? = some y ∧ (held x → y.halted = true) ∧ (¬held x → y = x)) ∧
      (AtMostOne b held → SavedActed b h held (.halt true)) ∧
      StopBegun h e 0 fun w => OfCtx d m.g.ctx w ∧ w.gid ≠ m.g.gid) ∧
  (∀ s : State, let d := s.dev; ∀ m c g, Monitors d 2 m c → (∀ x ∈ d.saved, x.group.ctx ≠ m.g.ctx ∧ x.group.gid ≠ g.gid) → d.group? g.gid = some g → g.gid ≠ 0 →
    g.ctx = m.g.ctx → g.stat = .descheduled → (∃ f ∈ d.fibres, d.gidOf f = g.gid ∧ f.trapped = true ∧ f.trapcause.toNat % 256 = 18) →
    (∀ x ∈ d.groups, x.ctx = m.g.ctx → x.gid ≠ g.gid → ∀ f ∈ d.fibres, d.gidOf f = x.gid → f.trapped = false ∨ f.trapcause.toNat % 256 ≠ 18) →
    (∀ x ∈ d.hub.cases, x.who ≠ .group g.gid) → (∀ r ∈ d.hub.frecs, r.gid ≠ some g.gid) →
    ∃ t e, exec .goCmd s = .next t ∧ { t with dev := d } = s ∧ DebugReplied e t.dev m 0 [] ∧ Runs d e g.gid ∧
      { e with fibres := d.fibres, groups := d.groups, warps := d.warps, saved := d.saved, free := d.free, hub := d.hub } = d ∧
      e.hub = CtxChanged d.hub m.g.ctx fun c => { c with stopBy := none, frecs := c.frecs.filter fun r => r.2 != g.gid }) ∧
  (∀ s : State, let d := s.dev; ∀ m c, Monitors d 2 m c → ∃ t, exec .goCmd s = .next t ∧ { t with dev := d } = s ∧
    (∀ x ∈ t.dev.saved, x.group.ctx = m.g.ctx → x.halted = false) ∧ ∀ x, t.dev.hub.ctx? m.g.ctx = some x → x.stopBy = none) ∧
  (∀ s : State, let d := s.dev; ∀ m c, Monitors d 3 m c → let r := d.monRead m (fieldOf c 3 1 == 1) (min 48 (fieldOf c 2 1)) (fieldOf c 8 8)
    ∃ t, exec .rdmem s = .next t ∧ { t with dev := d } = s ∧ (∀ b, r.1 = .ok b → DebugReplied r.2 t.dev m 0 b) ∧
      (∀ x, r.1 = .error x → MonitorTrapped r.2 t.dev m x)) ∧
  (∀ s : State, let d := s.dev; ∀ m c, Monitors d 4 m c →
    let r := d.monWrite m (fieldOf c 3 1 == 1) ((c.drop 16).take (min 48 (fieldOf c 2 1))) (fieldOf c 8 8)
    ∃ t, exec .wrmem s = .next t ∧ { t with dev := d } = s ∧ (r.1 = none → DebugReplied r.2 t.dev m 0 []) ∧
      (∀ x, r.1 = some x → MonitorTrapped r.2 t.dev m x)) ∧
  (∀ s : State, let d := s.dev; ∀ m c x, Monitors d 5 m c → d.hub.ctx? m.g.ctx = some x → ∃ t, exec .rdsave s = .next t ∧ { t with dev := d } = s ∧
    (x.savesz < fieldOf c 8 8 + 48 → DebugReplied d t.dev m 3 []) ∧
    (fieldOf c 8 8 + 48 ≤ x.savesz → ∀ b, d.readIpa m.vf (x.savep + fieldOf c 8 8) 48 = .ok b → DebugReplied d t.dev m 0 b) ∧
    (fieldOf c 8 8 + 48 ≤ x.savesz → ∀ u, d.readIpa m.vf (x.savep + fieldOf c 8 8) 48 = .error u → DebugReplied d t.dev m 3 [])) ∧
  ∀ s : State, let d := s.dev; ∀ m c, Monitors d 6 m c → let win := fieldOf c 3 1 == 1; let a := fieldOf c 8 8; let r := d.monOne m win false 4 a 0
    ∃ t, exec .breakCmd s = .next t ∧ { t with dev := d } = s ∧ (∀ x, r.1 = .error x → MonitorTrapped r.2 t.dev m x) ∧
      ∀ v, r.1 = .ok v → let w := r.2.monOne m win true 4 a 0x98000000
        (∀ x, w.1 = .error x → MonitorTrapped w.2 t.dev m x) ∧ (∀ u, w.1 = .ok u → DebugReplied w.2 t.dev m 0 (leBytes 4 (v.toNat % 2 ^ 32)))

/-- R396, R397, R398, R405: a cold and a warm reset run their steps, each with the result R397 gives; memory of the host survives both, device
memory the warm one; a boot that stopped leaves only a cold reset. What a skipped or degraded step leaves holds until it runs again. Which attempts
fail, with which DETAIL, is an event operand, and how long a step takes a free value (log 17). -/
def Obligations.Resets : Prop :=
  (∀ s : State, s.fw.bootrec.length ≤ 64 → let x := s.dev.arg; let old := s.dev.hub; let free := s.dev.free
    ∃ t es, exec .coldReset s = .next t ∧ BootedFrom s t t.fw.bootrec (Config.idleFloor (s.fw.bootno + 1)) ∧ t.fw.bootno = s.fw.bootno + 1 ∧
      BootRan s.fw.bootrec t.fw.bootrec es t.fw.bootFail (s.fw.bootno + 1) free ((List.range 24).map (· + 1)) x.nums 0 ∧
      t.fw.altImage = s.fw.altImage ∧ t.fw.idKey = s.fw.idKey ∧ (t.fw.nobias = true ↔ latestOf t.fw.bootrec 11 = 2) ∧
      (t.fw.capFixed = true ↔ latestOf t.fw.bootrec 20 = 2) ∧
      (t.fw.digests = if 19 ∈ es.map BootEnt.step then measuredBy t (s.fw.bootrec ++ es.filter fun e => e.step < 19) else s.fw.digests) ∧
      t.dev.ms = { MemSys.empty with mem := s.dev.ms.mem.filter fun c => isHostOrPeer c.1 } ∧
      t.dev.hub.links = (if latestOf t.fw.bootrec 16 = 0 then x.v.setWidth 12 else 0) ∧ t.dev.hub.hubt = endOf 0 free es ∧ t.dev.hub.sram = [] ∧
      (∀ i < 512, t.dev.hub.present.getLsbD i = if x.data = [] then true else (BitVec.ofNat 512 (leVal x.data)).getLsbD i) ∧
      (latestOf t.fw.bootrec 23 ≠ 2 → old.frozen = true → old.levread = false → t.dev.hub.frozen = true ∧ t.dev.hub.lastev = old.lastev) ∧
      (¬(latestOf t.fw.bootrec 23 ≠ 2 ∧ old.frozen = true ∧ old.levread = false) → t.dev.hub.frozen = false ∧
        t.dev.hub.lastev = stepNotes t.dev.hub.hubt (es.filter fun e => 23 ≤ e.step))) ∧
  ∀ s : State, s.fw.bootrec.length ≤ 64 → let x := s.dev.arg; let old := s.dev.hub; let free := s.dev.free
    ∃ t es, exec .warmReset s = .next t ∧ BootedFrom s t t.fw.bootrec s.pwr.idlefl ∧
      BootRan s.fw.bootrec t.fw.bootrec es t.fw.bootFail s.fw.bootno free [15, 17, 18, 19, 20, 21, 22, 24] x.nums old.hubt ∧
      { t.fw with bootrec := s.fw.bootrec, bootFail := s.fw.bootFail, capLinks := s.fw.capLinks, degraded := s.fw.degraded
                  capFixed := s.fw.capFixed, digests := s.fw.digests } = s.fw ∧ t.fw.capLinks = old.links ∧
      (t.fw.capFixed = if 20 ∈ es.map BootEnt.step then decide (latestOf t.fw.bootrec 20 = 2) else s.fw.capFixed) ∧
      (t.fw.digests = if 19 ∈ es.map BootEnt.step then measuredBy t (s.fw.bootrec ++ es.filter fun e => e.step < 19) else s.fw.digests) ∧
      t.dev.ms = { MemSys.empty with mem := s.dev.ms.mem } ∧ t.dev.hub.links = old.links ∧ t.dev.hub.present = old.present ∧
      t.dev.hub.sram = old.sram ∧ t.dev.hub.hubt = endOf old.hubt free es ∧ t.dev.hub.frozen = old.frozen ∧ t.dev.hub.levread = old.levread ∧
      (old.frozen = true → t.dev.hub.lastev = old.lastev) ∧
      (old.frozen = false → old.lastev.length + es.length ≤ 4096 → t.dev.hub.lastev = old.lastev ++ stepNotes t.dev.hub.hubt es)

namespace Sys2Proof.Stmt

open Machine

/-! ## Fetching, batches and steps (01: R16 to R21; 03: R67, R71; 06: R136) -/

/-- Positions are held once, a group's fibres stand on its core, their WARPID and home lane name them, and no group is partly evicted. -/
def Tidy (d : Dev) : Prop :=
  (d.fibres.map fun f => (f.core, f.slot, f.lane)).Nodup ∧ (∀ v ∈ d.saved, v.partial_ = false) ∧
  (∀ f ∈ d.fibres, ∀ g ∈ d.groups, g.gid = d.gidOf f → f.core = g.core) ∧
  ∀ f ∈ d.fibres, ∀ x ∈ d.fibres, d.gidOf f = d.gidOf x → f.warpid = x.warpid → f.lane = x.lane → f = x

/-- One batch goes before another (R21, R136): the first number in which their keys differ is lower. -/
def GoesFirst (a b : List Nat) : Prop :=
  ∃ i, i < a.length ∧ i < b.length ∧ (∀ j < i, nth a j 0 = nth b j 0) ∧ nth a i 0 < nth b i 0

/-- A batch's key has the components of R21 and R136 in their order: in an occupied warp or not, of a class-0 launch or not, the earliest cycle
at which a member reached its PC, the anchor slot, the lowest home lane. -/
def KeyOf (d : Dev) (g : Group) (c : Cand) : Prop :=
  ∃ occ cls age lane, c.key = [occ, cls, age, c.anchor, lane] ∧ occ ≤ 1 ∧ cls ≤ 1 ∧
    (occ = 0 ↔ ∃ w, d.warp? c.core c.anchor = some w ∧ w.occ ≠ none) ∧ (cls = 0 ↔ g.cls = 0) ∧
    (∃ f ∈ d.fibres, f.core = c.core ∧ (f.slot, f.lane) ∈ c.members ∧ f.age = age) ∧
    (∀ f ∈ d.fibres, f.core = c.core → (f.slot, f.lane) ∈ c.members → age ≤ f.age) ∧
    (∃ x ∈ c.members, x.2 = lane) ∧ ∀ x ∈ c.members, lane ≤ x.2

/-- Two batches are anchored in one slot. -/
abbrev SameSlot (a b : Cand) : Prop := a.core = b.core ∧ a.anchor = b.anchor

/-- `n` distinct PCs stand among the unparked fibres of a slot (R22). -/
def DistinctPcs (d : Dev) (core slot n : Nat) : Prop :=
  ∃ pcs : List Addr48, pcs.Nodup ∧ pcs.length = n ∧
    ∀ p, p ∈ pcs ↔ ∃ f ∈ d.fibres, f.core = core ∧ f.slot = slot ∧ f.wait ≠ .parked ∧ f.pc = p

/-- `cs` are the batches from which the step chooses, and `rest` what the agenda holds after it. -/
def ChoosesFrom (s : State) (cs : List Cand) (rest : List Todo) : Prop :=
  s.fw.bootFail = none ∧ ((∃ core pipe, s.agenda = .issue core pipe :: rest ∧ cs = s.dev.cands.filter fun c => c.pipe == core * 4 + pipe) ∨
    (s.agenda = [] ∧ rest = [] ∧ s.due = none ∧ s.dev.dueBar = none ∧ cs = s.dev.cands))

/-- `u` is `s` where the batch `c` has begun to issue with the word `w`, ahead of the batches `cs`: the batch is noted, its pipe served, the
translation of the fetch cached; the opportunity of its slot counts for the batches anchored there (R22); and what a cohort that issues slot by
slot leaves behind is a cohort of its own (R274). -/
def Begun (s u : State) (c : Cand) (cs : List Cand) (w : BitVec 32) (rest : List Todo) : Prop :=
  let d := s.dev; let e := u.dev
  let mine (f : Fibre) : Prop := f.core = c.core ∧ (f.slot, f.lane) ∈ c.members
  let rival (f : Fibre) : Prop := f.core = c.core ∧ ∃ x ∈ cs, SameSlot c x ∧ x.members ≠ c.members ∧ (f.slot, f.lane) ∈ x.members
  u = { s with agenda := rest, dev := { d with
    cur := e.cur, pipe := c.pipe + 1, tlbs := (d.translate c.core c.ctx c.pc.toNat 4).2.tlbs, fibres := e.fibres, free := e.free } } ∧
  e.cur = { core := c.core, gid := c.gid, pc := c.pc, word := w, members := c.members, anchor := c.anchor, rivals := e.cur.rivals } ∧
  let divides (n : Nat) : Prop := n ≠ 0 ∧ ∃ x ∈ d.fibres, mine x ∧ x.cohort = n
  e.fibres.length = d.fibres.length ∧ ∃ part : Nat → Nat → Nat,
    (∀ n m i j, divides n → divides m → i < 2 ^ 48 → j < 2 ^ 48 → part n i = part m j → n = m ∧ i = j) ∧
    ∀ (j : Nat) (f : Fibre), d.fibres[j]? = some f → ∃ a n k, e.fibres[j]? = some { f with
      cohort := k, pace := { f.pace with anchor := a, passed := n } } ∧
    (mine f → ¬rival f → a = f.pace.anchor ∧ n = 0 ∧ k = f.cohort) ∧
    (rival f → a = c.anchor ∧ n = if f.pace.anchor = c.anchor then f.pace.passed + 1 else 1) ∧
    (¬mine f → ¬rival f → a = f.pace.anchor ∧ n = if f.core = c.core ∧ f.pace.anchor = c.anchor then 0 else f.pace.passed) ∧
    (¬mine f → divides f.cohort → k = part f.cohort f.slot) ∧ (¬mine f → ¬divides f.cohort → k = f.cohort)

/-- The floors fit under the cap, and the cap under what the module may draw, wherever the measured idle floor does; codes and ceilings are
legal (R386, R398). -/
def PowerInv (p : Power) : Prop :=
  (p.idlefl ≤ 2200 → p.floors.sum ≤ p.cap ∧ p.cap ≤ 2200) ∧ p.code ≤ 2 ∧ p.floors.length = 64 ∧ p.plceil.length = 64 ∧ ∀ x ∈ p.plceil, x ≤ 7

/-- One of the four Xcorgon instructions. -/
def OfCorgon (i : Instr) : Prop := (∃ o, i = .rfetch o ∨ i = .xbfe o ∨ i = .xbfeS o ∨ i = .disp o) ∨ ∃ o, i = .swait o

/-- The first row of its word: the forms of KVLD and of KVAPP, which B[7:0] chooses at run time, share one word each (R370). -/
def FirstRow : Instr → Instr
  | .kvldOpen o | .kvldClose o => .kvldRead o
  | .kvappUnref o | .kvappPagein o | .kvappCommit o | .kvappRetain o => .kvappAppend o
  | i => i

/-- Device memory and hub SRAM keep their canonical form. -/
def MemoryInv (s : State) : Prop := s.dev.ms.wf = true ∧ s.dev.hub.sram.wf = true

end Sys2Proof.Stmt

/-- R16, R73, R391: a step runs the instruction it decodes. A batch chosen issues with the word at its PC, read through the core's view; step is
then exec of that instruction, with the batch noted, the pipe served, the translation of the fetch cached, the opportunity of its slot counted
(R22) and a cohort that issues slot by slot divided (R274). A word that decodes to nothing runs the illegal-word step, and a fetch that faults
traps PAGEFAULT in the batch (R242). A Corgon core runs the word at its pc, or traps on one that is no instruction, and an event of the agenda
is its row's. How steps are ordered is the model's choice (log 1). -/
def Obligations.StepRunsTheDecodedInstruction : Prop :=
  (∀ s : State, ∀ cs rest c a, ChoosesFrom s cs rest → s.dev.choice cs = some c → (s.dev.translate c.core c.ctx c.pc.toNat 4).1 = .ok a →
    let w : W32 := BitVec.ofNat 32 (leVal (s.dev.ms.peeks c.core a 4))
    ∃ u, Begun s u c cs w rest ∧
    (∀ i, decode w = .ok i → step s = exec i u) ∧ ((∀ i, decode w ≠ .ok i) → step s = exec (.illegalWord w) u)) ∧
  (∀ s : State, ∀ cs rest c x, ChoosesFrom s cs rest → s.dev.choice cs = some c → (s.dev.translate c.core c.ctx c.pc.toNat 4).1 = .error x →
    ∃ u t, Begun s u c cs 0 rest ∧ step s = .next t ∧ OnlyTraps u t ∧ OthersKept u.dev t.dev ∧
      ∀ f ∈ u.dev.active, ∃ g, t.dev.fibre? f.core f.slot f.lane = some g ∧ TookTrap u.dev f g 5 0 2 (c.pc.signExtend 64)) ∧
  (∀ s : State, ∀ n rest c i, s.fw.bootFail = none → s.agenda = .corgon n :: rest → getBy Corgon.no n s.fw.corgons = some c → c.waiting = none →
    decodeCorgon (BitVec.ofNat 32 (leVal (s.dev.hub.sram.read c.pc.toNat 4))) = some i →
    step s = exec i { s with agenda := rest, fw := { s.fw with curCorgon := n } }) ∧
  (∀ s : State, ∀ n rest c w, s.fw.bootFail = none → s.agenda = .corgon n :: rest → getBy Corgon.no n s.fw.corgons = some c → c.waiting = none →
    w = BitVec.ofNat 32 (leVal (s.dev.hub.sram.read c.pc.toNat 4)) → decodeCorgon w = none → (fetchRv w).1 = none →
    ∃ t c', step s = .next t ∧ t.dev = s.dev ∧ OnlyCorgon { s with agenda := rest, fw := { s.fw with curCorgon := n } } t n c' ∧
      CorTrap c c' 2 (if w.toNat % 4 = 3 then w.setWidth 64 else (w.setWidth 16).setWidth 64)) ∧
  ∀ s : State, ∀ i a rest, s.fw.bootFail = none → s.agenda = .event i a :: rest → encode i = none → (∀ w, i ≠ .illegalWord w) →
    step s = exec i { s with agenda := rest, dev := { s.dev with arg := a } }

/-- R16 to R18, R21, R22, R67, R71, R136, R274: a batch holds ready fibres of one running group at one PC, at most one from each home lane, and whole
cohorts; an occupied warp issues alone; a lane instruction issues every PASS cycles. The batches go in the order of R21, but a batch that would
break R22 unless it issues goes ahead of the others of its slot. -/
def Obligations.BatchSelection : Prop :=
  (∀ s : State, let d := s.dev; Tidy d → ∀ c ∈ d.cands,
    let alone : Prop := ∃ w, c.word = some w ∧ (wholeOnly (decodeTotal w) = true ∨ namesDelivery (decodeTotal w) = true)
    let occupied (n : Nat) : Prop := ∃ w, d.warp? c.core n = some w ∧ w.occ ≠ none
    (∃ g ∈ d.groups, g.gid = c.gid ∧ g.core = c.core ∧ g.ctx = c.ctx ∧ g.stat = .running ∧ KeyOf d g c) ∧ c.members ≠ [] ∧
    c.members.Pairwise (fun x y => x.2 < y.2) ∧
    (∃ x ∈ c.members, x.1 = c.anchor ∧ ∀ y ∈ c.members, x.1 * 32 + x.2 ≤ y.1 * 32 + y.2) ∧
    d.pipe ≤ c.pipe ∧ c.pipe / 4 = c.core ∧ c.pipe % 4 = c.anchor % 4 ∧
    (∀ x ∈ c.members, ∃ f ∈ d.fibres, f.core = c.core ∧ f.slot = x.1 ∧ f.lane = x.2 ∧ d.gidOf f = c.gid ∧ f.pc = c.pc ∧
      f.trapped = false ∧ f.wait = .none ∧ f.ready ≤ d.cycle ∧
      (∀ w, c.word = some w → ∀ u ∈ usesOf (decodeTotal w), u.waits = true → ∀ n, u.reg = .v n → ∀ o ∈ f.outst, o.reg ≠ .v n) ∧
      -- a cohort issues whole, or slot by slot where it has to
      ∀ y ∈ d.fibres, d.gidOf y = c.gid → y.cohort = f.cohort → f.cohort ≠ 0 → (y.slot, y.lane) ∈ c.members ∨
        (y.slot ≠ f.slot ∧ (alone ∨ ∃ z ∈ d.fibres, d.gidOf z = c.gid ∧ z.cohort = f.cohort ∧ (occupied z.slot ∨
          ∃ v ∈ d.fibres, d.gidOf v = c.gid ∧ v.cohort = f.cohort ∧ v ≠ z ∧ v.lane = z.lane)))) ∧
    (∀ x ∈ c.members, ∀ y ∈ c.members, (alone ∨ occupied x.1) → x.1 = y.1) ∧
    (c.takes = true ↔ (d.cluster (c.core / 16)).want = (d.cluster (c.core / 16)).pass ∧ ∀ w, c.word = some w →
      w.getLsbD 31 = true ∨ d.cycle % (d.cluster (c.core / 16)).pass = 0)) ∧
  ∀ (d : Dev) (cs : List Cand) (c : Cand), (∀ x ∈ cs, x.key.length = 5) → d.choice cs = some c → c ∈ cs ∧ c.takes = true ∧
    -- within a slot, the order of R21 where every batch can still wait for those that are as late; one that cannot wait goes first
    (∀ x ∈ cs, ∀ n, SameSlot x c → x.takes = true → DistinctPcs d c.core c.anchor n →
      (c.passed < x.passed ∧ c.passed + 1 < 2 * n ∨ ∀ k, (cs.filter fun y => decide (SameSlot y c ∧ 2 * n ≤ y.passed + 1 + k)).length ≤ k) → ¬GoesFirst x.key c.key) ∧
    (∀ x ∈ cs, ∀ n, SameSlot x c → DistinctPcs d x.core x.anchor n → 2 * n ≤ x.passed + 1 →
      (∀ y ∈ cs, SameSlot y x → y ≠ x → y.passed + 1 < 2 * n) → c = x) ∧
    -- between slots, the order of R21 on their batches, but for a slot whose late batches its pipe cannot take in this cycle
    ∀ x ∈ cs, x.takes = true → ¬SameSlot x c → (∃ b ∈ cs, SameSlot b c ∧ b.takes = true ∧ b.pipe ≤ x.pipe ∧ (b.pipe = x.pipe → ¬GoesFirst x.key b.key)) ∨
      ∃ y ∈ cs, SameSlot y x ∧ y.takes = false

/-- What reset leaves (R340, R342, R361, R386, R398): no fibre, context, queue or launch exists; the classes have their default priorities, and no line is
pending; the cap is 2,200 W with code 0, and every ceiling is 7; memory is in its canonical form and the power registers are legal. The floors, 0,
and that the boot record is that of one boot without failure are the model's choice (logs 2 and 17), and the idle floor is measured (log 15). -/
def Obligations.ResetState : Prop :=
  let s := State.reset; let h := s.dev.hub
  s.dev.fibres = [] ∧ s.dev.warps = [] ∧ s.dev.groups = [] ∧ s.dev.saved = [] ∧ h.ctxs = [] ∧ h.queues = [] ∧ h.launches = [] ∧ s.dev.ms.mem = [] ∧
  h.base = [15, 8, 4, 0] ∧ h.ceil = [15, 14, 11, 7] ∧ h.signals = 0 ∧ h.lastev = [] ∧ h.frozen = false ∧
  s.pwr.cap = 2200 ∧ s.pwr.code = 0 ∧ s.pwr.floors = List.replicate 64 0 ∧ s.pwr.plceil = List.replicate 64 7 ∧
  s.fw.bootno = 1 ∧ s.fw.bootFail = none ∧ s.fw.bootrec.map BootEnt.step = (List.range 24).map (· + 1) ∧ (∀ e ∈ s.fw.bootrec, e.result = 0) ∧
  MemoryInv s ∧ PowerInv s.pwr

/-- R58 to R64, R80, R391: words that the spec writes out decode to the instructions it gives for them. -/
def Obligations.WrittenWords : Prop :=
  -- SHRI.n64 v23, v23, 61; MOVI.n64 v25, 4; ADDI.n64 v13, v11, 16; CMP.lt.i32 m3, v1, v2
  decode 0x09975DF7#32 = .ok (.shri { stl := 0, vd := 23, va := 23, cnt := 61, ty := 3 }) ∧
  decode 0x29D90013#32 = .ok (.movi { stl := 1, vd := 25, imm := 4, ty := 3 }) ∧
  decode 0x094D2C43#32 = .ok (.addi { stl := 0, vd := 13, va := 11, imm := 16, ty := 3 }) ∧
  decode 0x07130424#32 = .ok (.cmpI { stl := 0, cc := 2, md := 3, va := 1, vb := 2, hv := 0, ty := 2, kb := 0 }) ∧
  -- FMA.f32 v5, v6, v7; CVT.rz.i32.f32 v7, v6; SHFL.up.b32 v2, v1, l1:s0; VOTE.bal.b32 v3, v5
  decode 0x0AC51874#32 = .ok (.fma { stl := 0, vd := 5, va := 6, vb := 7, hv := 0, ty := 2, kb := 0 }) ∧
  decode 0x100718A9#32 = .ok (.cvt { stl := 0, vd := 7, va := 6, td := 2, ts := 10, rnd := 1 }) ∧
  decode 0x13820422#32 = .ok (.shflUpConst { stl := 0, vd := 2, va := 1, imm := 8, ty := 2 }) ∧
  decode 0x14431434#32 = .ok (.vote { stl := 0, vd := 3, va := 5, form := 3, hv := 0, ty := 2 }) ∧
  -- CALL v62, 64 words ahead; FORK v8, 3, 5 words ahead; LOOP 64 with a body of 16 words; LD.g.b64 v3, [v10+0]
  decode 0x15FE0040#32 = .ok (.call { stl := 0, vd := 62, off := 64 }) ∧
  decode 0x16882005#32 = .ok (.fork { stl := 0, va := 8, cnt := 2, off := 5 }) ∧
  decode 0x17040010#32 = .ok (.loopImm { stl := 0, cnt := 64, off := 16 }) ∧
  decode 0x18032806#32 = .ok (.ldG { stl := 0, vd := 3, va := 10, msk := 0, off := 0, sz := 3, hv := 0 }) ∧
  -- ATOM.max.n.g.b32.rel.device v4, [v2]; KADD k10, k60, SCOFF; WAITANY k0, 1; SETPERF k4
  decode 0x1B04092A#32 = .ok (.atomG32 { stl := 0, vd := 4, va := 2, aop := 4, ord := 2, scope := 5, hv := 0 }) ∧
  decode 0x800AF180#32 = .ok (.kaddImm { stl := 0, kd := 10, ka := 60, imm := 0x180 }) ∧
  decode 0x8C800000#32 = .ok (.waitany { stl := 0, ka := 0, n := 0 }) ∧
  decode 0x97C01000#32 = .ok (.setperf { stl := 0, ka := 4 }) ∧
  -- rfetch x10, x11, x12; xbfe.s x5, x6, x7
  decodeCorgon 0x00C5850B#32 = some (.rfetch { rs2 := 12, rs1 := 11, rd := 10 }) ∧
  decodeCorgon 0x0273128B#32 = some (.xbfeS { rs2 := 7, rs1 := 6, rd := 5 })

/-- R56 to R64, R72, R391: decoding the word of a well-formed instruction gives it back, with every operand at every value (rows that share a word
give its first row); a word decodes only to a well-formed instruction whose word it is. -/
def Obligations.DecodeAndEncodeAgree : Prop :=
  (∀ i w, i.wf = true → encode i = some w → (OfCorgon i → decodeCorgon w = some i) ∧ (¬OfCorgon i → decode w = .ok (FirstRow i))) ∧
  (∀ w i, decode w = .ok i → i.wf = true ∧ encode i = some w) ∧ ∀ w i, decodeCorgon w = some i → i.wf = true ∧ encode i = some w

/-- An invariant of the model: every step keeps device memory and hub SRAM in their canonical form, so that equal memories are equal data (log 3). -/
def Obligations.StepsKeepMemoryCanonical : Prop :=
  ∀ s t : State, MemoryInv s → step s = .next t → MemoryInv t

/-- R386, R398: no step raises the guaranteed watts above the cap, or the cap above 2,200 W where the idle floor measured at boot does not exceed it;
CAPST.CODE and every PLCEIL stay legal. -/
def Obligations.StepsKeepTheFloorsUnderTheCap : Prop :=
  ∀ s t : State, PowerInv s.pwr → step s = .next t → PowerInv t.pwr

namespace Sys2Proof.Stmt

open Machine

/-! ## The layout of a save area (10: R267) -/

/-- What the group save area gives a width for fits that width, and each register file has its registers. -/
def Storable (s : Saved) : Prop :=
  let g := s.group
  s.warps.length < 2 ^ 8 ∧ g.teamid < 2 ^ 16 ∧ g.groupid < 2 ^ 8 ∧ g.cls < 2 ^ 8 ∧ g.core < 2 ^ 16 ∧ s.walkArea < 2 ^ 64 ∧
  g.ks.length = 55 ∧ g.bars.length = 8 ∧ g.tbars.length = 8 ∧
  (∀ w ∈ s.warps, w.kd.length = 9 ∧ w.pend.length = 16 ∧ w.warpid < 2 ^ 64 ∧ w.budget < 2 ^ 64) ∧ ∀ f ∈ s.fibres, f.win.length < 2 ^ 64

/-- Bytes `lo` to `hi - 1` are 0. -/
def ZeroFrom (b : List (BitVec 8)) (lo hi : Nat) : Prop := ∀ i, lo ≤ i → i < hi → nth b i 0 = 0

/-- A barrier record: arrived warps, and their bitmap. -/
def BarAt (b : List (BitVec 8)) (o : Nat) (m : BitVec 32) : Prop :=
  fieldOf b o 1 = ((List.range 32).filter fun i => m.getLsbD i).length ∧ fieldOf b (o + 2) 4 = m.toNat ∧
  ZeroFrom b (o + 1) (o + 2) ∧ ZeroFrom b (o + 6) (o + 16)

/-- A warp record; the order of what R267 lists in it is the model's choice (log 23). -/
def WarpAt (b : List (BitVec 8)) (o : Nat) (s : Saved) (w : Warp) : Prop :=
  fieldOf b o 8 = w.warpid ∧
  (∀ i < 64, (BitVec.ofNat 64 (fieldOf b (o + 8) 8)).getLsbD i = true ↔ (i = 0 ∧ w.occ ≠ none) ∨ (i = 1 ∧ w.masked = true) ∨
    (i = 2 ∧ ∃ f ∈ s.fibres, f.warpid = w.warpid ∧ f.wait = .parked) ∨ (i = 3 ∧ s.partial_ = true)) ∧
  fieldOf b (o + 16) 8 = w.budget ∧ fieldOf b (o + 32) 8 = w.evmask.toNat ∧
  (∀ i < 16, ∀ x, nth w.pend i none = x →
    -- PEND: LATCHED in bits 15:0, ARMED in bits 31:16; the slot's token and its latched payload
    ((BitVec.ofNat 64 (fieldOf b (o + 24) 8)).getLsbD (16 + i) = true ↔ x ≠ none) ∧
    ((BitVec.ofNat 64 (fieldOf b (o + 24) 8)).getLsbD i = true ↔ ∃ p, x = some p ∧ p.latched ≠ none) ∧
    fieldOf b (o + 40 + 4 * i) 4 = (match x with | some p => p.token.toNat | none => 0) ∧
    fieldOf b (o + 104 + 8 * i) 8 = (match x with | some p => (match p.latched with | some v => v.toNat | none => 0) | none => 0)) ∧
  (∀ i < 9, fieldOf b (o + 232 + 8 * i) 8 = (nth w.kd i 0).toNat) ∧ ZeroFrom b (o + 304) (o + 512)

/-- A fibre record: a header of 256 bytes and its window; the order within the header is the model's choice (log 23). -/
def FibreAt (b : List (BitVec 8)) (o : Nat) (f : Fibre) : Prop :=
  let word (i v : Nat) : Prop := fieldOf b (o + 8 * i) 8 = v
  let addr (i : Nat) (a : BitVec 48) : Prop := word i (a.signExtend 64).toNat
  addr 0 f.pc ∧ (∀ n, 1 ≤ n → n < 8 → fieldOf b (o + 8 + n) 1 = f.pred.toNat / 2 ^ (8 * n) % 256) ∧ fieldOf b (o + 8) 1 = 255 ∧
  word 2 (f.lane + if f.helper then 256 else 0) ∧ word 3 f.win.length ∧ word 4 (f.wait.code % 2 ^ 64) ∧ word 5 f.fpctl.toNat ∧
  word 6 f.lp0.count.toNat ∧ word 7 f.lp1.count.toNat ∧ word 8 f.lp2.count.toNat ∧
  addr 9 f.lp0.start ∧ addr 10 f.lp1.start ∧ addr 11 f.lp2.start ∧ addr 12 f.lp0.last ∧ addr 13 f.lp1.last ∧ addr 14 f.lp2.last ∧
  word 15 f.trapcause.toNat ∧ word 16 f.trappc.toNat ∧ word 17 f.trapaddr.toNat ∧ word 18 f.ilenc.toNat ∧
  word 19 f.ilf0.toNat ∧ word 20 f.ilf1.toNat ∧ word 21 f.ilf2.toNat ∧ word 22 f.ilf3.toNat ∧
  word 23 f.rec_.toNat ∧ word 24 f.repc.toNat ∧ word 25 f.mdone.toNat ∧ ZeroFrom b (o + 208) (o + 256) ∧
  ∀ i < f.win.length, fieldOf b (o + 256 + 8 * i) 8 = (nth f.win i 0).toNat

end Sys2Proof.Stmt

/-- R267, R40: the layout of a group save area: VER and FLAGS, what says which group it is, the uniform registers at 0x040, the barrier records at
0x240 and 0x2C0, the warp records of 512 bytes at 0x400 and after them the fibre records; a fibre that reads its record back has its PC, window,
loops and trap registers again. The places within a warp record and a fibre record, and the numbers of wait states, are the model's choice
(log 23). -/
def Obligations.SaveAreaLayout : Prop :=
  (∀ s : Saved, Storable s → let g := s.group; let b := s.bytes
    let fibreOffset (i : Nat) : Nat := 0x400 + 512 * s.warps.length + ((s.fibres.take i).map fun f => 256 + 8 * f.win.length).sum
    b.length = fibreOffset s.fibres.length ∧ fieldOf b 0 2 = 1 ∧
    (∀ i < 16, (BitVec.ofNat 16 (fieldOf b 2 2)).getLsbD i = true ↔ (i = 0 ∧ s.replay = true) ∨ (i = 1 ∧ g.gwx = true) ∨
      (i = 2 ∧ s.recLive = true) ∨ (i = 3 ∧ s.walkArea ≠ 0) ∨ (i = 4 ∧ s.halted = true) ∨ (i = 5 ∧ s.partial_ = true)) ∧
    fieldOf b 4 1 = s.warps.length ∧ ZeroFrom b 5 6 ∧ fieldOf b 6 2 = g.teamid ∧ fieldOf b 8 4 = g.launchid.toNat ∧ fieldOf b 0xC 1 = g.groupid ∧
    fieldOf b 0xD 1 = g.cls ∧ ZeroFrom b 0xE 0x10 ∧ fieldOf b 0x10 8 = g.gctl.toNat ∧ fieldOf b 0x18 8 = g.uhv.toNat ∧
    fieldOf b 0x20 2 = g.core ∧ ZeroFrom b 0x22 0x28 ∧ fieldOf b 0x28 8 = s.walkArea ∧ ZeroFrom b 0x30 0x40 ∧
    (∀ n < 55, fieldOf b (0x40 + 8 * n) 8 = (nth g.ks n 0).toNat) ∧ ZeroFrom b 0x1F8 0x240 ∧
    (∀ n < 8, BarAt b (0x240 + 16 * n) (nth g.bars n 0) ∧ BarAt b (0x2C0 + 16 * n) (nth g.tbars n 0)) ∧ ZeroFrom b 0x340 0x400 ∧
    (∀ (i : Nat) (w : Warp), s.warps[i]? = some w → WarpAt b (0x400 + 512 * i) s w) ∧
    ∀ (i : Nat) (f : Fibre), s.fibres[i]? = some f → FibreAt b (fibreOffset i) f) ∧
  ∀ f : Fibre, f.win.length < 2 ^ 64 → let r := f.reload f.record; let aligned (a : BitVec 48) : Prop := a.toNat % 4 = 0
    r.win = f.win ∧ r.predWord = f.predWord ∧ (r.lp0.count, r.lp1.count, r.lp2.count) = (f.lp0.count, f.lp1.count, f.lp2.count) ∧
    (aligned f.pc → r.pc = f.pc) ∧ (aligned f.lp0.start → aligned f.lp0.last → r.lp0 = f.lp0) ∧
    (aligned f.lp1.start → aligned f.lp1.last → r.lp1 = f.lp1) ∧ (aligned f.lp2.start → aligned f.lp2.last → r.lp2 = f.lp2) ∧
    r.trapaddr = f.trapaddr ∧ r.ilenc = f.ilenc ∧ r.ilf1 = f.ilf1 ∧ r.ilf2 = f.ilf2 ∧ r.ilf3 = f.ilf3 ∧ r.rec_ = f.rec_ ∧
    { r with pc := f.pc, pred := f.pred, wait := f.wait, fpctl := f.fpctl, lp0 := f.lp0, lp1 := f.lp1, lp2 := f.lp2, trapcause := f.trapcause
             trappc := f.trappc, ilf0 := f.ilf0, repc := f.repc, mdone := f.mdone } = f
end

