-- ==== Sys2Proof/Laws/State.lean ====
section
/-! SUPPORT. One lemma per field per update of the state: what each update leaves and what it sets. -/

namespace Sys2Proof.Machine

/-! ## setCore -/

@[simp] theorem Dev.setCore_cur (d : Dev) (c : Core) : (d.setCore c).cur = d.cur := rfl
@[simp] theorem Dev.setCore_arg (d : Dev) (c : Core) : (d.setCore c).arg = d.arg := rfl
@[simp] theorem Dev.setCore_oracle (d : Dev) (c : Core) : (d.setCore c).oracle = d.oracle := rfl
@[simp] theorem Dev.setCore_free (d : Dev) (c : Core) : (d.setCore c).free = d.free := rfl
@[simp] theorem Dev.setCore_cycle (d : Dev) (c : Core) : (d.setCore c).cycle = d.cycle := rfl
@[simp] theorem Dev.setCore_pipe (d : Dev) (c : Core) : (d.setCore c).pipe = d.pipe := rfl
@[simp] theorem Dev.setCore_fibres (d : Dev) (c : Core) : (d.setCore c).fibres = d.fibres := rfl
@[simp] theorem Dev.setCore_warps (d : Dev) (c : Core) : (d.setCore c).warps = d.warps := rfl
@[simp] theorem Dev.setCore_groups (d : Dev) (c : Core) : (d.setCore c).groups = d.groups := rfl
@[simp] theorem Dev.setCore_clusters (d : Dev) (c : Core) : (d.setCore c).clusters = d.clusters := rfl
@[simp] theorem Dev.setCore_tlbs (d : Dev) (c : Core) : (d.setCore c).tlbs = d.tlbs := rfl
@[simp] theorem Dev.setCore_ms (d : Dev) (c : Core) : (d.setCore c).ms = d.ms := rfl
@[simp] theorem Dev.setCore_arrivals (d : Dev) (c : Core) : (d.setCore c).arrivals = d.arrivals := rfl
@[simp] theorem Dev.setCore_posts (d : Dev) (c : Core) : (d.setCore c).posts = d.posts := rfl
@[simp] theorem Dev.setCore_handoffs (d : Dev) (c : Core) : (d.setCore c).handoffs = d.handoffs := rfl
@[simp] theorem Dev.setCore_heldWins (d : Dev) (c : Core) : (d.setCore c).heldWins = d.heldWins := rfl
@[simp] theorem Dev.setCore_heldGrants (d : Dev) (c : Core) : (d.setCore c).heldGrants = d.heldGrants := rfl
@[simp] theorem Dev.setCore_saved (d : Dev) (c : Core) : (d.setCore c).saved = d.saved := rfl
@[simp] theorem Dev.setCore_walks (d : Dev) (c : Core) : (d.setCore c).walks = d.walks := rfl
@[simp] theorem Dev.setCore_fabric (d : Dev) (c : Core) : (d.setCore c).fabric = d.fabric := rfl
@[simp] theorem Dev.setCore_nextCopy (d : Dev) (c : Core) : (d.setCore c).nextCopy = d.nextCopy := rfl
@[simp] theorem Dev.setCore_hub (d : Dev) (c : Core) : (d.setCore c).hub = d.hub := rfl

/-! ## updCore -/

@[simp] theorem Dev.updCore_cur (d : Dev) (n : Nat) (f : Core → Core) : (d.updCore n f).cur = d.cur := rfl
@[simp] theorem Dev.updCore_arg (d : Dev) (n : Nat) (f : Core → Core) : (d.updCore n f).arg = d.arg := rfl
@[simp] theorem Dev.updCore_oracle (d : Dev) (n : Nat) (f : Core → Core) : (d.updCore n f).oracle = d.oracle := rfl
@[simp] theorem Dev.updCore_free (d : Dev) (n : Nat) (f : Core → Core) : (d.updCore n f).free = d.free := rfl
@[simp] theorem Dev.updCore_cycle (d : Dev) (n : Nat) (f : Core → Core) : (d.updCore n f).cycle = d.cycle := rfl
@[simp] theorem Dev.updCore_pipe (d : Dev) (n : Nat) (f : Core → Core) : (d.updCore n f).pipe = d.pipe := rfl
@[simp] theorem Dev.updCore_fibres (d : Dev) (n : Nat) (f : Core → Core) : (d.updCore n f).fibres = d.fibres := rfl
@[simp] theorem Dev.updCore_warps (d : Dev) (n : Nat) (f : Core → Core) : (d.updCore n f).warps = d.warps := rfl
@[simp] theorem Dev.updCore_groups (d : Dev) (n : Nat) (f : Core → Core) : (d.updCore n f).groups = d.groups := rfl
@[simp] theorem Dev.updCore_clusters (d : Dev) (n : Nat) (f : Core → Core) : (d.updCore n f).clusters = d.clusters := rfl
@[simp] theorem Dev.updCore_tlbs (d : Dev) (n : Nat) (f : Core → Core) : (d.updCore n f).tlbs = d.tlbs := rfl
@[simp] theorem Dev.updCore_ms (d : Dev) (n : Nat) (f : Core → Core) : (d.updCore n f).ms = d.ms := rfl
@[simp] theorem Dev.updCore_arrivals (d : Dev) (n : Nat) (f : Core → Core) : (d.updCore n f).arrivals = d.arrivals := rfl
@[simp] theorem Dev.updCore_posts (d : Dev) (n : Nat) (f : Core → Core) : (d.updCore n f).posts = d.posts := rfl
@[simp] theorem Dev.updCore_handoffs (d : Dev) (n : Nat) (f : Core → Core) : (d.updCore n f).handoffs = d.handoffs := rfl
@[simp] theorem Dev.updCore_heldWins (d : Dev) (n : Nat) (f : Core → Core) : (d.updCore n f).heldWins = d.heldWins := rfl
@[simp] theorem Dev.updCore_heldGrants (d : Dev) (n : Nat) (f : Core → Core) : (d.updCore n f).heldGrants = d.heldGrants := rfl
@[simp] theorem Dev.updCore_saved (d : Dev) (n : Nat) (f : Core → Core) : (d.updCore n f).saved = d.saved := rfl
@[simp] theorem Dev.updCore_walks (d : Dev) (n : Nat) (f : Core → Core) : (d.updCore n f).walks = d.walks := rfl
@[simp] theorem Dev.updCore_fabric (d : Dev) (n : Nat) (f : Core → Core) : (d.updCore n f).fabric = d.fabric := rfl
@[simp] theorem Dev.updCore_nextCopy (d : Dev) (n : Nat) (f : Core → Core) : (d.updCore n f).nextCopy = d.nextCopy := rfl
@[simp] theorem Dev.updCore_hub (d : Dev) (n : Nat) (f : Core → Core) : (d.updCore n f).hub = d.hub := rfl

/-! ## setCluster -/

@[simp] theorem Dev.setCluster_cur (d : Dev) (c : Cluster) : (d.setCluster c).cur = d.cur := rfl
@[simp] theorem Dev.setCluster_arg (d : Dev) (c : Cluster) : (d.setCluster c).arg = d.arg := rfl
@[simp] theorem Dev.setCluster_oracle (d : Dev) (c : Cluster) : (d.setCluster c).oracle = d.oracle := rfl
@[simp] theorem Dev.setCluster_free (d : Dev) (c : Cluster) : (d.setCluster c).free = d.free := rfl
@[simp] theorem Dev.setCluster_cycle (d : Dev) (c : Cluster) : (d.setCluster c).cycle = d.cycle := rfl
@[simp] theorem Dev.setCluster_pipe (d : Dev) (c : Cluster) : (d.setCluster c).pipe = d.pipe := rfl
@[simp] theorem Dev.setCluster_fibres (d : Dev) (c : Cluster) : (d.setCluster c).fibres = d.fibres := rfl
@[simp] theorem Dev.setCluster_warps (d : Dev) (c : Cluster) : (d.setCluster c).warps = d.warps := rfl
@[simp] theorem Dev.setCluster_groups (d : Dev) (c : Cluster) : (d.setCluster c).groups = d.groups := rfl
@[simp] theorem Dev.setCluster_cores (d : Dev) (c : Cluster) : (d.setCluster c).cores = d.cores := rfl
@[simp] theorem Dev.setCluster_tlbs (d : Dev) (c : Cluster) : (d.setCluster c).tlbs = d.tlbs := rfl
@[simp] theorem Dev.setCluster_ms (d : Dev) (c : Cluster) : (d.setCluster c).ms = d.ms := rfl
@[simp] theorem Dev.setCluster_arrivals (d : Dev) (c : Cluster) : (d.setCluster c).arrivals = d.arrivals := rfl
@[simp] theorem Dev.setCluster_posts (d : Dev) (c : Cluster) : (d.setCluster c).posts = d.posts := rfl
@[simp] theorem Dev.setCluster_handoffs (d : Dev) (c : Cluster) : (d.setCluster c).handoffs = d.handoffs := rfl
@[simp] theorem Dev.setCluster_heldWins (d : Dev) (c : Cluster) : (d.setCluster c).heldWins = d.heldWins := rfl
@[simp] theorem Dev.setCluster_heldGrants (d : Dev) (c : Cluster) : (d.setCluster c).heldGrants = d.heldGrants := rfl
@[simp] theorem Dev.setCluster_saved (d : Dev) (c : Cluster) : (d.setCluster c).saved = d.saved := rfl
@[simp] theorem Dev.setCluster_walks (d : Dev) (c : Cluster) : (d.setCluster c).walks = d.walks := rfl
@[simp] theorem Dev.setCluster_fabric (d : Dev) (c : Cluster) : (d.setCluster c).fabric = d.fabric := rfl
@[simp] theorem Dev.setCluster_nextCopy (d : Dev) (c : Cluster) : (d.setCluster c).nextCopy = d.nextCopy := rfl
@[simp] theorem Dev.setCluster_hub (d : Dev) (c : Cluster) : (d.setCluster c).hub = d.hub := rfl

/-! ## updGroup -/

@[simp] theorem Dev.updGroup_cur (d : Dev) (gid : Nat) (f : Group → Group) : (d.updGroup gid f).cur = d.cur := rfl
@[simp] theorem Dev.updGroup_arg (d : Dev) (gid : Nat) (f : Group → Group) : (d.updGroup gid f).arg = d.arg := rfl
@[simp] theorem Dev.updGroup_oracle (d : Dev) (gid : Nat) (f : Group → Group) : (d.updGroup gid f).oracle = d.oracle := rfl
@[simp] theorem Dev.updGroup_free (d : Dev) (gid : Nat) (f : Group → Group) : (d.updGroup gid f).free = d.free := rfl
@[simp] theorem Dev.updGroup_cycle (d : Dev) (gid : Nat) (f : Group → Group) : (d.updGroup gid f).cycle = d.cycle := rfl
@[simp] theorem Dev.updGroup_pipe (d : Dev) (gid : Nat) (f : Group → Group) : (d.updGroup gid f).pipe = d.pipe := rfl
@[simp] theorem Dev.updGroup_fibres (d : Dev) (gid : Nat) (f : Group → Group) : (d.updGroup gid f).fibres = d.fibres := rfl
@[simp] theorem Dev.updGroup_warps (d : Dev) (gid : Nat) (f : Group → Group) : (d.updGroup gid f).warps = d.warps := rfl
@[simp] theorem Dev.updGroup_groups (d : Dev) (gid : Nat) (f : Group → Group) : (d.updGroup gid f).groups = updWhere (fun g => g.gid == gid) f d.groups := rfl
@[simp] theorem Dev.updGroup_cores (d : Dev) (gid : Nat) (f : Group → Group) : (d.updGroup gid f).cores = d.cores := rfl
@[simp] theorem Dev.updGroup_clusters (d : Dev) (gid : Nat) (f : Group → Group) : (d.updGroup gid f).clusters = d.clusters := rfl
@[simp] theorem Dev.updGroup_tlbs (d : Dev) (gid : Nat) (f : Group → Group) : (d.updGroup gid f).tlbs = d.tlbs := rfl
@[simp] theorem Dev.updGroup_ms (d : Dev) (gid : Nat) (f : Group → Group) : (d.updGroup gid f).ms = d.ms := rfl
@[simp] theorem Dev.updGroup_arrivals (d : Dev) (gid : Nat) (f : Group → Group) : (d.updGroup gid f).arrivals = d.arrivals := rfl
@[simp] theorem Dev.updGroup_posts (d : Dev) (gid : Nat) (f : Group → Group) : (d.updGroup gid f).posts = d.posts := rfl
@[simp] theorem Dev.updGroup_handoffs (d : Dev) (gid : Nat) (f : Group → Group) : (d.updGroup gid f).handoffs = d.handoffs := rfl
@[simp] theorem Dev.updGroup_heldWins (d : Dev) (gid : Nat) (f : Group → Group) : (d.updGroup gid f).heldWins = d.heldWins := rfl
@[simp] theorem Dev.updGroup_heldGrants (d : Dev) (gid : Nat) (f : Group → Group) : (d.updGroup gid f).heldGrants = d.heldGrants := rfl
@[simp] theorem Dev.updGroup_saved (d : Dev) (gid : Nat) (f : Group → Group) : (d.updGroup gid f).saved = d.saved := rfl
@[simp] theorem Dev.updGroup_walks (d : Dev) (gid : Nat) (f : Group → Group) : (d.updGroup gid f).walks = d.walks := rfl
@[simp] theorem Dev.updGroup_fabric (d : Dev) (gid : Nat) (f : Group → Group) : (d.updGroup gid f).fabric = d.fabric := rfl
@[simp] theorem Dev.updGroup_nextCopy (d : Dev) (gid : Nat) (f : Group → Group) : (d.updGroup gid f).nextCopy = d.nextCopy := rfl
@[simp] theorem Dev.updGroup_hub (d : Dev) (gid : Nat) (f : Group → Group) : (d.updGroup gid f).hub = d.hub := rfl

/-! ## updFibres -/

@[simp] theorem Dev.updFibres_cur (d : Dev) (p : Fibre → Bool) (f : Fibre → Fibre) : (d.updFibres p f).cur = d.cur := rfl
@[simp] theorem Dev.updFibres_arg (d : Dev) (p : Fibre → Bool) (f : Fibre → Fibre) : (d.updFibres p f).arg = d.arg := rfl
@[simp] theorem Dev.updFibres_oracle (d : Dev) (p : Fibre → Bool) (f : Fibre → Fibre) : (d.updFibres p f).oracle = d.oracle := rfl
@[simp] theorem Dev.updFibres_free (d : Dev) (p : Fibre → Bool) (f : Fibre → Fibre) : (d.updFibres p f).free = d.free := rfl
@[simp] theorem Dev.updFibres_cycle (d : Dev) (p : Fibre → Bool) (f : Fibre → Fibre) : (d.updFibres p f).cycle = d.cycle := rfl
@[simp] theorem Dev.updFibres_pipe (d : Dev) (p : Fibre → Bool) (f : Fibre → Fibre) : (d.updFibres p f).pipe = d.pipe := rfl
@[simp] theorem Dev.updFibres_fibres (d : Dev) (p : Fibre → Bool) (f : Fibre → Fibre) : (d.updFibres p f).fibres = updWhere p f d.fibres := rfl
@[simp] theorem Dev.updFibres_warps (d : Dev) (p : Fibre → Bool) (f : Fibre → Fibre) : (d.updFibres p f).warps = d.warps := rfl
@[simp] theorem Dev.updFibres_groups (d : Dev) (p : Fibre → Bool) (f : Fibre → Fibre) : (d.updFibres p f).groups = d.groups := rfl
@[simp] theorem Dev.updFibres_cores (d : Dev) (p : Fibre → Bool) (f : Fibre → Fibre) : (d.updFibres p f).cores = d.cores := rfl
@[simp] theorem Dev.updFibres_clusters (d : Dev) (p : Fibre → Bool) (f : Fibre → Fibre) : (d.updFibres p f).clusters = d.clusters := rfl
@[simp] theorem Dev.updFibres_tlbs (d : Dev) (p : Fibre → Bool) (f : Fibre → Fibre) : (d.updFibres p f).tlbs = d.tlbs := rfl
@[simp] theorem Dev.updFibres_ms (d : Dev) (p : Fibre → Bool) (f : Fibre → Fibre) : (d.updFibres p f).ms = d.ms := rfl
@[simp] theorem Dev.updFibres_arrivals (d : Dev) (p : Fibre → Bool) (f : Fibre → Fibre) : (d.updFibres p f).arrivals = d.arrivals := rfl
@[simp] theorem Dev.updFibres_posts (d : Dev) (p : Fibre → Bool) (f : Fibre → Fibre) : (d.updFibres p f).posts = d.posts := rfl
@[simp] theorem Dev.updFibres_handoffs (d : Dev) (p : Fibre → Bool) (f : Fibre → Fibre) : (d.updFibres p f).handoffs = d.handoffs := rfl
@[simp] theorem Dev.updFibres_heldWins (d : Dev) (p : Fibre → Bool) (f : Fibre → Fibre) : (d.updFibres p f).heldWins = d.heldWins := rfl
@[simp] theorem Dev.updFibres_heldGrants (d : Dev) (p : Fibre → Bool) (f : Fibre → Fibre) : (d.updFibres p f).heldGrants = d.heldGrants := rfl
@[simp] theorem Dev.updFibres_saved (d : Dev) (p : Fibre → Bool) (f : Fibre → Fibre) : (d.updFibres p f).saved = d.saved := rfl
@[simp] theorem Dev.updFibres_walks (d : Dev) (p : Fibre → Bool) (f : Fibre → Fibre) : (d.updFibres p f).walks = d.walks := rfl
@[simp] theorem Dev.updFibres_fabric (d : Dev) (p : Fibre → Bool) (f : Fibre → Fibre) : (d.updFibres p f).fabric = d.fabric := rfl
@[simp] theorem Dev.updFibres_nextCopy (d : Dev) (p : Fibre → Bool) (f : Fibre → Fibre) : (d.updFibres p f).nextCopy = d.nextCopy := rfl
@[simp] theorem Dev.updFibres_hub (d : Dev) (p : Fibre → Bool) (f : Fibre → Fibre) : (d.updFibres p f).hub = d.hub := rfl

/-! ## updFibre -/

@[simp] theorem Dev.updFibre_cur (d : Dev) (c n l : Nat) (f : Fibre → Fibre) : (d.updFibre c n l f).cur = d.cur := rfl
@[simp] theorem Dev.updFibre_arg (d : Dev) (c n l : Nat) (f : Fibre → Fibre) : (d.updFibre c n l f).arg = d.arg := rfl
@[simp] theorem Dev.updFibre_oracle (d : Dev) (c n l : Nat) (f : Fibre → Fibre) : (d.updFibre c n l f).oracle = d.oracle := rfl
@[simp] theorem Dev.updFibre_free (d : Dev) (c n l : Nat) (f : Fibre → Fibre) : (d.updFibre c n l f).free = d.free := rfl
@[simp] theorem Dev.updFibre_cycle (d : Dev) (c n l : Nat) (f : Fibre → Fibre) : (d.updFibre c n l f).cycle = d.cycle := rfl
@[simp] theorem Dev.updFibre_pipe (d : Dev) (c n l : Nat) (f : Fibre → Fibre) : (d.updFibre c n l f).pipe = d.pipe := rfl
@[simp] theorem Dev.updFibre_warps (d : Dev) (c n l : Nat) (f : Fibre → Fibre) : (d.updFibre c n l f).warps = d.warps := rfl
@[simp] theorem Dev.updFibre_groups (d : Dev) (c n l : Nat) (f : Fibre → Fibre) : (d.updFibre c n l f).groups = d.groups := rfl
@[simp] theorem Dev.updFibre_cores (d : Dev) (c n l : Nat) (f : Fibre → Fibre) : (d.updFibre c n l f).cores = d.cores := rfl
@[simp] theorem Dev.updFibre_clusters (d : Dev) (c n l : Nat) (f : Fibre → Fibre) : (d.updFibre c n l f).clusters = d.clusters := rfl
@[simp] theorem Dev.updFibre_tlbs (d : Dev) (c n l : Nat) (f : Fibre → Fibre) : (d.updFibre c n l f).tlbs = d.tlbs := rfl
@[simp] theorem Dev.updFibre_ms (d : Dev) (c n l : Nat) (f : Fibre → Fibre) : (d.updFibre c n l f).ms = d.ms := rfl
@[simp] theorem Dev.updFibre_arrivals (d : Dev) (c n l : Nat) (f : Fibre → Fibre) : (d.updFibre c n l f).arrivals = d.arrivals := rfl
@[simp] theorem Dev.updFibre_posts (d : Dev) (c n l : Nat) (f : Fibre → Fibre) : (d.updFibre c n l f).posts = d.posts := rfl
@[simp] theorem Dev.updFibre_handoffs (d : Dev) (c n l : Nat) (f : Fibre → Fibre) : (d.updFibre c n l f).handoffs = d.handoffs := rfl
@[simp] theorem Dev.updFibre_heldWins (d : Dev) (c n l : Nat) (f : Fibre → Fibre) : (d.updFibre c n l f).heldWins = d.heldWins := rfl
@[simp] theorem Dev.updFibre_heldGrants (d : Dev) (c n l : Nat) (f : Fibre → Fibre) : (d.updFibre c n l f).heldGrants = d.heldGrants := rfl
@[simp] theorem Dev.updFibre_saved (d : Dev) (c n l : Nat) (f : Fibre → Fibre) : (d.updFibre c n l f).saved = d.saved := rfl
@[simp] theorem Dev.updFibre_walks (d : Dev) (c n l : Nat) (f : Fibre → Fibre) : (d.updFibre c n l f).walks = d.walks := rfl
@[simp] theorem Dev.updFibre_fabric (d : Dev) (c n l : Nat) (f : Fibre → Fibre) : (d.updFibre c n l f).fabric = d.fabric := rfl
@[simp] theorem Dev.updFibre_nextCopy (d : Dev) (c n l : Nat) (f : Fibre → Fibre) : (d.updFibre c n l f).nextCopy = d.nextCopy := rfl
@[simp] theorem Dev.updFibre_hub (d : Dev) (c n l : Nat) (f : Fibre → Fibre) : (d.updFibre c n l f).hub = d.hub := rfl

/-! ## updActive -/

@[simp] theorem Dev.updActive_cur (d : Dev) (f : Fibre → Fibre) : (d.updActive f).cur = d.cur := rfl
@[simp] theorem Dev.updActive_arg (d : Dev) (f : Fibre → Fibre) : (d.updActive f).arg = d.arg := rfl
@[simp] theorem Dev.updActive_oracle (d : Dev) (f : Fibre → Fibre) : (d.updActive f).oracle = d.oracle := rfl
@[simp] theorem Dev.updActive_free (d : Dev) (f : Fibre → Fibre) : (d.updActive f).free = d.free := rfl
@[simp] theorem Dev.updActive_cycle (d : Dev) (f : Fibre → Fibre) : (d.updActive f).cycle = d.cycle := rfl
@[simp] theorem Dev.updActive_pipe (d : Dev) (f : Fibre → Fibre) : (d.updActive f).pipe = d.pipe := rfl
@[simp] theorem Dev.updActive_fibres (d : Dev) (f : Fibre → Fibre) : (d.updActive f).fibres = updWhere d.cur.has f d.fibres := rfl
@[simp] theorem Dev.updActive_warps (d : Dev) (f : Fibre → Fibre) : (d.updActive f).warps = d.warps := rfl
@[simp] theorem Dev.updActive_groups (d : Dev) (f : Fibre → Fibre) : (d.updActive f).groups = d.groups := rfl
@[simp] theorem Dev.updActive_cores (d : Dev) (f : Fibre → Fibre) : (d.updActive f).cores = d.cores := rfl
@[simp] theorem Dev.updActive_clusters (d : Dev) (f : Fibre → Fibre) : (d.updActive f).clusters = d.clusters := rfl
@[simp] theorem Dev.updActive_tlbs (d : Dev) (f : Fibre → Fibre) : (d.updActive f).tlbs = d.tlbs := rfl
@[simp] theorem Dev.updActive_ms (d : Dev) (f : Fibre → Fibre) : (d.updActive f).ms = d.ms := rfl
@[simp] theorem Dev.updActive_arrivals (d : Dev) (f : Fibre → Fibre) : (d.updActive f).arrivals = d.arrivals := rfl
@[simp] theorem Dev.updActive_posts (d : Dev) (f : Fibre → Fibre) : (d.updActive f).posts = d.posts := rfl
@[simp] theorem Dev.updActive_handoffs (d : Dev) (f : Fibre → Fibre) : (d.updActive f).handoffs = d.handoffs := rfl
@[simp] theorem Dev.updActive_heldWins (d : Dev) (f : Fibre → Fibre) : (d.updActive f).heldWins = d.heldWins := rfl
@[simp] theorem Dev.updActive_heldGrants (d : Dev) (f : Fibre → Fibre) : (d.updActive f).heldGrants = d.heldGrants := rfl
@[simp] theorem Dev.updActive_saved (d : Dev) (f : Fibre → Fibre) : (d.updActive f).saved = d.saved := rfl
@[simp] theorem Dev.updActive_walks (d : Dev) (f : Fibre → Fibre) : (d.updActive f).walks = d.walks := rfl
@[simp] theorem Dev.updActive_fabric (d : Dev) (f : Fibre → Fibre) : (d.updActive f).fabric = d.fabric := rfl
@[simp] theorem Dev.updActive_nextCopy (d : Dev) (f : Fibre → Fibre) : (d.updActive f).nextCopy = d.nextCopy := rfl
@[simp] theorem Dev.updActive_hub (d : Dev) (f : Fibre → Fibre) : (d.updActive f).hub = d.hub := rfl

/-! ## updWarp -/

@[simp] theorem Dev.updWarp_cur (d : Dev) (c n : Nat) (f : Warp → Warp) : (d.updWarp c n f).cur = d.cur := rfl
@[simp] theorem Dev.updWarp_arg (d : Dev) (c n : Nat) (f : Warp → Warp) : (d.updWarp c n f).arg = d.arg := rfl
@[simp] theorem Dev.updWarp_oracle (d : Dev) (c n : Nat) (f : Warp → Warp) : (d.updWarp c n f).oracle = d.oracle := rfl
@[simp] theorem Dev.updWarp_free (d : Dev) (c n : Nat) (f : Warp → Warp) : (d.updWarp c n f).free = d.free := rfl
@[simp] theorem Dev.updWarp_cycle (d : Dev) (c n : Nat) (f : Warp → Warp) : (d.updWarp c n f).cycle = d.cycle := rfl
@[simp] theorem Dev.updWarp_pipe (d : Dev) (c n : Nat) (f : Warp → Warp) : (d.updWarp c n f).pipe = d.pipe := rfl
@[simp] theorem Dev.updWarp_fibres (d : Dev) (c n : Nat) (f : Warp → Warp) : (d.updWarp c n f).fibres = d.fibres := rfl
@[simp] theorem Dev.updWarp_groups (d : Dev) (c n : Nat) (f : Warp → Warp) : (d.updWarp c n f).groups = d.groups := rfl
@[simp] theorem Dev.updWarp_cores (d : Dev) (c n : Nat) (f : Warp → Warp) : (d.updWarp c n f).cores = d.cores := rfl
@[simp] theorem Dev.updWarp_clusters (d : Dev) (c n : Nat) (f : Warp → Warp) : (d.updWarp c n f).clusters = d.clusters := rfl
@[simp] theorem Dev.updWarp_tlbs (d : Dev) (c n : Nat) (f : Warp → Warp) : (d.updWarp c n f).tlbs = d.tlbs := rfl
@[simp] theorem Dev.updWarp_ms (d : Dev) (c n : Nat) (f : Warp → Warp) : (d.updWarp c n f).ms = d.ms := rfl
@[simp] theorem Dev.updWarp_arrivals (d : Dev) (c n : Nat) (f : Warp → Warp) : (d.updWarp c n f).arrivals = d.arrivals := rfl
@[simp] theorem Dev.updWarp_posts (d : Dev) (c n : Nat) (f : Warp → Warp) : (d.updWarp c n f).posts = d.posts := rfl
@[simp] theorem Dev.updWarp_handoffs (d : Dev) (c n : Nat) (f : Warp → Warp) : (d.updWarp c n f).handoffs = d.handoffs := rfl
@[simp] theorem Dev.updWarp_heldWins (d : Dev) (c n : Nat) (f : Warp → Warp) : (d.updWarp c n f).heldWins = d.heldWins := rfl
@[simp] theorem Dev.updWarp_heldGrants (d : Dev) (c n : Nat) (f : Warp → Warp) : (d.updWarp c n f).heldGrants = d.heldGrants := rfl
@[simp] theorem Dev.updWarp_saved (d : Dev) (c n : Nat) (f : Warp → Warp) : (d.updWarp c n f).saved = d.saved := rfl
@[simp] theorem Dev.updWarp_walks (d : Dev) (c n : Nat) (f : Warp → Warp) : (d.updWarp c n f).walks = d.walks := rfl
@[simp] theorem Dev.updWarp_fabric (d : Dev) (c n : Nat) (f : Warp → Warp) : (d.updWarp c n f).fabric = d.fabric := rfl
@[simp] theorem Dev.updWarp_nextCopy (d : Dev) (c n : Nat) (f : Warp → Warp) : (d.updWarp c n f).nextCopy = d.nextCopy := rfl
@[simp] theorem Dev.updWarp_hub (d : Dev) (c n : Nat) (f : Warp → Warp) : (d.updWarp c n f).hub = d.hub := rfl

/-! ## updHub -/

@[simp] theorem Dev.updHub_cur (d : Dev) (f : Hub → Hub) : (d.updHub f).cur = d.cur := rfl
@[simp] theorem Dev.updHub_arg (d : Dev) (f : Hub → Hub) : (d.updHub f).arg = d.arg := rfl
@[simp] theorem Dev.updHub_oracle (d : Dev) (f : Hub → Hub) : (d.updHub f).oracle = d.oracle := rfl
@[simp] theorem Dev.updHub_free (d : Dev) (f : Hub → Hub) : (d.updHub f).free = d.free := rfl
@[simp] theorem Dev.updHub_cycle (d : Dev) (f : Hub → Hub) : (d.updHub f).cycle = d.cycle := rfl
@[simp] theorem Dev.updHub_pipe (d : Dev) (f : Hub → Hub) : (d.updHub f).pipe = d.pipe := rfl
@[simp] theorem Dev.updHub_fibres (d : Dev) (f : Hub → Hub) : (d.updHub f).fibres = d.fibres := rfl
@[simp] theorem Dev.updHub_warps (d : Dev) (f : Hub → Hub) : (d.updHub f).warps = d.warps := rfl
@[simp] theorem Dev.updHub_groups (d : Dev) (f : Hub → Hub) : (d.updHub f).groups = d.groups := rfl
@[simp] theorem Dev.updHub_cores (d : Dev) (f : Hub → Hub) : (d.updHub f).cores = d.cores := rfl
@[simp] theorem Dev.updHub_clusters (d : Dev) (f : Hub → Hub) : (d.updHub f).clusters = d.clusters := rfl
@[simp] theorem Dev.updHub_tlbs (d : Dev) (f : Hub → Hub) : (d.updHub f).tlbs = d.tlbs := rfl
@[simp] theorem Dev.updHub_ms (d : Dev) (f : Hub → Hub) : (d.updHub f).ms = d.ms := rfl
@[simp] theorem Dev.updHub_arrivals (d : Dev) (f : Hub → Hub) : (d.updHub f).arrivals = d.arrivals := rfl
@[simp] theorem Dev.updHub_posts (d : Dev) (f : Hub → Hub) : (d.updHub f).posts = d.posts := rfl
@[simp] theorem Dev.updHub_handoffs (d : Dev) (f : Hub → Hub) : (d.updHub f).handoffs = d.handoffs := rfl
@[simp] theorem Dev.updHub_heldWins (d : Dev) (f : Hub → Hub) : (d.updHub f).heldWins = d.heldWins := rfl
@[simp] theorem Dev.updHub_heldGrants (d : Dev) (f : Hub → Hub) : (d.updHub f).heldGrants = d.heldGrants := rfl
@[simp] theorem Dev.updHub_saved (d : Dev) (f : Hub → Hub) : (d.updHub f).saved = d.saved := rfl
@[simp] theorem Dev.updHub_walks (d : Dev) (f : Hub → Hub) : (d.updHub f).walks = d.walks := rfl
@[simp] theorem Dev.updHub_fabric (d : Dev) (f : Hub → Hub) : (d.updHub f).fabric = d.fabric := rfl
@[simp] theorem Dev.updHub_nextCopy (d : Dev) (f : Hub → Hub) : (d.updHub f).nextCopy = d.nextCopy := rfl
@[simp] theorem Dev.updHub_hub (d : Dev) (f : Hub → Hub) : (d.updHub f).hub = f d.hub := rfl

/-! ## updMs -/

@[simp] theorem Dev.updMs_cur (d : Dev) (f : MemSys → MemSys) : (d.updMs f).cur = d.cur := rfl
@[simp] theorem Dev.updMs_arg (d : Dev) (f : MemSys → MemSys) : (d.updMs f).arg = d.arg := rfl
@[simp] theorem Dev.updMs_oracle (d : Dev) (f : MemSys → MemSys) : (d.updMs f).oracle = d.oracle := rfl
@[simp] theorem Dev.updMs_free (d : Dev) (f : MemSys → MemSys) : (d.updMs f).free = d.free := rfl
@[simp] theorem Dev.updMs_cycle (d : Dev) (f : MemSys → MemSys) : (d.updMs f).cycle = d.cycle := rfl
@[simp] theorem Dev.updMs_pipe (d : Dev) (f : MemSys → MemSys) : (d.updMs f).pipe = d.pipe := rfl
@[simp] theorem Dev.updMs_fibres (d : Dev) (f : MemSys → MemSys) : (d.updMs f).fibres = d.fibres := rfl
@[simp] theorem Dev.updMs_warps (d : Dev) (f : MemSys → MemSys) : (d.updMs f).warps = d.warps := rfl
@[simp] theorem Dev.updMs_groups (d : Dev) (f : MemSys → MemSys) : (d.updMs f).groups = d.groups := rfl
@[simp] theorem Dev.updMs_cores (d : Dev) (f : MemSys → MemSys) : (d.updMs f).cores = d.cores := rfl
@[simp] theorem Dev.updMs_clusters (d : Dev) (f : MemSys → MemSys) : (d.updMs f).clusters = d.clusters := rfl
@[simp] theorem Dev.updMs_tlbs (d : Dev) (f : MemSys → MemSys) : (d.updMs f).tlbs = d.tlbs := rfl
@[simp] theorem Dev.updMs_ms (d : Dev) (f : MemSys → MemSys) : (d.updMs f).ms = f d.ms := rfl
@[simp] theorem Dev.updMs_arrivals (d : Dev) (f : MemSys → MemSys) : (d.updMs f).arrivals = d.arrivals := rfl
@[simp] theorem Dev.updMs_posts (d : Dev) (f : MemSys → MemSys) : (d.updMs f).posts = d.posts := rfl
@[simp] theorem Dev.updMs_handoffs (d : Dev) (f : MemSys → MemSys) : (d.updMs f).handoffs = d.handoffs := rfl
@[simp] theorem Dev.updMs_heldWins (d : Dev) (f : MemSys → MemSys) : (d.updMs f).heldWins = d.heldWins := rfl
@[simp] theorem Dev.updMs_heldGrants (d : Dev) (f : MemSys → MemSys) : (d.updMs f).heldGrants = d.heldGrants := rfl
@[simp] theorem Dev.updMs_saved (d : Dev) (f : MemSys → MemSys) : (d.updMs f).saved = d.saved := rfl
@[simp] theorem Dev.updMs_walks (d : Dev) (f : MemSys → MemSys) : (d.updMs f).walks = d.walks := rfl
@[simp] theorem Dev.updMs_fabric (d : Dev) (f : MemSys → MemSys) : (d.updMs f).fabric = d.fabric := rfl
@[simp] theorem Dev.updMs_nextCopy (d : Dev) (f : MemSys → MemSys) : (d.updMs f).nextCopy = d.nextCopy := rfl
@[simp] theorem Dev.updMs_hub (d : Dev) (f : MemSys → MemSys) : (d.updMs f).hub = d.hub := rfl

/-! ## hold -/

@[simp] theorem Dev.hold_cur (d : Dev) : (d.hold).cur = d.cur := rfl
@[simp] theorem Dev.hold_arg (d : Dev) : (d.hold).arg = d.arg := rfl
@[simp] theorem Dev.hold_oracle (d : Dev) : (d.hold).oracle = d.oracle := rfl
@[simp] theorem Dev.hold_free (d : Dev) : (d.hold).free = d.free := rfl
@[simp] theorem Dev.hold_cycle (d : Dev) : (d.hold).cycle = d.cycle := rfl
@[simp] theorem Dev.hold_warps (d : Dev) : (d.hold).warps = d.warps := rfl
@[simp] theorem Dev.hold_groups (d : Dev) : (d.hold).groups = d.groups := rfl
@[simp] theorem Dev.hold_cores (d : Dev) : (d.hold).cores = d.cores := rfl
@[simp] theorem Dev.hold_clusters (d : Dev) : (d.hold).clusters = d.clusters := rfl
@[simp] theorem Dev.hold_tlbs (d : Dev) : (d.hold).tlbs = d.tlbs := rfl
@[simp] theorem Dev.hold_ms (d : Dev) : (d.hold).ms = d.ms := rfl
@[simp] theorem Dev.hold_arrivals (d : Dev) : (d.hold).arrivals = d.arrivals := rfl
@[simp] theorem Dev.hold_posts (d : Dev) : (d.hold).posts = d.posts := rfl
@[simp] theorem Dev.hold_handoffs (d : Dev) : (d.hold).handoffs = d.handoffs := rfl
@[simp] theorem Dev.hold_heldWins (d : Dev) : (d.hold).heldWins = d.heldWins := rfl
@[simp] theorem Dev.hold_heldGrants (d : Dev) : (d.hold).heldGrants = d.heldGrants := rfl
@[simp] theorem Dev.hold_saved (d : Dev) : (d.hold).saved = d.saved := rfl
@[simp] theorem Dev.hold_walks (d : Dev) : (d.hold).walks = d.walks := rfl
@[simp] theorem Dev.hold_fabric (d : Dev) : (d.hold).fabric = d.fabric := rfl
@[simp] theorem Dev.hold_nextCopy (d : Dev) : (d.hold).nextCopy = d.nextCopy := rfl
@[simp] theorem Dev.hold_hub (d : Dev) : (d.hold).hub = d.hub := rfl

/-! ## narrow -/

@[simp] theorem Dev.narrow_arg (d : Dev) (p : Fibre → Bool) : (d.narrow p).arg = d.arg := rfl
@[simp] theorem Dev.narrow_oracle (d : Dev) (p : Fibre → Bool) : (d.narrow p).oracle = d.oracle := rfl
@[simp] theorem Dev.narrow_free (d : Dev) (p : Fibre → Bool) : (d.narrow p).free = d.free := rfl
@[simp] theorem Dev.narrow_cycle (d : Dev) (p : Fibre → Bool) : (d.narrow p).cycle = d.cycle := rfl
@[simp] theorem Dev.narrow_pipe (d : Dev) (p : Fibre → Bool) : (d.narrow p).pipe = d.pipe := rfl
@[simp] theorem Dev.narrow_fibres (d : Dev) (p : Fibre → Bool) : (d.narrow p).fibres = d.fibres := rfl
@[simp] theorem Dev.narrow_warps (d : Dev) (p : Fibre → Bool) : (d.narrow p).warps = d.warps := rfl
@[simp] theorem Dev.narrow_groups (d : Dev) (p : Fibre → Bool) : (d.narrow p).groups = d.groups := rfl
@[simp] theorem Dev.narrow_cores (d : Dev) (p : Fibre → Bool) : (d.narrow p).cores = d.cores := rfl
@[simp] theorem Dev.narrow_clusters (d : Dev) (p : Fibre → Bool) : (d.narrow p).clusters = d.clusters := rfl
@[simp] theorem Dev.narrow_tlbs (d : Dev) (p : Fibre → Bool) : (d.narrow p).tlbs = d.tlbs := rfl
@[simp] theorem Dev.narrow_ms (d : Dev) (p : Fibre → Bool) : (d.narrow p).ms = d.ms := rfl
@[simp] theorem Dev.narrow_arrivals (d : Dev) (p : Fibre → Bool) : (d.narrow p).arrivals = d.arrivals := rfl
@[simp] theorem Dev.narrow_posts (d : Dev) (p : Fibre → Bool) : (d.narrow p).posts = d.posts := rfl
@[simp] theorem Dev.narrow_handoffs (d : Dev) (p : Fibre → Bool) : (d.narrow p).handoffs = d.handoffs := rfl
@[simp] theorem Dev.narrow_heldWins (d : Dev) (p : Fibre → Bool) : (d.narrow p).heldWins = d.heldWins := rfl
@[simp] theorem Dev.narrow_heldGrants (d : Dev) (p : Fibre → Bool) : (d.narrow p).heldGrants = d.heldGrants := rfl
@[simp] theorem Dev.narrow_saved (d : Dev) (p : Fibre → Bool) : (d.narrow p).saved = d.saved := rfl
@[simp] theorem Dev.narrow_walks (d : Dev) (p : Fibre → Bool) : (d.narrow p).walks = d.walks := rfl
@[simp] theorem Dev.narrow_fabric (d : Dev) (p : Fibre → Bool) : (d.narrow p).fabric = d.fabric := rfl
@[simp] theorem Dev.narrow_nextCopy (d : Dev) (p : Fibre → Bool) : (d.narrow p).nextCopy = d.nextCopy := rfl
@[simp] theorem Dev.narrow_hub (d : Dev) (p : Fibre → Bool) : (d.narrow p).hub = d.hub := rfl

/-! ## advance -/

@[simp] theorem Dev.advance_cur (d : Dev) (b : BitVec 2) (l : Bool) : (d.advance b l).cur = d.cur := rfl
@[simp] theorem Dev.advance_arg (d : Dev) (b : BitVec 2) (l : Bool) : (d.advance b l).arg = d.arg := rfl
@[simp] theorem Dev.advance_oracle (d : Dev) (b : BitVec 2) (l : Bool) : (d.advance b l).oracle = d.oracle := rfl
@[simp] theorem Dev.advance_cycle (d : Dev) (b : BitVec 2) (l : Bool) : (d.advance b l).cycle = d.cycle := rfl
@[simp] theorem Dev.advance_pipe (d : Dev) (b : BitVec 2) (l : Bool) : (d.advance b l).pipe = d.pipe := rfl
@[simp] theorem Dev.advance_warps (d : Dev) (b : BitVec 2) (l : Bool) : (d.advance b l).warps = d.warps := rfl
@[simp] theorem Dev.advance_groups (d : Dev) (b : BitVec 2) (l : Bool) : (d.advance b l).groups = d.groups := rfl
@[simp] theorem Dev.advance_cores (d : Dev) (b : BitVec 2) (l : Bool) : (d.advance b l).cores = d.cores := rfl
@[simp] theorem Dev.advance_clusters (d : Dev) (b : BitVec 2) (l : Bool) : (d.advance b l).clusters = d.clusters := rfl
@[simp] theorem Dev.advance_tlbs (d : Dev) (b : BitVec 2) (l : Bool) : (d.advance b l).tlbs = d.tlbs := rfl
@[simp] theorem Dev.advance_ms (d : Dev) (b : BitVec 2) (l : Bool) : (d.advance b l).ms = d.ms := rfl
@[simp] theorem Dev.advance_arrivals (d : Dev) (b : BitVec 2) (l : Bool) : (d.advance b l).arrivals = d.arrivals := rfl
@[simp] theorem Dev.advance_posts (d : Dev) (b : BitVec 2) (l : Bool) : (d.advance b l).posts = d.posts := rfl
@[simp] theorem Dev.advance_handoffs (d : Dev) (b : BitVec 2) (l : Bool) : (d.advance b l).handoffs = d.handoffs := rfl
@[simp] theorem Dev.advance_heldWins (d : Dev) (b : BitVec 2) (l : Bool) : (d.advance b l).heldWins = d.heldWins := rfl
@[simp] theorem Dev.advance_heldGrants (d : Dev) (b : BitVec 2) (l : Bool) : (d.advance b l).heldGrants = d.heldGrants := rfl
@[simp] theorem Dev.advance_saved (d : Dev) (b : BitVec 2) (l : Bool) : (d.advance b l).saved = d.saved := rfl
@[simp] theorem Dev.advance_walks (d : Dev) (b : BitVec 2) (l : Bool) : (d.advance b l).walks = d.walks := rfl
@[simp] theorem Dev.advance_fabric (d : Dev) (b : BitVec 2) (l : Bool) : (d.advance b l).fabric = d.fabric := rfl
@[simp] theorem Dev.advance_nextCopy (d : Dev) (b : BitVec 2) (l : Bool) : (d.advance b l).nextCopy = d.nextCopy := rfl
@[simp] theorem Dev.advance_hub (d : Dev) (b : BitVec 2) (l : Bool) : (d.advance b l).hub = d.hub := rfl

/-! ## advLane -/

@[simp] theorem Dev.advLane_cur (d : Dev) (b : BitVec 2) : (d.advLane b).cur = d.cur := rfl
@[simp] theorem Dev.advLane_arg (d : Dev) (b : BitVec 2) : (d.advLane b).arg = d.arg := rfl
@[simp] theorem Dev.advLane_oracle (d : Dev) (b : BitVec 2) : (d.advLane b).oracle = d.oracle := rfl
@[simp] theorem Dev.advLane_cycle (d : Dev) (b : BitVec 2) : (d.advLane b).cycle = d.cycle := rfl
@[simp] theorem Dev.advLane_pipe (d : Dev) (b : BitVec 2) : (d.advLane b).pipe = d.pipe := rfl
@[simp] theorem Dev.advLane_warps (d : Dev) (b : BitVec 2) : (d.advLane b).warps = d.warps := rfl
@[simp] theorem Dev.advLane_groups (d : Dev) (b : BitVec 2) : (d.advLane b).groups = d.groups := rfl
@[simp] theorem Dev.advLane_cores (d : Dev) (b : BitVec 2) : (d.advLane b).cores = d.cores := rfl
@[simp] theorem Dev.advLane_clusters (d : Dev) (b : BitVec 2) : (d.advLane b).clusters = d.clusters := rfl
@[simp] theorem Dev.advLane_tlbs (d : Dev) (b : BitVec 2) : (d.advLane b).tlbs = d.tlbs := rfl
@[simp] theorem Dev.advLane_ms (d : Dev) (b : BitVec 2) : (d.advLane b).ms = d.ms := rfl
@[simp] theorem Dev.advLane_arrivals (d : Dev) (b : BitVec 2) : (d.advLane b).arrivals = d.arrivals := rfl
@[simp] theorem Dev.advLane_posts (d : Dev) (b : BitVec 2) : (d.advLane b).posts = d.posts := rfl
@[simp] theorem Dev.advLane_handoffs (d : Dev) (b : BitVec 2) : (d.advLane b).handoffs = d.handoffs := rfl
@[simp] theorem Dev.advLane_heldWins (d : Dev) (b : BitVec 2) : (d.advLane b).heldWins = d.heldWins := rfl
@[simp] theorem Dev.advLane_heldGrants (d : Dev) (b : BitVec 2) : (d.advLane b).heldGrants = d.heldGrants := rfl
@[simp] theorem Dev.advLane_saved (d : Dev) (b : BitVec 2) : (d.advLane b).saved = d.saved := rfl
@[simp] theorem Dev.advLane_walks (d : Dev) (b : BitVec 2) : (d.advLane b).walks = d.walks := rfl
@[simp] theorem Dev.advLane_fabric (d : Dev) (b : BitVec 2) : (d.advLane b).fabric = d.fabric := rfl
@[simp] theorem Dev.advLane_nextCopy (d : Dev) (b : BitVec 2) : (d.advLane b).nextCopy = d.nextCopy := rfl
@[simp] theorem Dev.advLane_hub (d : Dev) (b : BitVec 2) : (d.advLane b).hub = d.hub := rfl

/-! ## advUni -/

@[simp] theorem Dev.advUni_cur (d : Dev) (b : BitVec 2) : (d.advUni b).cur = d.cur := rfl
@[simp] theorem Dev.advUni_arg (d : Dev) (b : BitVec 2) : (d.advUni b).arg = d.arg := rfl
@[simp] theorem Dev.advUni_oracle (d : Dev) (b : BitVec 2) : (d.advUni b).oracle = d.oracle := rfl
@[simp] theorem Dev.advUni_cycle (d : Dev) (b : BitVec 2) : (d.advUni b).cycle = d.cycle := rfl
@[simp] theorem Dev.advUni_pipe (d : Dev) (b : BitVec 2) : (d.advUni b).pipe = d.pipe := rfl
@[simp] theorem Dev.advUni_warps (d : Dev) (b : BitVec 2) : (d.advUni b).warps = d.warps := rfl
@[simp] theorem Dev.advUni_groups (d : Dev) (b : BitVec 2) : (d.advUni b).groups = d.groups := rfl
@[simp] theorem Dev.advUni_cores (d : Dev) (b : BitVec 2) : (d.advUni b).cores = d.cores := rfl
@[simp] theorem Dev.advUni_clusters (d : Dev) (b : BitVec 2) : (d.advUni b).clusters = d.clusters := rfl
@[simp] theorem Dev.advUni_tlbs (d : Dev) (b : BitVec 2) : (d.advUni b).tlbs = d.tlbs := rfl
@[simp] theorem Dev.advUni_ms (d : Dev) (b : BitVec 2) : (d.advUni b).ms = d.ms := rfl
@[simp] theorem Dev.advUni_arrivals (d : Dev) (b : BitVec 2) : (d.advUni b).arrivals = d.arrivals := rfl
@[simp] theorem Dev.advUni_posts (d : Dev) (b : BitVec 2) : (d.advUni b).posts = d.posts := rfl
@[simp] theorem Dev.advUni_handoffs (d : Dev) (b : BitVec 2) : (d.advUni b).handoffs = d.handoffs := rfl
@[simp] theorem Dev.advUni_heldWins (d : Dev) (b : BitVec 2) : (d.advUni b).heldWins = d.heldWins := rfl
@[simp] theorem Dev.advUni_heldGrants (d : Dev) (b : BitVec 2) : (d.advUni b).heldGrants = d.heldGrants := rfl
@[simp] theorem Dev.advUni_saved (d : Dev) (b : BitVec 2) : (d.advUni b).saved = d.saved := rfl
@[simp] theorem Dev.advUni_walks (d : Dev) (b : BitVec 2) : (d.advUni b).walks = d.walks := rfl
@[simp] theorem Dev.advUni_fabric (d : Dev) (b : BitVec 2) : (d.advUni b).fabric = d.fabric := rfl
@[simp] theorem Dev.advUni_nextCopy (d : Dev) (b : BitVec 2) : (d.advUni b).nextCopy = d.nextCopy := rfl
@[simp] theorem Dev.advUni_hub (d : Dev) (b : BitVec 2) : (d.advUni b).hub = d.hub := rfl

/-! ## advClose -/

@[simp] theorem Dev.advClose_cur (d : Dev) (b : BitVec 2) : (d.advClose b).cur = d.cur := rfl
@[simp] theorem Dev.advClose_arg (d : Dev) (b : BitVec 2) : (d.advClose b).arg = d.arg := rfl
@[simp] theorem Dev.advClose_oracle (d : Dev) (b : BitVec 2) : (d.advClose b).oracle = d.oracle := rfl
@[simp] theorem Dev.advClose_cycle (d : Dev) (b : BitVec 2) : (d.advClose b).cycle = d.cycle := rfl
@[simp] theorem Dev.advClose_pipe (d : Dev) (b : BitVec 2) : (d.advClose b).pipe = d.pipe := rfl
@[simp] theorem Dev.advClose_warps (d : Dev) (b : BitVec 2) : (d.advClose b).warps = d.warps := rfl
@[simp] theorem Dev.advClose_groups (d : Dev) (b : BitVec 2) : (d.advClose b).groups = d.groups := rfl
@[simp] theorem Dev.advClose_cores (d : Dev) (b : BitVec 2) : (d.advClose b).cores = d.cores := rfl
@[simp] theorem Dev.advClose_clusters (d : Dev) (b : BitVec 2) : (d.advClose b).clusters = d.clusters := rfl
@[simp] theorem Dev.advClose_tlbs (d : Dev) (b : BitVec 2) : (d.advClose b).tlbs = d.tlbs := rfl
@[simp] theorem Dev.advClose_ms (d : Dev) (b : BitVec 2) : (d.advClose b).ms = d.ms := rfl
@[simp] theorem Dev.advClose_arrivals (d : Dev) (b : BitVec 2) : (d.advClose b).arrivals = d.arrivals := rfl
@[simp] theorem Dev.advClose_posts (d : Dev) (b : BitVec 2) : (d.advClose b).posts = d.posts := rfl
@[simp] theorem Dev.advClose_handoffs (d : Dev) (b : BitVec 2) : (d.advClose b).handoffs = d.handoffs := rfl
@[simp] theorem Dev.advClose_heldWins (d : Dev) (b : BitVec 2) : (d.advClose b).heldWins = d.heldWins := rfl
@[simp] theorem Dev.advClose_heldGrants (d : Dev) (b : BitVec 2) : (d.advClose b).heldGrants = d.heldGrants := rfl
@[simp] theorem Dev.advClose_saved (d : Dev) (b : BitVec 2) : (d.advClose b).saved = d.saved := rfl
@[simp] theorem Dev.advClose_walks (d : Dev) (b : BitVec 2) : (d.advClose b).walks = d.walks := rfl
@[simp] theorem Dev.advClose_fabric (d : Dev) (b : BitVec 2) : (d.advClose b).fabric = d.fabric := rfl
@[simp] theorem Dev.advClose_nextCopy (d : Dev) (b : BitVec 2) : (d.advClose b).nextCopy = d.nextCopy := rfl
@[simp] theorem Dev.advClose_hub (d : Dev) (b : BitVec 2) : (d.advClose b).hub = d.hub := rfl

/-! ## transfer -/

@[simp] theorem Dev.transfer_cur (d : Dev) (b : BitVec 2) (l : Bool) (t : Fibre → Option Addr48) : (d.transfer b l t).cur = d.cur := rfl
@[simp] theorem Dev.transfer_arg (d : Dev) (b : BitVec 2) (l : Bool) (t : Fibre → Option Addr48) : (d.transfer b l t).arg = d.arg := rfl
@[simp] theorem Dev.transfer_oracle (d : Dev) (b : BitVec 2) (l : Bool) (t : Fibre → Option Addr48) : (d.transfer b l t).oracle = d.oracle := rfl
@[simp] theorem Dev.transfer_cycle (d : Dev) (b : BitVec 2) (l : Bool) (t : Fibre → Option Addr48) : (d.transfer b l t).cycle = d.cycle := rfl
@[simp] theorem Dev.transfer_pipe (d : Dev) (b : BitVec 2) (l : Bool) (t : Fibre → Option Addr48) : (d.transfer b l t).pipe = d.pipe := rfl
@[simp] theorem Dev.transfer_warps (d : Dev) (b : BitVec 2) (l : Bool) (t : Fibre → Option Addr48) : (d.transfer b l t).warps = d.warps := rfl
@[simp] theorem Dev.transfer_groups (d : Dev) (b : BitVec 2) (l : Bool) (t : Fibre → Option Addr48) : (d.transfer b l t).groups = d.groups := rfl
@[simp] theorem Dev.transfer_cores (d : Dev) (b : BitVec 2) (l : Bool) (t : Fibre → Option Addr48) : (d.transfer b l t).cores = d.cores := rfl
@[simp] theorem Dev.transfer_clusters (d : Dev) (b : BitVec 2) (l : Bool) (t : Fibre → Option Addr48) : (d.transfer b l t).clusters = d.clusters := rfl
@[simp] theorem Dev.transfer_tlbs (d : Dev) (b : BitVec 2) (l : Bool) (t : Fibre → Option Addr48) : (d.transfer b l t).tlbs = d.tlbs := rfl
@[simp] theorem Dev.transfer_ms (d : Dev) (b : BitVec 2) (l : Bool) (t : Fibre → Option Addr48) : (d.transfer b l t).ms = d.ms := rfl
@[simp] theorem Dev.transfer_arrivals (d : Dev) (b : BitVec 2) (l : Bool) (t : Fibre → Option Addr48) : (d.transfer b l t).arrivals = d.arrivals := rfl
@[simp] theorem Dev.transfer_posts (d : Dev) (b : BitVec 2) (l : Bool) (t : Fibre → Option Addr48) : (d.transfer b l t).posts = d.posts := rfl
@[simp] theorem Dev.transfer_handoffs (d : Dev) (b : BitVec 2) (l : Bool) (t : Fibre → Option Addr48) : (d.transfer b l t).handoffs = d.handoffs := rfl
@[simp] theorem Dev.transfer_heldWins (d : Dev) (b : BitVec 2) (l : Bool) (t : Fibre → Option Addr48) : (d.transfer b l t).heldWins = d.heldWins := rfl
@[simp] theorem Dev.transfer_heldGrants (d : Dev) (b : BitVec 2) (l : Bool) (t : Fibre → Option Addr48) : (d.transfer b l t).heldGrants = d.heldGrants := rfl
@[simp] theorem Dev.transfer_saved (d : Dev) (b : BitVec 2) (l : Bool) (t : Fibre → Option Addr48) : (d.transfer b l t).saved = d.saved := rfl
@[simp] theorem Dev.transfer_walks (d : Dev) (b : BitVec 2) (l : Bool) (t : Fibre → Option Addr48) : (d.transfer b l t).walks = d.walks := rfl
@[simp] theorem Dev.transfer_fabric (d : Dev) (b : BitVec 2) (l : Bool) (t : Fibre → Option Addr48) : (d.transfer b l t).fabric = d.fabric := rfl
@[simp] theorem Dev.transfer_nextCopy (d : Dev) (b : BitVec 2) (l : Bool) (t : Fibre → Option Addr48) : (d.transfer b l t).nextCopy = d.nextCopy := rfl
@[simp] theorem Dev.transfer_hub (d : Dev) (b : BitVec 2) (l : Bool) (t : Fibre → Option Addr48) : (d.transfer b l t).hub = d.hub := rfl

/-! ## countActive -/

@[simp] theorem Dev.countActive_cur (d : Dev) (b : BitVec 2) (l : Bool) : (d.countActive b l).cur = d.cur := rfl
@[simp] theorem Dev.countActive_arg (d : Dev) (b : BitVec 2) (l : Bool) : (d.countActive b l).arg = d.arg := rfl
@[simp] theorem Dev.countActive_oracle (d : Dev) (b : BitVec 2) (l : Bool) : (d.countActive b l).oracle = d.oracle := rfl
@[simp] theorem Dev.countActive_free (d : Dev) (b : BitVec 2) (l : Bool) : (d.countActive b l).free = d.free := rfl
@[simp] theorem Dev.countActive_cycle (d : Dev) (b : BitVec 2) (l : Bool) : (d.countActive b l).cycle = d.cycle := rfl
@[simp] theorem Dev.countActive_pipe (d : Dev) (b : BitVec 2) (l : Bool) : (d.countActive b l).pipe = d.pipe := rfl
@[simp] theorem Dev.countActive_warps (d : Dev) (b : BitVec 2) (l : Bool) : (d.countActive b l).warps = d.warps := rfl
@[simp] theorem Dev.countActive_groups (d : Dev) (b : BitVec 2) (l : Bool) : (d.countActive b l).groups = d.groups := rfl
@[simp] theorem Dev.countActive_cores (d : Dev) (b : BitVec 2) (l : Bool) : (d.countActive b l).cores = d.cores := rfl
@[simp] theorem Dev.countActive_clusters (d : Dev) (b : BitVec 2) (l : Bool) : (d.countActive b l).clusters = d.clusters := rfl
@[simp] theorem Dev.countActive_tlbs (d : Dev) (b : BitVec 2) (l : Bool) : (d.countActive b l).tlbs = d.tlbs := rfl
@[simp] theorem Dev.countActive_ms (d : Dev) (b : BitVec 2) (l : Bool) : (d.countActive b l).ms = d.ms := rfl
@[simp] theorem Dev.countActive_arrivals (d : Dev) (b : BitVec 2) (l : Bool) : (d.countActive b l).arrivals = d.arrivals := rfl
@[simp] theorem Dev.countActive_posts (d : Dev) (b : BitVec 2) (l : Bool) : (d.countActive b l).posts = d.posts := rfl
@[simp] theorem Dev.countActive_handoffs (d : Dev) (b : BitVec 2) (l : Bool) : (d.countActive b l).handoffs = d.handoffs := rfl
@[simp] theorem Dev.countActive_heldWins (d : Dev) (b : BitVec 2) (l : Bool) : (d.countActive b l).heldWins = d.heldWins := rfl
@[simp] theorem Dev.countActive_heldGrants (d : Dev) (b : BitVec 2) (l : Bool) : (d.countActive b l).heldGrants = d.heldGrants := rfl
@[simp] theorem Dev.countActive_saved (d : Dev) (b : BitVec 2) (l : Bool) : (d.countActive b l).saved = d.saved := rfl
@[simp] theorem Dev.countActive_walks (d : Dev) (b : BitVec 2) (l : Bool) : (d.countActive b l).walks = d.walks := rfl
@[simp] theorem Dev.countActive_fabric (d : Dev) (b : BitVec 2) (l : Bool) : (d.countActive b l).fabric = d.fabric := rfl
@[simp] theorem Dev.countActive_nextCopy (d : Dev) (b : BitVec 2) (l : Bool) : (d.countActive b l).nextCopy = d.nextCopy := rfl
@[simp] theorem Dev.countActive_hub (d : Dev) (b : BitVec 2) (l : Bool) : (d.countActive b l).hub = d.hub := rfl

/-! ## unissue -/

@[simp] theorem Dev.unissue_cur (d : Dev) : (d.unissue).cur = d.cur := rfl
@[simp] theorem Dev.unissue_arg (d : Dev) : (d.unissue).arg = d.arg := rfl
@[simp] theorem Dev.unissue_oracle (d : Dev) : (d.unissue).oracle = d.oracle := rfl
@[simp] theorem Dev.unissue_free (d : Dev) : (d.unissue).free = d.free := rfl
@[simp] theorem Dev.unissue_cycle (d : Dev) : (d.unissue).cycle = d.cycle := rfl
@[simp] theorem Dev.unissue_warps (d : Dev) : (d.unissue).warps = d.warps := rfl
@[simp] theorem Dev.unissue_groups (d : Dev) : (d.unissue).groups = d.groups := rfl
@[simp] theorem Dev.unissue_cores (d : Dev) : (d.unissue).cores = d.cores := rfl
@[simp] theorem Dev.unissue_clusters (d : Dev) : (d.unissue).clusters = d.clusters := rfl
@[simp] theorem Dev.unissue_tlbs (d : Dev) : (d.unissue).tlbs = d.tlbs := rfl
@[simp] theorem Dev.unissue_ms (d : Dev) : (d.unissue).ms = d.ms := rfl
@[simp] theorem Dev.unissue_arrivals (d : Dev) : (d.unissue).arrivals = d.arrivals := rfl
@[simp] theorem Dev.unissue_posts (d : Dev) : (d.unissue).posts = d.posts := rfl
@[simp] theorem Dev.unissue_handoffs (d : Dev) : (d.unissue).handoffs = d.handoffs := rfl
@[simp] theorem Dev.unissue_heldWins (d : Dev) : (d.unissue).heldWins = d.heldWins := rfl
@[simp] theorem Dev.unissue_heldGrants (d : Dev) : (d.unissue).heldGrants = d.heldGrants := rfl
@[simp] theorem Dev.unissue_saved (d : Dev) : (d.unissue).saved = d.saved := rfl
@[simp] theorem Dev.unissue_walks (d : Dev) : (d.unissue).walks = d.walks := rfl
@[simp] theorem Dev.unissue_fabric (d : Dev) : (d.unissue).fabric = d.fabric := rfl
@[simp] theorem Dev.unissue_nextCopy (d : Dev) : (d.unissue).nextCopy = d.nextCopy := rfl
@[simp] theorem Dev.unissue_hub (d : Dev) : (d.unissue).hub = d.hub := rfl

/-! ## divide -/

@[simp] theorem Dev.divide_cur (d : Dev) (p : Fibre → Bool) (a : Bool) : (d.divide p a).cur = d.cur := rfl
@[simp] theorem Dev.divide_arg (d : Dev) (p : Fibre → Bool) (a : Bool) : (d.divide p a).arg = d.arg := rfl
@[simp] theorem Dev.divide_oracle (d : Dev) (p : Fibre → Bool) (a : Bool) : (d.divide p a).oracle = d.oracle := rfl
@[simp] theorem Dev.divide_cycle (d : Dev) (p : Fibre → Bool) (a : Bool) : (d.divide p a).cycle = d.cycle := rfl
@[simp] theorem Dev.divide_pipe (d : Dev) (p : Fibre → Bool) (a : Bool) : (d.divide p a).pipe = d.pipe := rfl
@[simp] theorem Dev.divide_warps (d : Dev) (p : Fibre → Bool) (a : Bool) : (d.divide p a).warps = d.warps := rfl
@[simp] theorem Dev.divide_groups (d : Dev) (p : Fibre → Bool) (a : Bool) : (d.divide p a).groups = d.groups := rfl
@[simp] theorem Dev.divide_cores (d : Dev) (p : Fibre → Bool) (a : Bool) : (d.divide p a).cores = d.cores := rfl
@[simp] theorem Dev.divide_clusters (d : Dev) (p : Fibre → Bool) (a : Bool) : (d.divide p a).clusters = d.clusters := rfl
@[simp] theorem Dev.divide_tlbs (d : Dev) (p : Fibre → Bool) (a : Bool) : (d.divide p a).tlbs = d.tlbs := rfl
@[simp] theorem Dev.divide_ms (d : Dev) (p : Fibre → Bool) (a : Bool) : (d.divide p a).ms = d.ms := rfl
@[simp] theorem Dev.divide_arrivals (d : Dev) (p : Fibre → Bool) (a : Bool) : (d.divide p a).arrivals = d.arrivals := rfl
@[simp] theorem Dev.divide_posts (d : Dev) (p : Fibre → Bool) (a : Bool) : (d.divide p a).posts = d.posts := rfl
@[simp] theorem Dev.divide_handoffs (d : Dev) (p : Fibre → Bool) (a : Bool) : (d.divide p a).handoffs = d.handoffs := rfl
@[simp] theorem Dev.divide_heldWins (d : Dev) (p : Fibre → Bool) (a : Bool) : (d.divide p a).heldWins = d.heldWins := rfl
@[simp] theorem Dev.divide_heldGrants (d : Dev) (p : Fibre → Bool) (a : Bool) : (d.divide p a).heldGrants = d.heldGrants := rfl
@[simp] theorem Dev.divide_walks (d : Dev) (p : Fibre → Bool) (a : Bool) : (d.divide p a).walks = d.walks := rfl
@[simp] theorem Dev.divide_fabric (d : Dev) (p : Fibre → Bool) (a : Bool) : (d.divide p a).fabric = d.fabric := rfl
@[simp] theorem Dev.divide_nextCopy (d : Dev) (p : Fibre → Bool) (a : Bool) : (d.divide p a).nextCopy = d.nextCopy := rfl
@[simp] theorem Dev.divide_hub (d : Dev) (p : Fibre → Bool) (a : Bool) : (d.divide p a).hub = d.hub := rfl

/-! ## trapEach -/

@[simp] theorem Dev.trapEach_cur (d : Dev) (t : Fibre → Option Trap) (a : Fibre → Addr48) (j : Fibre → Fibre) : (d.trapEach t a j).cur = d.cur := rfl
@[simp] theorem Dev.trapEach_arg (d : Dev) (t : Fibre → Option Trap) (a : Fibre → Addr48) (j : Fibre → Fibre) : (d.trapEach t a j).arg = d.arg := rfl
@[simp] theorem Dev.trapEach_oracle (d : Dev) (t : Fibre → Option Trap) (a : Fibre → Addr48) (j : Fibre → Fibre) : (d.trapEach t a j).oracle = d.oracle := rfl
@[simp] theorem Dev.trapEach_free (d : Dev) (t : Fibre → Option Trap) (a : Fibre → Addr48) (j : Fibre → Fibre) : (d.trapEach t a j).free = d.free := rfl
@[simp] theorem Dev.trapEach_cycle (d : Dev) (t : Fibre → Option Trap) (a : Fibre → Addr48) (j : Fibre → Fibre) : (d.trapEach t a j).cycle = d.cycle := rfl
@[simp] theorem Dev.trapEach_pipe (d : Dev) (t : Fibre → Option Trap) (a : Fibre → Addr48) (j : Fibre → Fibre) : (d.trapEach t a j).pipe = d.pipe := rfl
@[simp] theorem Dev.trapEach_warps (d : Dev) (t : Fibre → Option Trap) (a : Fibre → Addr48) (j : Fibre → Fibre) : (d.trapEach t a j).warps = d.warps := rfl
@[simp] theorem Dev.trapEach_cores (d : Dev) (t : Fibre → Option Trap) (a : Fibre → Addr48) (j : Fibre → Fibre) : (d.trapEach t a j).cores = d.cores := rfl
@[simp] theorem Dev.trapEach_clusters (d : Dev) (t : Fibre → Option Trap) (a : Fibre → Addr48) (j : Fibre → Fibre) : (d.trapEach t a j).clusters = d.clusters := rfl
@[simp] theorem Dev.trapEach_tlbs (d : Dev) (t : Fibre → Option Trap) (a : Fibre → Addr48) (j : Fibre → Fibre) : (d.trapEach t a j).tlbs = d.tlbs := rfl
@[simp] theorem Dev.trapEach_ms (d : Dev) (t : Fibre → Option Trap) (a : Fibre → Addr48) (j : Fibre → Fibre) : (d.trapEach t a j).ms = d.ms := rfl
@[simp] theorem Dev.trapEach_arrivals (d : Dev) (t : Fibre → Option Trap) (a : Fibre → Addr48) (j : Fibre → Fibre) : (d.trapEach t a j).arrivals = d.arrivals := rfl
@[simp] theorem Dev.trapEach_posts (d : Dev) (t : Fibre → Option Trap) (a : Fibre → Addr48) (j : Fibre → Fibre) : (d.trapEach t a j).posts = d.posts := rfl
@[simp] theorem Dev.trapEach_handoffs (d : Dev) (t : Fibre → Option Trap) (a : Fibre → Addr48) (j : Fibre → Fibre) : (d.trapEach t a j).handoffs = d.handoffs := rfl
@[simp] theorem Dev.trapEach_heldWins (d : Dev) (t : Fibre → Option Trap) (a : Fibre → Addr48) (j : Fibre → Fibre) : (d.trapEach t a j).heldWins = d.heldWins := rfl
@[simp] theorem Dev.trapEach_heldGrants (d : Dev) (t : Fibre → Option Trap) (a : Fibre → Addr48) (j : Fibre → Fibre) : (d.trapEach t a j).heldGrants = d.heldGrants := rfl
@[simp] theorem Dev.trapEach_saved (d : Dev) (t : Fibre → Option Trap) (a : Fibre → Addr48) (j : Fibre → Fibre) : (d.trapEach t a j).saved = d.saved := rfl
@[simp] theorem Dev.trapEach_walks (d : Dev) (t : Fibre → Option Trap) (a : Fibre → Addr48) (j : Fibre → Fibre) : (d.trapEach t a j).walks = d.walks := rfl
@[simp] theorem Dev.trapEach_fabric (d : Dev) (t : Fibre → Option Trap) (a : Fibre → Addr48) (j : Fibre → Fibre) : (d.trapEach t a j).fabric = d.fabric := rfl
@[simp] theorem Dev.trapEach_nextCopy (d : Dev) (t : Fibre → Option Trap) (a : Fibre → Addr48) (j : Fibre → Fibre) : (d.trapEach t a j).nextCopy = d.nextCopy := rfl
@[simp] theorem Dev.trapEach_hub (d : Dev) (t : Fibre → Option Trap) (a : Fibre → Addr48) (j : Fibre → Fibre) : (d.trapEach t a j).hub = d.hub := rfl

/-! ## trapBatch -/

@[simp] theorem Dev.trapBatch_cur (d : Dev) (t : Fibre → Option Trap) : (d.trapBatch t).cur = d.cur := rfl
@[simp] theorem Dev.trapBatch_arg (d : Dev) (t : Fibre → Option Trap) : (d.trapBatch t).arg = d.arg := rfl
@[simp] theorem Dev.trapBatch_oracle (d : Dev) (t : Fibre → Option Trap) : (d.trapBatch t).oracle = d.oracle := rfl
@[simp] theorem Dev.trapBatch_cycle (d : Dev) (t : Fibre → Option Trap) : (d.trapBatch t).cycle = d.cycle := rfl
@[simp] theorem Dev.trapBatch_pipe (d : Dev) (t : Fibre → Option Trap) : (d.trapBatch t).pipe = d.pipe := rfl
@[simp] theorem Dev.trapBatch_warps (d : Dev) (t : Fibre → Option Trap) : (d.trapBatch t).warps = d.warps := rfl
@[simp] theorem Dev.trapBatch_cores (d : Dev) (t : Fibre → Option Trap) : (d.trapBatch t).cores = d.cores := rfl
@[simp] theorem Dev.trapBatch_clusters (d : Dev) (t : Fibre → Option Trap) : (d.trapBatch t).clusters = d.clusters := rfl
@[simp] theorem Dev.trapBatch_tlbs (d : Dev) (t : Fibre → Option Trap) : (d.trapBatch t).tlbs = d.tlbs := rfl
@[simp] theorem Dev.trapBatch_ms (d : Dev) (t : Fibre → Option Trap) : (d.trapBatch t).ms = d.ms := rfl
@[simp] theorem Dev.trapBatch_arrivals (d : Dev) (t : Fibre → Option Trap) : (d.trapBatch t).arrivals = d.arrivals := rfl
@[simp] theorem Dev.trapBatch_posts (d : Dev) (t : Fibre → Option Trap) : (d.trapBatch t).posts = d.posts := rfl
@[simp] theorem Dev.trapBatch_handoffs (d : Dev) (t : Fibre → Option Trap) : (d.trapBatch t).handoffs = d.handoffs := rfl
@[simp] theorem Dev.trapBatch_heldWins (d : Dev) (t : Fibre → Option Trap) : (d.trapBatch t).heldWins = d.heldWins := rfl
@[simp] theorem Dev.trapBatch_heldGrants (d : Dev) (t : Fibre → Option Trap) : (d.trapBatch t).heldGrants = d.heldGrants := rfl
@[simp] theorem Dev.trapBatch_saved (d : Dev) (t : Fibre → Option Trap) : (d.trapBatch t).saved = d.saved := rfl
@[simp] theorem Dev.trapBatch_walks (d : Dev) (t : Fibre → Option Trap) : (d.trapBatch t).walks = d.walks := rfl
@[simp] theorem Dev.trapBatch_fabric (d : Dev) (t : Fibre → Option Trap) : (d.trapBatch t).fabric = d.fabric := rfl
@[simp] theorem Dev.trapBatch_nextCopy (d : Dev) (t : Fibre → Option Trap) : (d.trapBatch t).nextCopy = d.nextCopy := rfl
@[simp] theorem Dev.trapBatch_hub (d : Dev) (t : Fibre → Option Trap) : (d.trapBatch t).hub = d.hub := rfl

/-! ## deliver -/

@[simp] theorem Dev.deliver_cur (d : Dev) (t : Fibre → Option Trap) (a : Fibre → Addr48) : (d.deliver t a).cur = d.cur := rfl
@[simp] theorem Dev.deliver_arg (d : Dev) (t : Fibre → Option Trap) (a : Fibre → Addr48) : (d.deliver t a).arg = d.arg := rfl
@[simp] theorem Dev.deliver_oracle (d : Dev) (t : Fibre → Option Trap) (a : Fibre → Addr48) : (d.deliver t a).oracle = d.oracle := rfl
@[simp] theorem Dev.deliver_cycle (d : Dev) (t : Fibre → Option Trap) (a : Fibre → Addr48) : (d.deliver t a).cycle = d.cycle := rfl
@[simp] theorem Dev.deliver_pipe (d : Dev) (t : Fibre → Option Trap) (a : Fibre → Addr48) : (d.deliver t a).pipe = d.pipe := rfl
@[simp] theorem Dev.deliver_warps (d : Dev) (t : Fibre → Option Trap) (a : Fibre → Addr48) : (d.deliver t a).warps = d.warps := rfl
@[simp] theorem Dev.deliver_cores (d : Dev) (t : Fibre → Option Trap) (a : Fibre → Addr48) : (d.deliver t a).cores = d.cores := rfl
@[simp] theorem Dev.deliver_clusters (d : Dev) (t : Fibre → Option Trap) (a : Fibre → Addr48) : (d.deliver t a).clusters = d.clusters := rfl
@[simp] theorem Dev.deliver_tlbs (d : Dev) (t : Fibre → Option Trap) (a : Fibre → Addr48) : (d.deliver t a).tlbs = d.tlbs := rfl
@[simp] theorem Dev.deliver_ms (d : Dev) (t : Fibre → Option Trap) (a : Fibre → Addr48) : (d.deliver t a).ms = d.ms := rfl
@[simp] theorem Dev.deliver_arrivals (d : Dev) (t : Fibre → Option Trap) (a : Fibre → Addr48) : (d.deliver t a).arrivals = d.arrivals := rfl
@[simp] theorem Dev.deliver_posts (d : Dev) (t : Fibre → Option Trap) (a : Fibre → Addr48) : (d.deliver t a).posts = d.posts := rfl
@[simp] theorem Dev.deliver_handoffs (d : Dev) (t : Fibre → Option Trap) (a : Fibre → Addr48) : (d.deliver t a).handoffs = d.handoffs := rfl
@[simp] theorem Dev.deliver_heldWins (d : Dev) (t : Fibre → Option Trap) (a : Fibre → Addr48) : (d.deliver t a).heldWins = d.heldWins := rfl
@[simp] theorem Dev.deliver_heldGrants (d : Dev) (t : Fibre → Option Trap) (a : Fibre → Addr48) : (d.deliver t a).heldGrants = d.heldGrants := rfl
@[simp] theorem Dev.deliver_walks (d : Dev) (t : Fibre → Option Trap) (a : Fibre → Addr48) : (d.deliver t a).walks = d.walks := rfl
@[simp] theorem Dev.deliver_fabric (d : Dev) (t : Fibre → Option Trap) (a : Fibre → Addr48) : (d.deliver t a).fabric = d.fabric := rfl
@[simp] theorem Dev.deliver_nextCopy (d : Dev) (t : Fibre → Option Trap) (a : Fibre → Addr48) : (d.deliver t a).nextCopy = d.nextCopy := rfl
@[simp] theorem Dev.deliver_hub (d : Dev) (t : Fibre → Option Trap) (a : Fibre → Addr48) : (d.deliver t a).hub = d.hub := rfl

/-! ## trapAll -/

@[simp] theorem Dev.trapAll_cur (d : Dev) (t : Trap) : (d.trapAll t).cur = d.cur := rfl
@[simp] theorem Dev.trapAll_arg (d : Dev) (t : Trap) : (d.trapAll t).arg = d.arg := rfl
@[simp] theorem Dev.trapAll_oracle (d : Dev) (t : Trap) : (d.trapAll t).oracle = d.oracle := rfl
@[simp] theorem Dev.trapAll_cycle (d : Dev) (t : Trap) : (d.trapAll t).cycle = d.cycle := rfl
@[simp] theorem Dev.trapAll_pipe (d : Dev) (t : Trap) : (d.trapAll t).pipe = d.pipe := rfl
@[simp] theorem Dev.trapAll_warps (d : Dev) (t : Trap) : (d.trapAll t).warps = d.warps := rfl
@[simp] theorem Dev.trapAll_cores (d : Dev) (t : Trap) : (d.trapAll t).cores = d.cores := rfl
@[simp] theorem Dev.trapAll_clusters (d : Dev) (t : Trap) : (d.trapAll t).clusters = d.clusters := rfl
@[simp] theorem Dev.trapAll_tlbs (d : Dev) (t : Trap) : (d.trapAll t).tlbs = d.tlbs := rfl
@[simp] theorem Dev.trapAll_ms (d : Dev) (t : Trap) : (d.trapAll t).ms = d.ms := rfl
@[simp] theorem Dev.trapAll_arrivals (d : Dev) (t : Trap) : (d.trapAll t).arrivals = d.arrivals := rfl
@[simp] theorem Dev.trapAll_posts (d : Dev) (t : Trap) : (d.trapAll t).posts = d.posts := rfl
@[simp] theorem Dev.trapAll_handoffs (d : Dev) (t : Trap) : (d.trapAll t).handoffs = d.handoffs := rfl
@[simp] theorem Dev.trapAll_heldWins (d : Dev) (t : Trap) : (d.trapAll t).heldWins = d.heldWins := rfl
@[simp] theorem Dev.trapAll_heldGrants (d : Dev) (t : Trap) : (d.trapAll t).heldGrants = d.heldGrants := rfl
@[simp] theorem Dev.trapAll_saved (d : Dev) (t : Trap) : (d.trapAll t).saved = d.saved := rfl
@[simp] theorem Dev.trapAll_walks (d : Dev) (t : Trap) : (d.trapAll t).walks = d.walks := rfl
@[simp] theorem Dev.trapAll_fabric (d : Dev) (t : Trap) : (d.trapAll t).fabric = d.fabric := rfl
@[simp] theorem Dev.trapAll_nextCopy (d : Dev) (t : Trap) : (d.trapAll t).nextCopy = d.nextCopy := rfl
@[simp] theorem Dev.trapAll_hub (d : Dev) (t : Trap) : (d.trapAll t).hub = d.hub := rfl

/-! ## trapSome -/

@[simp] theorem Dev.trapSome_cur (d : Dev) (t : Fibre → Option Trap) : (d.trapSome t).cur = d.cur := rfl
@[simp] theorem Dev.trapSome_arg (d : Dev) (t : Fibre → Option Trap) : (d.trapSome t).arg = d.arg := rfl
@[simp] theorem Dev.trapSome_oracle (d : Dev) (t : Fibre → Option Trap) : (d.trapSome t).oracle = d.oracle := rfl
@[simp] theorem Dev.trapSome_cycle (d : Dev) (t : Fibre → Option Trap) : (d.trapSome t).cycle = d.cycle := rfl
@[simp] theorem Dev.trapSome_pipe (d : Dev) (t : Fibre → Option Trap) : (d.trapSome t).pipe = d.pipe := rfl
@[simp] theorem Dev.trapSome_warps (d : Dev) (t : Fibre → Option Trap) : (d.trapSome t).warps = d.warps := rfl
@[simp] theorem Dev.trapSome_cores (d : Dev) (t : Fibre → Option Trap) : (d.trapSome t).cores = d.cores := rfl
@[simp] theorem Dev.trapSome_clusters (d : Dev) (t : Fibre → Option Trap) : (d.trapSome t).clusters = d.clusters := rfl
@[simp] theorem Dev.trapSome_tlbs (d : Dev) (t : Fibre → Option Trap) : (d.trapSome t).tlbs = d.tlbs := rfl
@[simp] theorem Dev.trapSome_ms (d : Dev) (t : Fibre → Option Trap) : (d.trapSome t).ms = d.ms := rfl
@[simp] theorem Dev.trapSome_arrivals (d : Dev) (t : Fibre → Option Trap) : (d.trapSome t).arrivals = d.arrivals := rfl
@[simp] theorem Dev.trapSome_posts (d : Dev) (t : Fibre → Option Trap) : (d.trapSome t).posts = d.posts := rfl
@[simp] theorem Dev.trapSome_handoffs (d : Dev) (t : Fibre → Option Trap) : (d.trapSome t).handoffs = d.handoffs := rfl
@[simp] theorem Dev.trapSome_heldWins (d : Dev) (t : Fibre → Option Trap) : (d.trapSome t).heldWins = d.heldWins := rfl
@[simp] theorem Dev.trapSome_heldGrants (d : Dev) (t : Fibre → Option Trap) : (d.trapSome t).heldGrants = d.heldGrants := rfl
@[simp] theorem Dev.trapSome_saved (d : Dev) (t : Fibre → Option Trap) : (d.trapSome t).saved = d.saved := rfl
@[simp] theorem Dev.trapSome_walks (d : Dev) (t : Fibre → Option Trap) : (d.trapSome t).walks = d.walks := rfl
@[simp] theorem Dev.trapSome_fabric (d : Dev) (t : Fibre → Option Trap) : (d.trapSome t).fabric = d.fabric := rfl
@[simp] theorem Dev.trapSome_nextCopy (d : Dev) (t : Fibre → Option Trap) : (d.trapSome t).nextCopy = d.nextCopy := rfl
@[simp] theorem Dev.trapSome_hub (d : Dev) (t : Fibre → Option Trap) : (d.trapSome t).hub = d.hub := rfl

/-! ## writeV -/

@[simp] theorem Dev.writeV_cur (d : Dev) (v n : Nat) (g : Fibre → W64) : (d.writeV v n g).cur = d.cur := rfl
@[simp] theorem Dev.writeV_arg (d : Dev) (v n : Nat) (g : Fibre → W64) : (d.writeV v n g).arg = d.arg := rfl
@[simp] theorem Dev.writeV_oracle (d : Dev) (v n : Nat) (g : Fibre → W64) : (d.writeV v n g).oracle = d.oracle := rfl
@[simp] theorem Dev.writeV_free (d : Dev) (v n : Nat) (g : Fibre → W64) : (d.writeV v n g).free = d.free := rfl
@[simp] theorem Dev.writeV_cycle (d : Dev) (v n : Nat) (g : Fibre → W64) : (d.writeV v n g).cycle = d.cycle := rfl
@[simp] theorem Dev.writeV_pipe (d : Dev) (v n : Nat) (g : Fibre → W64) : (d.writeV v n g).pipe = d.pipe := rfl
@[simp] theorem Dev.writeV_warps (d : Dev) (v n : Nat) (g : Fibre → W64) : (d.writeV v n g).warps = d.warps := rfl
@[simp] theorem Dev.writeV_groups (d : Dev) (v n : Nat) (g : Fibre → W64) : (d.writeV v n g).groups = d.groups := rfl
@[simp] theorem Dev.writeV_cores (d : Dev) (v n : Nat) (g : Fibre → W64) : (d.writeV v n g).cores = d.cores := rfl
@[simp] theorem Dev.writeV_clusters (d : Dev) (v n : Nat) (g : Fibre → W64) : (d.writeV v n g).clusters = d.clusters := rfl
@[simp] theorem Dev.writeV_tlbs (d : Dev) (v n : Nat) (g : Fibre → W64) : (d.writeV v n g).tlbs = d.tlbs := rfl
@[simp] theorem Dev.writeV_ms (d : Dev) (v n : Nat) (g : Fibre → W64) : (d.writeV v n g).ms = d.ms := rfl
@[simp] theorem Dev.writeV_arrivals (d : Dev) (v n : Nat) (g : Fibre → W64) : (d.writeV v n g).arrivals = d.arrivals := rfl
@[simp] theorem Dev.writeV_posts (d : Dev) (v n : Nat) (g : Fibre → W64) : (d.writeV v n g).posts = d.posts := rfl
@[simp] theorem Dev.writeV_handoffs (d : Dev) (v n : Nat) (g : Fibre → W64) : (d.writeV v n g).handoffs = d.handoffs := rfl
@[simp] theorem Dev.writeV_heldWins (d : Dev) (v n : Nat) (g : Fibre → W64) : (d.writeV v n g).heldWins = d.heldWins := rfl
@[simp] theorem Dev.writeV_heldGrants (d : Dev) (v n : Nat) (g : Fibre → W64) : (d.writeV v n g).heldGrants = d.heldGrants := rfl
@[simp] theorem Dev.writeV_saved (d : Dev) (v n : Nat) (g : Fibre → W64) : (d.writeV v n g).saved = d.saved := rfl
@[simp] theorem Dev.writeV_walks (d : Dev) (v n : Nat) (g : Fibre → W64) : (d.writeV v n g).walks = d.walks := rfl
@[simp] theorem Dev.writeV_fabric (d : Dev) (v n : Nat) (g : Fibre → W64) : (d.writeV v n g).fabric = d.fabric := rfl
@[simp] theorem Dev.writeV_nextCopy (d : Dev) (v n : Nat) (g : Fibre → W64) : (d.writeV v n g).nextCopy = d.nextCopy := rfl
@[simp] theorem Dev.writeV_hub (d : Dev) (v n : Nat) (g : Fibre → W64) : (d.writeV v n g).hub = d.hub := rfl

/-! ## writeM -/

@[simp] theorem Dev.writeM_cur (d : Dev) (v n : Nat) (g : Fibre → Byte) : (d.writeM v n g).cur = d.cur := rfl
@[simp] theorem Dev.writeM_arg (d : Dev) (v n : Nat) (g : Fibre → Byte) : (d.writeM v n g).arg = d.arg := rfl
@[simp] theorem Dev.writeM_oracle (d : Dev) (v n : Nat) (g : Fibre → Byte) : (d.writeM v n g).oracle = d.oracle := rfl
@[simp] theorem Dev.writeM_free (d : Dev) (v n : Nat) (g : Fibre → Byte) : (d.writeM v n g).free = d.free := rfl
@[simp] theorem Dev.writeM_cycle (d : Dev) (v n : Nat) (g : Fibre → Byte) : (d.writeM v n g).cycle = d.cycle := rfl
@[simp] theorem Dev.writeM_pipe (d : Dev) (v n : Nat) (g : Fibre → Byte) : (d.writeM v n g).pipe = d.pipe := rfl
@[simp] theorem Dev.writeM_warps (d : Dev) (v n : Nat) (g : Fibre → Byte) : (d.writeM v n g).warps = d.warps := rfl
@[simp] theorem Dev.writeM_groups (d : Dev) (v n : Nat) (g : Fibre → Byte) : (d.writeM v n g).groups = d.groups := rfl
@[simp] theorem Dev.writeM_cores (d : Dev) (v n : Nat) (g : Fibre → Byte) : (d.writeM v n g).cores = d.cores := rfl
@[simp] theorem Dev.writeM_clusters (d : Dev) (v n : Nat) (g : Fibre → Byte) : (d.writeM v n g).clusters = d.clusters := rfl
@[simp] theorem Dev.writeM_tlbs (d : Dev) (v n : Nat) (g : Fibre → Byte) : (d.writeM v n g).tlbs = d.tlbs := rfl
@[simp] theorem Dev.writeM_ms (d : Dev) (v n : Nat) (g : Fibre → Byte) : (d.writeM v n g).ms = d.ms := rfl
@[simp] theorem Dev.writeM_arrivals (d : Dev) (v n : Nat) (g : Fibre → Byte) : (d.writeM v n g).arrivals = d.arrivals := rfl
@[simp] theorem Dev.writeM_posts (d : Dev) (v n : Nat) (g : Fibre → Byte) : (d.writeM v n g).posts = d.posts := rfl
@[simp] theorem Dev.writeM_handoffs (d : Dev) (v n : Nat) (g : Fibre → Byte) : (d.writeM v n g).handoffs = d.handoffs := rfl
@[simp] theorem Dev.writeM_heldWins (d : Dev) (v n : Nat) (g : Fibre → Byte) : (d.writeM v n g).heldWins = d.heldWins := rfl
@[simp] theorem Dev.writeM_heldGrants (d : Dev) (v n : Nat) (g : Fibre → Byte) : (d.writeM v n g).heldGrants = d.heldGrants := rfl
@[simp] theorem Dev.writeM_saved (d : Dev) (v n : Nat) (g : Fibre → Byte) : (d.writeM v n g).saved = d.saved := rfl
@[simp] theorem Dev.writeM_walks (d : Dev) (v n : Nat) (g : Fibre → Byte) : (d.writeM v n g).walks = d.walks := rfl
@[simp] theorem Dev.writeM_fabric (d : Dev) (v n : Nat) (g : Fibre → Byte) : (d.writeM v n g).fabric = d.fabric := rfl
@[simp] theorem Dev.writeM_nextCopy (d : Dev) (v n : Nat) (g : Fibre → Byte) : (d.writeM v n g).nextCopy = d.nextCopy := rfl
@[simp] theorem Dev.writeM_hub (d : Dev) (v n : Nat) (g : Fibre → Byte) : (d.writeM v n g).hub = d.hub := rfl

/-! ## oweV -/

@[simp] theorem Dev.oweV_cur (d : Dev) (v : Nat) (g : Fibre → Option W64) : (d.oweV v g).cur = d.cur := rfl
@[simp] theorem Dev.oweV_arg (d : Dev) (v : Nat) (g : Fibre → Option W64) : (d.oweV v g).arg = d.arg := rfl
@[simp] theorem Dev.oweV_oracle (d : Dev) (v : Nat) (g : Fibre → Option W64) : (d.oweV v g).oracle = d.oracle := rfl
@[simp] theorem Dev.oweV_free (d : Dev) (v : Nat) (g : Fibre → Option W64) : (d.oweV v g).free = d.free := rfl
@[simp] theorem Dev.oweV_cycle (d : Dev) (v : Nat) (g : Fibre → Option W64) : (d.oweV v g).cycle = d.cycle := rfl
@[simp] theorem Dev.oweV_pipe (d : Dev) (v : Nat) (g : Fibre → Option W64) : (d.oweV v g).pipe = d.pipe := rfl
@[simp] theorem Dev.oweV_warps (d : Dev) (v : Nat) (g : Fibre → Option W64) : (d.oweV v g).warps = d.warps := rfl
@[simp] theorem Dev.oweV_groups (d : Dev) (v : Nat) (g : Fibre → Option W64) : (d.oweV v g).groups = d.groups := rfl
@[simp] theorem Dev.oweV_cores (d : Dev) (v : Nat) (g : Fibre → Option W64) : (d.oweV v g).cores = d.cores := rfl
@[simp] theorem Dev.oweV_clusters (d : Dev) (v : Nat) (g : Fibre → Option W64) : (d.oweV v g).clusters = d.clusters := rfl
@[simp] theorem Dev.oweV_tlbs (d : Dev) (v : Nat) (g : Fibre → Option W64) : (d.oweV v g).tlbs = d.tlbs := rfl
@[simp] theorem Dev.oweV_ms (d : Dev) (v : Nat) (g : Fibre → Option W64) : (d.oweV v g).ms = d.ms := rfl
@[simp] theorem Dev.oweV_arrivals (d : Dev) (v : Nat) (g : Fibre → Option W64) : (d.oweV v g).arrivals = d.arrivals := rfl
@[simp] theorem Dev.oweV_posts (d : Dev) (v : Nat) (g : Fibre → Option W64) : (d.oweV v g).posts = d.posts := rfl
@[simp] theorem Dev.oweV_handoffs (d : Dev) (v : Nat) (g : Fibre → Option W64) : (d.oweV v g).handoffs = d.handoffs := rfl
@[simp] theorem Dev.oweV_heldWins (d : Dev) (v : Nat) (g : Fibre → Option W64) : (d.oweV v g).heldWins = d.heldWins := rfl
@[simp] theorem Dev.oweV_heldGrants (d : Dev) (v : Nat) (g : Fibre → Option W64) : (d.oweV v g).heldGrants = d.heldGrants := rfl
@[simp] theorem Dev.oweV_saved (d : Dev) (v : Nat) (g : Fibre → Option W64) : (d.oweV v g).saved = d.saved := rfl
@[simp] theorem Dev.oweV_walks (d : Dev) (v : Nat) (g : Fibre → Option W64) : (d.oweV v g).walks = d.walks := rfl
@[simp] theorem Dev.oweV_fabric (d : Dev) (v : Nat) (g : Fibre → Option W64) : (d.oweV v g).fabric = d.fabric := rfl
@[simp] theorem Dev.oweV_nextCopy (d : Dev) (v : Nat) (g : Fibre → Option W64) : (d.oweV v g).nextCopy = d.nextCopy := rfl
@[simp] theorem Dev.oweV_hub (d : Dev) (v : Nat) (g : Fibre → Option W64) : (d.oweV v g).hub = d.hub := rfl

/-! ## The whole state -/

@[simp] theorem State.onDev_agenda (s : State) (f : Dev → Dev) : (s.onDev f).agenda = s.agenda := rfl
@[simp] theorem State.onDev_pwr (s : State) (f : Dev → Dev) : (s.onDev f).pwr = s.pwr := rfl
@[simp] theorem State.onDev_fw (s : State) (f : Dev → Dev) : (s.onDev f).fw = s.fw := rfl
@[simp] theorem State.onDev_dev (s : State) (f : Dev → Dev) : (s.onDev f).dev = f s.dev := rfl

/-! ## Registers of a fibre -/

@[simp] theorem LoopLevel.finish_start (l : LoopLevel) (a : Addr48) : (l.finish a).1.start = l.start := by
  unfold LoopLevel.finish; split <;> rfl
@[simp] theorem LoopLevel.finish_last (l : LoopLevel) (a : Addr48) : (l.finish a).1.last = l.last := by
  unfold LoopLevel.finish; split <;> rfl

/-! ## Fibre.putV -/

@[simp] theorem Fibre.putV_core (f : Fibre) (n : Nat) (x : W64) (r : Nat) : (f.putV n x r).core = f.core := rfl
@[simp] theorem Fibre.putV_slot (f : Fibre) (n : Nat) (x : W64) (r : Nat) : (f.putV n x r).slot = f.slot := rfl
@[simp] theorem Fibre.putV_lane (f : Fibre) (n : Nat) (x : W64) (r : Nat) : (f.putV n x r).lane = f.lane := rfl
@[simp] theorem Fibre.putV_warpid (f : Fibre) (n : Nat) (x : W64) (r : Nat) : (f.putV n x r).warpid = f.warpid := rfl
@[simp] theorem Fibre.putV_helper (f : Fibre) (n : Nat) (x : W64) (r : Nat) : (f.putV n x r).helper = f.helper := rfl
@[simp] theorem Fibre.putV_pc (f : Fibre) (n : Nat) (x : W64) (r : Nat) : (f.putV n x r).pc = f.pc := rfl
@[simp] theorem Fibre.putV_winbase (f : Fibre) (n : Nat) (x : W64) (r : Nat) : (f.putV n x r).winbase = f.winbase := rfl
@[simp] theorem Fibre.putV_pred (f : Fibre) (n : Nat) (x : W64) (r : Nat) : (f.putV n x r).pred = f.pred := rfl
@[simp] theorem Fibre.putV_lp0 (f : Fibre) (n : Nat) (x : W64) (r : Nat) : (f.putV n x r).lp0 = f.lp0 := rfl
@[simp] theorem Fibre.putV_lp1 (f : Fibre) (n : Nat) (x : W64) (r : Nat) : (f.putV n x r).lp1 = f.lp1 := rfl
@[simp] theorem Fibre.putV_lp2 (f : Fibre) (n : Nat) (x : W64) (r : Nat) : (f.putV n x r).lp2 = f.lp2 := rfl
@[simp] theorem Fibre.putV_fpctl (f : Fibre) (n : Nat) (x : W64) (r : Nat) : (f.putV n x r).fpctl = f.fpctl := rfl
@[simp] theorem Fibre.putV_trapcause (f : Fibre) (n : Nat) (x : W64) (r : Nat) : (f.putV n x r).trapcause = f.trapcause := rfl
@[simp] theorem Fibre.putV_trappc (f : Fibre) (n : Nat) (x : W64) (r : Nat) : (f.putV n x r).trappc = f.trappc := rfl
@[simp] theorem Fibre.putV_trapaddr (f : Fibre) (n : Nat) (x : W64) (r : Nat) : (f.putV n x r).trapaddr = f.trapaddr := rfl
@[simp] theorem Fibre.putV_ilenc (f : Fibre) (n : Nat) (x : W64) (r : Nat) : (f.putV n x r).ilenc = f.ilenc := rfl
@[simp] theorem Fibre.putV_ilf0 (f : Fibre) (n : Nat) (x : W64) (r : Nat) : (f.putV n x r).ilf0 = f.ilf0 := rfl
@[simp] theorem Fibre.putV_ilf1 (f : Fibre) (n : Nat) (x : W64) (r : Nat) : (f.putV n x r).ilf1 = f.ilf1 := rfl
@[simp] theorem Fibre.putV_ilf2 (f : Fibre) (n : Nat) (x : W64) (r : Nat) : (f.putV n x r).ilf2 = f.ilf2 := rfl
@[simp] theorem Fibre.putV_ilf3 (f : Fibre) (n : Nat) (x : W64) (r : Nat) : (f.putV n x r).ilf3 = f.ilf3 := rfl
@[simp] theorem Fibre.putV_rec_ (f : Fibre) (n : Nat) (x : W64) (r : Nat) : (f.putV n x r).rec_ = f.rec_ := rfl
@[simp] theorem Fibre.putV_repc (f : Fibre) (n : Nat) (x : W64) (r : Nat) : (f.putV n x r).repc = f.repc := rfl
@[simp] theorem Fibre.putV_mdone (f : Fibre) (n : Nat) (x : W64) (r : Nat) : (f.putV n x r).mdone = f.mdone := rfl
@[simp] theorem Fibre.putV_wait (f : Fibre) (n : Nat) (x : W64) (r : Nat) : (f.putV n x r).wait = f.wait := rfl
@[simp] theorem Fibre.putV_age (f : Fibre) (n : Nat) (x : W64) (r : Nat) : (f.putV n x r).age = f.age := rfl
@[simp] theorem Fibre.putV_ready (f : Fibre) (n : Nat) (x : W64) (r : Nat) : (f.putV n x r).ready = f.ready := rfl
@[simp] theorem Fibre.putV_late (f : Fibre) (n : Nat) (x : W64) (r : Nat) : (f.putV n x r).late = f.late := rfl
@[simp] theorem Fibre.putV_trapped (f : Fibre) (n : Nat) (x : W64) (r : Nat) : (f.putV n x r).trapped = f.trapped := rfl
@[simp] theorem Fibre.putV_units (f : Fibre) (n : Nat) (x : W64) (r : Nat) : (f.putV n x r).units = f.units := rfl
@[simp] theorem Fibre.putV_cohort (f : Fibre) (n : Nat) (x : W64) (r : Nat) : (f.putV n x r).cohort = f.cohort := rfl
@[simp] theorem Fibre.putV_pace (f : Fibre) (n : Nat) (x : W64) (r : Nat) : (f.putV n x r).pace = f.pace := rfl

/-! ## Fibre.putM -/

@[simp] theorem Fibre.putM_core (f : Fibre) (n : Nat) (x : Byte) (r : Nat) : (f.putM n x r).core = f.core := by unfold Fibre.putM; split <;> rfl
@[simp] theorem Fibre.putM_slot (f : Fibre) (n : Nat) (x : Byte) (r : Nat) : (f.putM n x r).slot = f.slot := by unfold Fibre.putM; split <;> rfl
@[simp] theorem Fibre.putM_lane (f : Fibre) (n : Nat) (x : Byte) (r : Nat) : (f.putM n x r).lane = f.lane := by unfold Fibre.putM; split <;> rfl
@[simp] theorem Fibre.putM_warpid (f : Fibre) (n : Nat) (x : Byte) (r : Nat) : (f.putM n x r).warpid = f.warpid := by unfold Fibre.putM; split <;> rfl
@[simp] theorem Fibre.putM_helper (f : Fibre) (n : Nat) (x : Byte) (r : Nat) : (f.putM n x r).helper = f.helper := by unfold Fibre.putM; split <;> rfl
@[simp] theorem Fibre.putM_pc (f : Fibre) (n : Nat) (x : Byte) (r : Nat) : (f.putM n x r).pc = f.pc := by unfold Fibre.putM; split <;> rfl
@[simp] theorem Fibre.putM_winbase (f : Fibre) (n : Nat) (x : Byte) (r : Nat) : (f.putM n x r).winbase = f.winbase := by unfold Fibre.putM; split <;> rfl
@[simp] theorem Fibre.putM_win (f : Fibre) (n : Nat) (x : Byte) (r : Nat) : (f.putM n x r).win = f.win := by unfold Fibre.putM; split <;> rfl
@[simp] theorem Fibre.putM_lp0 (f : Fibre) (n : Nat) (x : Byte) (r : Nat) : (f.putM n x r).lp0 = f.lp0 := by unfold Fibre.putM; split <;> rfl
@[simp] theorem Fibre.putM_lp1 (f : Fibre) (n : Nat) (x : Byte) (r : Nat) : (f.putM n x r).lp1 = f.lp1 := by unfold Fibre.putM; split <;> rfl
@[simp] theorem Fibre.putM_lp2 (f : Fibre) (n : Nat) (x : Byte) (r : Nat) : (f.putM n x r).lp2 = f.lp2 := by unfold Fibre.putM; split <;> rfl
@[simp] theorem Fibre.putM_fpctl (f : Fibre) (n : Nat) (x : Byte) (r : Nat) : (f.putM n x r).fpctl = f.fpctl := by unfold Fibre.putM; split <;> rfl
@[simp] theorem Fibre.putM_trapcause (f : Fibre) (n : Nat) (x : Byte) (r : Nat) : (f.putM n x r).trapcause = f.trapcause := by unfold Fibre.putM; split <;> rfl
@[simp] theorem Fibre.putM_trappc (f : Fibre) (n : Nat) (x : Byte) (r : Nat) : (f.putM n x r).trappc = f.trappc := by unfold Fibre.putM; split <;> rfl
@[simp] theorem Fibre.putM_trapaddr (f : Fibre) (n : Nat) (x : Byte) (r : Nat) : (f.putM n x r).trapaddr = f.trapaddr := by unfold Fibre.putM; split <;> rfl
@[simp] theorem Fibre.putM_ilenc (f : Fibre) (n : Nat) (x : Byte) (r : Nat) : (f.putM n x r).ilenc = f.ilenc := by unfold Fibre.putM; split <;> rfl
@[simp] theorem Fibre.putM_ilf0 (f : Fibre) (n : Nat) (x : Byte) (r : Nat) : (f.putM n x r).ilf0 = f.ilf0 := by unfold Fibre.putM; split <;> rfl
@[simp] theorem Fibre.putM_ilf1 (f : Fibre) (n : Nat) (x : Byte) (r : Nat) : (f.putM n x r).ilf1 = f.ilf1 := by unfold Fibre.putM; split <;> rfl
@[simp] theorem Fibre.putM_ilf2 (f : Fibre) (n : Nat) (x : Byte) (r : Nat) : (f.putM n x r).ilf2 = f.ilf2 := by unfold Fibre.putM; split <;> rfl
@[simp] theorem Fibre.putM_ilf3 (f : Fibre) (n : Nat) (x : Byte) (r : Nat) : (f.putM n x r).ilf3 = f.ilf3 := by unfold Fibre.putM; split <;> rfl
@[simp] theorem Fibre.putM_rec_ (f : Fibre) (n : Nat) (x : Byte) (r : Nat) : (f.putM n x r).rec_ = f.rec_ := by unfold Fibre.putM; split <;> rfl
@[simp] theorem Fibre.putM_repc (f : Fibre) (n : Nat) (x : Byte) (r : Nat) : (f.putM n x r).repc = f.repc := by unfold Fibre.putM; split <;> rfl
@[simp] theorem Fibre.putM_mdone (f : Fibre) (n : Nat) (x : Byte) (r : Nat) : (f.putM n x r).mdone = f.mdone := by unfold Fibre.putM; split <;> rfl
@[simp] theorem Fibre.putM_wait (f : Fibre) (n : Nat) (x : Byte) (r : Nat) : (f.putM n x r).wait = f.wait := by unfold Fibre.putM; split <;> rfl
@[simp] theorem Fibre.putM_age (f : Fibre) (n : Nat) (x : Byte) (r : Nat) : (f.putM n x r).age = f.age := by unfold Fibre.putM; split <;> rfl
@[simp] theorem Fibre.putM_ready (f : Fibre) (n : Nat) (x : Byte) (r : Nat) : (f.putM n x r).ready = f.ready := by unfold Fibre.putM; split <;> rfl
@[simp] theorem Fibre.putM_outst (f : Fibre) (n : Nat) (x : Byte) (r : Nat) : (f.putM n x r).outst = f.outst := by unfold Fibre.putM; split <;> rfl
@[simp] theorem Fibre.putM_late (f : Fibre) (n : Nat) (x : Byte) (r : Nat) : (f.putM n x r).late = f.late := by unfold Fibre.putM; split <;> rfl
@[simp] theorem Fibre.putM_trapped (f : Fibre) (n : Nat) (x : Byte) (r : Nat) : (f.putM n x r).trapped = f.trapped := by unfold Fibre.putM; split <;> rfl
@[simp] theorem Fibre.putM_units (f : Fibre) (n : Nat) (x : Byte) (r : Nat) : (f.putM n x r).units = f.units := by unfold Fibre.putM; split <;> rfl
@[simp] theorem Fibre.putM_cohort (f : Fibre) (n : Nat) (x : Byte) (r : Nat) : (f.putM n x r).cohort = f.cohort := by unfold Fibre.putM; split <;> rfl
@[simp] theorem Fibre.putM_pace (f : Fibre) (n : Nat) (x : Byte) (r : Nat) : (f.putM n x r).pace = f.pace := by unfold Fibre.putM; split <;> rfl

/-! ## Fibre.owe -/

@[simp] theorem Fibre.owe_core (f : Fibre) (n : Nat) (x b : W64) : (f.owe n x b).core = f.core := rfl
@[simp] theorem Fibre.owe_slot (f : Fibre) (n : Nat) (x b : W64) : (f.owe n x b).slot = f.slot := rfl
@[simp] theorem Fibre.owe_lane (f : Fibre) (n : Nat) (x b : W64) : (f.owe n x b).lane = f.lane := rfl
@[simp] theorem Fibre.owe_warpid (f : Fibre) (n : Nat) (x b : W64) : (f.owe n x b).warpid = f.warpid := rfl
@[simp] theorem Fibre.owe_helper (f : Fibre) (n : Nat) (x b : W64) : (f.owe n x b).helper = f.helper := rfl
@[simp] theorem Fibre.owe_pc (f : Fibre) (n : Nat) (x b : W64) : (f.owe n x b).pc = f.pc := rfl
@[simp] theorem Fibre.owe_winbase (f : Fibre) (n : Nat) (x b : W64) : (f.owe n x b).winbase = f.winbase := rfl
@[simp] theorem Fibre.owe_win (f : Fibre) (n : Nat) (x b : W64) : (f.owe n x b).win = f.win := rfl
@[simp] theorem Fibre.owe_pred (f : Fibre) (n : Nat) (x b : W64) : (f.owe n x b).pred = f.pred := rfl
@[simp] theorem Fibre.owe_lp0 (f : Fibre) (n : Nat) (x b : W64) : (f.owe n x b).lp0 = f.lp0 := rfl
@[simp] theorem Fibre.owe_lp1 (f : Fibre) (n : Nat) (x b : W64) : (f.owe n x b).lp1 = f.lp1 := rfl
@[simp] theorem Fibre.owe_lp2 (f : Fibre) (n : Nat) (x b : W64) : (f.owe n x b).lp2 = f.lp2 := rfl
@[simp] theorem Fibre.owe_fpctl (f : Fibre) (n : Nat) (x b : W64) : (f.owe n x b).fpctl = f.fpctl := rfl
@[simp] theorem Fibre.owe_trapcause (f : Fibre) (n : Nat) (x b : W64) : (f.owe n x b).trapcause = f.trapcause := rfl
@[simp] theorem Fibre.owe_trappc (f : Fibre) (n : Nat) (x b : W64) : (f.owe n x b).trappc = f.trappc := rfl
@[simp] theorem Fibre.owe_trapaddr (f : Fibre) (n : Nat) (x b : W64) : (f.owe n x b).trapaddr = f.trapaddr := rfl
@[simp] theorem Fibre.owe_ilenc (f : Fibre) (n : Nat) (x b : W64) : (f.owe n x b).ilenc = f.ilenc := rfl
@[simp] theorem Fibre.owe_ilf0 (f : Fibre) (n : Nat) (x b : W64) : (f.owe n x b).ilf0 = f.ilf0 := rfl
@[simp] theorem Fibre.owe_ilf1 (f : Fibre) (n : Nat) (x b : W64) : (f.owe n x b).ilf1 = f.ilf1 := rfl
@[simp] theorem Fibre.owe_ilf2 (f : Fibre) (n : Nat) (x b : W64) : (f.owe n x b).ilf2 = f.ilf2 := rfl
@[simp] theorem Fibre.owe_ilf3 (f : Fibre) (n : Nat) (x b : W64) : (f.owe n x b).ilf3 = f.ilf3 := rfl
@[simp] theorem Fibre.owe_rec_ (f : Fibre) (n : Nat) (x b : W64) : (f.owe n x b).rec_ = f.rec_ := rfl
@[simp] theorem Fibre.owe_repc (f : Fibre) (n : Nat) (x b : W64) : (f.owe n x b).repc = f.repc := rfl
@[simp] theorem Fibre.owe_mdone (f : Fibre) (n : Nat) (x b : W64) : (f.owe n x b).mdone = f.mdone := rfl
@[simp] theorem Fibre.owe_wait (f : Fibre) (n : Nat) (x b : W64) : (f.owe n x b).wait = f.wait := rfl
@[simp] theorem Fibre.owe_age (f : Fibre) (n : Nat) (x b : W64) : (f.owe n x b).age = f.age := rfl
@[simp] theorem Fibre.owe_ready (f : Fibre) (n : Nat) (x b : W64) : (f.owe n x b).ready = f.ready := rfl
@[simp] theorem Fibre.owe_late (f : Fibre) (n : Nat) (x b : W64) : (f.owe n x b).late = f.late := rfl
@[simp] theorem Fibre.owe_trapped (f : Fibre) (n : Nat) (x b : W64) : (f.owe n x b).trapped = f.trapped := rfl
@[simp] theorem Fibre.owe_units (f : Fibre) (n : Nat) (x b : W64) : (f.owe n x b).units = f.units := rfl
@[simp] theorem Fibre.owe_cohort (f : Fibre) (n : Nat) (x b : W64) : (f.owe n x b).cohort = f.cohort := rfl
@[simp] theorem Fibre.owe_pace (f : Fibre) (n : Nat) (x b : W64) : (f.owe n x b).pace = f.pace := rfl

/-! ## Fibre.counted -/

@[simp] theorem Fibre.counted_core (f : Fibre) (now pass : Nat) (lane : Bool) (stl : Nat) : (f.counted now pass lane stl).core = f.core := rfl
@[simp] theorem Fibre.counted_slot (f : Fibre) (now pass : Nat) (lane : Bool) (stl : Nat) : (f.counted now pass lane stl).slot = f.slot := rfl
@[simp] theorem Fibre.counted_lane (f : Fibre) (now pass : Nat) (lane : Bool) (stl : Nat) : (f.counted now pass lane stl).lane = f.lane := rfl
@[simp] theorem Fibre.counted_warpid (f : Fibre) (now pass : Nat) (lane : Bool) (stl : Nat) : (f.counted now pass lane stl).warpid = f.warpid := rfl
@[simp] theorem Fibre.counted_helper (f : Fibre) (now pass : Nat) (lane : Bool) (stl : Nat) : (f.counted now pass lane stl).helper = f.helper := rfl
@[simp] theorem Fibre.counted_pc (f : Fibre) (now pass : Nat) (lane : Bool) (stl : Nat) : (f.counted now pass lane stl).pc = f.pc := rfl
@[simp] theorem Fibre.counted_winbase (f : Fibre) (now pass : Nat) (lane : Bool) (stl : Nat) : (f.counted now pass lane stl).winbase = f.winbase := rfl
@[simp] theorem Fibre.counted_win (f : Fibre) (now pass : Nat) (lane : Bool) (stl : Nat) : (f.counted now pass lane stl).win = f.win := rfl
@[simp] theorem Fibre.counted_pred (f : Fibre) (now pass : Nat) (lane : Bool) (stl : Nat) : (f.counted now pass lane stl).pred = f.pred := rfl
@[simp] theorem Fibre.counted_lp0 (f : Fibre) (now pass : Nat) (lane : Bool) (stl : Nat) : (f.counted now pass lane stl).lp0 = f.lp0 := rfl
@[simp] theorem Fibre.counted_lp1 (f : Fibre) (now pass : Nat) (lane : Bool) (stl : Nat) : (f.counted now pass lane stl).lp1 = f.lp1 := rfl
@[simp] theorem Fibre.counted_lp2 (f : Fibre) (now pass : Nat) (lane : Bool) (stl : Nat) : (f.counted now pass lane stl).lp2 = f.lp2 := rfl
@[simp] theorem Fibre.counted_fpctl (f : Fibre) (now pass : Nat) (lane : Bool) (stl : Nat) : (f.counted now pass lane stl).fpctl = f.fpctl := rfl
@[simp] theorem Fibre.counted_trapcause (f : Fibre) (now pass : Nat) (lane : Bool) (stl : Nat) : (f.counted now pass lane stl).trapcause = f.trapcause := rfl
@[simp] theorem Fibre.counted_trappc (f : Fibre) (now pass : Nat) (lane : Bool) (stl : Nat) : (f.counted now pass lane stl).trappc = f.trappc := rfl
@[simp] theorem Fibre.counted_trapaddr (f : Fibre) (now pass : Nat) (lane : Bool) (stl : Nat) : (f.counted now pass lane stl).trapaddr = f.trapaddr := rfl
@[simp] theorem Fibre.counted_ilenc (f : Fibre) (now pass : Nat) (lane : Bool) (stl : Nat) : (f.counted now pass lane stl).ilenc = f.ilenc := rfl
@[simp] theorem Fibre.counted_ilf0 (f : Fibre) (now pass : Nat) (lane : Bool) (stl : Nat) : (f.counted now pass lane stl).ilf0 = f.ilf0 := rfl
@[simp] theorem Fibre.counted_ilf1 (f : Fibre) (now pass : Nat) (lane : Bool) (stl : Nat) : (f.counted now pass lane stl).ilf1 = f.ilf1 := rfl
@[simp] theorem Fibre.counted_ilf2 (f : Fibre) (now pass : Nat) (lane : Bool) (stl : Nat) : (f.counted now pass lane stl).ilf2 = f.ilf2 := rfl
@[simp] theorem Fibre.counted_ilf3 (f : Fibre) (now pass : Nat) (lane : Bool) (stl : Nat) : (f.counted now pass lane stl).ilf3 = f.ilf3 := rfl
@[simp] theorem Fibre.counted_rec_ (f : Fibre) (now pass : Nat) (lane : Bool) (stl : Nat) : (f.counted now pass lane stl).rec_ = f.rec_ := rfl
@[simp] theorem Fibre.counted_repc (f : Fibre) (now pass : Nat) (lane : Bool) (stl : Nat) : (f.counted now pass lane stl).repc = f.repc := rfl
@[simp] theorem Fibre.counted_mdone (f : Fibre) (now pass : Nat) (lane : Bool) (stl : Nat) : (f.counted now pass lane stl).mdone = f.mdone := rfl
@[simp] theorem Fibre.counted_wait (f : Fibre) (now pass : Nat) (lane : Bool) (stl : Nat) : (f.counted now pass lane stl).wait = f.wait := rfl
@[simp] theorem Fibre.counted_age (f : Fibre) (now pass : Nat) (lane : Bool) (stl : Nat) : (f.counted now pass lane stl).age = f.age := rfl
@[simp] theorem Fibre.counted_infl (f : Fibre) (now pass : Nat) (lane : Bool) (stl : Nat) : (f.counted now pass lane stl).infl = f.infl := rfl
@[simp] theorem Fibre.counted_outst (f : Fibre) (now pass : Nat) (lane : Bool) (stl : Nat) : (f.counted now pass lane stl).outst = f.outst := rfl
@[simp] theorem Fibre.counted_late (f : Fibre) (now pass : Nat) (lane : Bool) (stl : Nat) : (f.counted now pass lane stl).late = f.late := rfl
@[simp] theorem Fibre.counted_trapped (f : Fibre) (now pass : Nat) (lane : Bool) (stl : Nat) : (f.counted now pass lane stl).trapped = f.trapped := rfl
@[simp] theorem Fibre.counted_units (f : Fibre) (now pass : Nat) (lane : Bool) (stl : Nat) : (f.counted now pass lane stl).units = f.units := rfl
@[simp] theorem Fibre.counted_cohort (f : Fibre) (now pass : Nat) (lane : Bool) (stl : Nat) : (f.counted now pass lane stl).cohort = f.cohort := rfl

/-! ## Fibre.issued -/

@[simp] theorem Fibre.issued_core (f : Fibre) (now pass : Nat) (lane : Bool) (stl free : Nat) : (f.issued now pass lane stl free).core = f.core := rfl
@[simp] theorem Fibre.issued_slot (f : Fibre) (now pass : Nat) (lane : Bool) (stl free : Nat) : (f.issued now pass lane stl free).slot = f.slot := rfl
@[simp] theorem Fibre.issued_lane (f : Fibre) (now pass : Nat) (lane : Bool) (stl free : Nat) : (f.issued now pass lane stl free).lane = f.lane := rfl
@[simp] theorem Fibre.issued_warpid (f : Fibre) (now pass : Nat) (lane : Bool) (stl free : Nat) : (f.issued now pass lane stl free).warpid = f.warpid := rfl
@[simp] theorem Fibre.issued_helper (f : Fibre) (now pass : Nat) (lane : Bool) (stl free : Nat) : (f.issued now pass lane stl free).helper = f.helper := rfl
@[simp] theorem Fibre.issued_pc (f : Fibre) (now pass : Nat) (lane : Bool) (stl free : Nat) : (f.issued now pass lane stl free).pc = f.pc := rfl
@[simp] theorem Fibre.issued_winbase (f : Fibre) (now pass : Nat) (lane : Bool) (stl free : Nat) : (f.issued now pass lane stl free).winbase = f.winbase := rfl
@[simp] theorem Fibre.issued_win (f : Fibre) (now pass : Nat) (lane : Bool) (stl free : Nat) : (f.issued now pass lane stl free).win = f.win := rfl
@[simp] theorem Fibre.issued_pred (f : Fibre) (now pass : Nat) (lane : Bool) (stl free : Nat) : (f.issued now pass lane stl free).pred = f.pred := rfl
@[simp] theorem Fibre.issued_lp0 (f : Fibre) (now pass : Nat) (lane : Bool) (stl free : Nat) : (f.issued now pass lane stl free).lp0 = f.lp0 := rfl
@[simp] theorem Fibre.issued_lp1 (f : Fibre) (now pass : Nat) (lane : Bool) (stl free : Nat) : (f.issued now pass lane stl free).lp1 = f.lp1 := rfl
@[simp] theorem Fibre.issued_lp2 (f : Fibre) (now pass : Nat) (lane : Bool) (stl free : Nat) : (f.issued now pass lane stl free).lp2 = f.lp2 := rfl
@[simp] theorem Fibre.issued_fpctl (f : Fibre) (now pass : Nat) (lane : Bool) (stl free : Nat) : (f.issued now pass lane stl free).fpctl = f.fpctl := rfl
@[simp] theorem Fibre.issued_trapcause (f : Fibre) (now pass : Nat) (lane : Bool) (stl free : Nat) : (f.issued now pass lane stl free).trapcause = f.trapcause := rfl
@[simp] theorem Fibre.issued_trappc (f : Fibre) (now pass : Nat) (lane : Bool) (stl free : Nat) : (f.issued now pass lane stl free).trappc = f.trappc := rfl
@[simp] theorem Fibre.issued_trapaddr (f : Fibre) (now pass : Nat) (lane : Bool) (stl free : Nat) : (f.issued now pass lane stl free).trapaddr = f.trapaddr := rfl
@[simp] theorem Fibre.issued_ilenc (f : Fibre) (now pass : Nat) (lane : Bool) (stl free : Nat) : (f.issued now pass lane stl free).ilenc = f.ilenc := rfl
@[simp] theorem Fibre.issued_ilf0 (f : Fibre) (now pass : Nat) (lane : Bool) (stl free : Nat) : (f.issued now pass lane stl free).ilf0 = f.ilf0 := rfl
@[simp] theorem Fibre.issued_ilf1 (f : Fibre) (now pass : Nat) (lane : Bool) (stl free : Nat) : (f.issued now pass lane stl free).ilf1 = f.ilf1 := rfl
@[simp] theorem Fibre.issued_ilf2 (f : Fibre) (now pass : Nat) (lane : Bool) (stl free : Nat) : (f.issued now pass lane stl free).ilf2 = f.ilf2 := rfl
@[simp] theorem Fibre.issued_ilf3 (f : Fibre) (now pass : Nat) (lane : Bool) (stl free : Nat) : (f.issued now pass lane stl free).ilf3 = f.ilf3 := rfl
@[simp] theorem Fibre.issued_rec_ (f : Fibre) (now pass : Nat) (lane : Bool) (stl free : Nat) : (f.issued now pass lane stl free).rec_ = f.rec_ := rfl
@[simp] theorem Fibre.issued_repc (f : Fibre) (now pass : Nat) (lane : Bool) (stl free : Nat) : (f.issued now pass lane stl free).repc = f.repc := rfl
@[simp] theorem Fibre.issued_mdone (f : Fibre) (now pass : Nat) (lane : Bool) (stl free : Nat) : (f.issued now pass lane stl free).mdone = f.mdone := rfl
@[simp] theorem Fibre.issued_wait (f : Fibre) (now pass : Nat) (lane : Bool) (stl free : Nat) : (f.issued now pass lane stl free).wait = f.wait := rfl
@[simp] theorem Fibre.issued_infl (f : Fibre) (now pass : Nat) (lane : Bool) (stl free : Nat) : (f.issued now pass lane stl free).infl = f.infl := rfl
@[simp] theorem Fibre.issued_outst (f : Fibre) (now pass : Nat) (lane : Bool) (stl free : Nat) : (f.issued now pass lane stl free).outst = f.outst := rfl
@[simp] theorem Fibre.issued_late (f : Fibre) (now pass : Nat) (lane : Bool) (stl free : Nat) : (f.issued now pass lane stl free).late = f.late := rfl
@[simp] theorem Fibre.issued_trapped (f : Fibre) (now pass : Nat) (lane : Bool) (stl free : Nat) : (f.issued now pass lane stl free).trapped = f.trapped := rfl
@[simp] theorem Fibre.issued_units (f : Fibre) (now pass : Nat) (lane : Bool) (stl free : Nat) : (f.issued now pass lane stl free).units = f.units := rfl

/-! ## Fibre.close -/

@[simp] theorem Fibre.close_core (f : Fibre) (a : Addr48) : (f.close a).core = f.core := rfl
@[simp] theorem Fibre.close_slot (f : Fibre) (a : Addr48) : (f.close a).slot = f.slot := rfl
@[simp] theorem Fibre.close_lane (f : Fibre) (a : Addr48) : (f.close a).lane = f.lane := rfl
@[simp] theorem Fibre.close_warpid (f : Fibre) (a : Addr48) : (f.close a).warpid = f.warpid := rfl
@[simp] theorem Fibre.close_helper (f : Fibre) (a : Addr48) : (f.close a).helper = f.helper := rfl
@[simp] theorem Fibre.close_pc (f : Fibre) (a : Addr48) : (f.close a).pc = f.pc := rfl
@[simp] theorem Fibre.close_winbase (f : Fibre) (a : Addr48) : (f.close a).winbase = f.winbase := rfl
@[simp] theorem Fibre.close_win (f : Fibre) (a : Addr48) : (f.close a).win = f.win := rfl
@[simp] theorem Fibre.close_pred (f : Fibre) (a : Addr48) : (f.close a).pred = f.pred := rfl
@[simp] theorem Fibre.close_lp0 (f : Fibre) (a : Addr48) : (f.close a).lp0 = f.lp0 := rfl
@[simp] theorem Fibre.close_lp1 (f : Fibre) (a : Addr48) : (f.close a).lp1 = f.lp1 := rfl
@[simp] theorem Fibre.close_lp2 (f : Fibre) (a : Addr48) : (f.close a).lp2 = f.lp2 := rfl
@[simp] theorem Fibre.close_fpctl (f : Fibre) (a : Addr48) : (f.close a).fpctl = f.fpctl := rfl
@[simp] theorem Fibre.close_trapcause (f : Fibre) (a : Addr48) : (f.close a).trapcause = f.trapcause := rfl
@[simp] theorem Fibre.close_trappc (f : Fibre) (a : Addr48) : (f.close a).trappc = f.trappc := rfl
@[simp] theorem Fibre.close_trapaddr (f : Fibre) (a : Addr48) : (f.close a).trapaddr = f.trapaddr := rfl
@[simp] theorem Fibre.close_ilenc (f : Fibre) (a : Addr48) : (f.close a).ilenc = f.ilenc := rfl
@[simp] theorem Fibre.close_ilf0 (f : Fibre) (a : Addr48) : (f.close a).ilf0 = f.ilf0 := rfl
@[simp] theorem Fibre.close_ilf1 (f : Fibre) (a : Addr48) : (f.close a).ilf1 = f.ilf1 := rfl
@[simp] theorem Fibre.close_ilf2 (f : Fibre) (a : Addr48) : (f.close a).ilf2 = f.ilf2 := rfl
@[simp] theorem Fibre.close_ilf3 (f : Fibre) (a : Addr48) : (f.close a).ilf3 = f.ilf3 := rfl
@[simp] theorem Fibre.close_mdone (f : Fibre) (a : Addr48) : (f.close a).mdone = f.mdone := rfl
@[simp] theorem Fibre.close_wait (f : Fibre) (a : Addr48) : (f.close a).wait = f.wait := rfl
@[simp] theorem Fibre.close_age (f : Fibre) (a : Addr48) : (f.close a).age = f.age := rfl
@[simp] theorem Fibre.close_ready (f : Fibre) (a : Addr48) : (f.close a).ready = f.ready := rfl
@[simp] theorem Fibre.close_infl (f : Fibre) (a : Addr48) : (f.close a).infl = f.infl := rfl
@[simp] theorem Fibre.close_outst (f : Fibre) (a : Addr48) : (f.close a).outst = f.outst := rfl
@[simp] theorem Fibre.close_late (f : Fibre) (a : Addr48) : (f.close a).late = f.late := rfl
@[simp] theorem Fibre.close_trapped (f : Fibre) (a : Addr48) : (f.close a).trapped = f.trapped := rfl
@[simp] theorem Fibre.close_units (f : Fibre) (a : Addr48) : (f.close a).units = f.units := rfl
@[simp] theorem Fibre.close_cohort (f : Fibre) (a : Addr48) : (f.close a).cohort = f.cohort := rfl
@[simp] theorem Fibre.close_pace (f : Fibre) (a : Addr48) : (f.close a).pace = f.pace := rfl

/-! ## Fibre.loopEnd -/

@[simp] theorem Fibre.loopEnd_core (f : Fibre) (a : Addr48) : (f.loopEnd a).core = f.core := by unfold Fibre.loopEnd; dsimp only; repeat (first | rfl | split)
@[simp] theorem Fibre.loopEnd_slot (f : Fibre) (a : Addr48) : (f.loopEnd a).slot = f.slot := by unfold Fibre.loopEnd; dsimp only; repeat (first | rfl | split)
@[simp] theorem Fibre.loopEnd_lane (f : Fibre) (a : Addr48) : (f.loopEnd a).lane = f.lane := by unfold Fibre.loopEnd; dsimp only; repeat (first | rfl | split)
@[simp] theorem Fibre.loopEnd_warpid (f : Fibre) (a : Addr48) : (f.loopEnd a).warpid = f.warpid := by unfold Fibre.loopEnd; dsimp only; repeat (first | rfl | split)
@[simp] theorem Fibre.loopEnd_helper (f : Fibre) (a : Addr48) : (f.loopEnd a).helper = f.helper := by unfold Fibre.loopEnd; dsimp only; repeat (first | rfl | split)
@[simp] theorem Fibre.loopEnd_winbase (f : Fibre) (a : Addr48) : (f.loopEnd a).winbase = f.winbase := by unfold Fibre.loopEnd; dsimp only; repeat (first | rfl | split)
@[simp] theorem Fibre.loopEnd_win (f : Fibre) (a : Addr48) : (f.loopEnd a).win = f.win := by unfold Fibre.loopEnd; dsimp only; repeat (first | rfl | split)
@[simp] theorem Fibre.loopEnd_pred (f : Fibre) (a : Addr48) : (f.loopEnd a).pred = f.pred := by unfold Fibre.loopEnd; dsimp only; repeat (first | rfl | split)
@[simp] theorem Fibre.loopEnd_fpctl (f : Fibre) (a : Addr48) : (f.loopEnd a).fpctl = f.fpctl := by unfold Fibre.loopEnd; dsimp only; repeat (first | rfl | split)
@[simp] theorem Fibre.loopEnd_trapcause (f : Fibre) (a : Addr48) : (f.loopEnd a).trapcause = f.trapcause := by unfold Fibre.loopEnd; dsimp only; repeat (first | rfl | split)
@[simp] theorem Fibre.loopEnd_trappc (f : Fibre) (a : Addr48) : (f.loopEnd a).trappc = f.trappc := by unfold Fibre.loopEnd; dsimp only; repeat (first | rfl | split)
@[simp] theorem Fibre.loopEnd_trapaddr (f : Fibre) (a : Addr48) : (f.loopEnd a).trapaddr = f.trapaddr := by unfold Fibre.loopEnd; dsimp only; repeat (first | rfl | split)
@[simp] theorem Fibre.loopEnd_ilenc (f : Fibre) (a : Addr48) : (f.loopEnd a).ilenc = f.ilenc := by unfold Fibre.loopEnd; dsimp only; repeat (first | rfl | split)
@[simp] theorem Fibre.loopEnd_ilf0 (f : Fibre) (a : Addr48) : (f.loopEnd a).ilf0 = f.ilf0 := by unfold Fibre.loopEnd; dsimp only; repeat (first | rfl | split)
@[simp] theorem Fibre.loopEnd_ilf1 (f : Fibre) (a : Addr48) : (f.loopEnd a).ilf1 = f.ilf1 := by unfold Fibre.loopEnd; dsimp only; repeat (first | rfl | split)
@[simp] theorem Fibre.loopEnd_ilf2 (f : Fibre) (a : Addr48) : (f.loopEnd a).ilf2 = f.ilf2 := by unfold Fibre.loopEnd; dsimp only; repeat (first | rfl | split)
@[simp] theorem Fibre.loopEnd_ilf3 (f : Fibre) (a : Addr48) : (f.loopEnd a).ilf3 = f.ilf3 := by unfold Fibre.loopEnd; dsimp only; repeat (first | rfl | split)
@[simp] theorem Fibre.loopEnd_rec_ (f : Fibre) (a : Addr48) : (f.loopEnd a).rec_ = f.rec_ := by unfold Fibre.loopEnd; dsimp only; repeat (first | rfl | split)
@[simp] theorem Fibre.loopEnd_repc (f : Fibre) (a : Addr48) : (f.loopEnd a).repc = f.repc := by unfold Fibre.loopEnd; dsimp only; repeat (first | rfl | split)
@[simp] theorem Fibre.loopEnd_mdone (f : Fibre) (a : Addr48) : (f.loopEnd a).mdone = f.mdone := by unfold Fibre.loopEnd; dsimp only; repeat (first | rfl | split)
@[simp] theorem Fibre.loopEnd_wait (f : Fibre) (a : Addr48) : (f.loopEnd a).wait = f.wait := by unfold Fibre.loopEnd; dsimp only; repeat (first | rfl | split)
@[simp] theorem Fibre.loopEnd_age (f : Fibre) (a : Addr48) : (f.loopEnd a).age = f.age := by unfold Fibre.loopEnd; dsimp only; repeat (first | rfl | split)
@[simp] theorem Fibre.loopEnd_ready (f : Fibre) (a : Addr48) : (f.loopEnd a).ready = f.ready := by unfold Fibre.loopEnd; dsimp only; repeat (first | rfl | split)
@[simp] theorem Fibre.loopEnd_infl (f : Fibre) (a : Addr48) : (f.loopEnd a).infl = f.infl := by unfold Fibre.loopEnd; dsimp only; repeat (first | rfl | split)
@[simp] theorem Fibre.loopEnd_outst (f : Fibre) (a : Addr48) : (f.loopEnd a).outst = f.outst := by unfold Fibre.loopEnd; dsimp only; repeat (first | rfl | split)
@[simp] theorem Fibre.loopEnd_late (f : Fibre) (a : Addr48) : (f.loopEnd a).late = f.late := by unfold Fibre.loopEnd; dsimp only; repeat (first | rfl | split)
@[simp] theorem Fibre.loopEnd_trapped (f : Fibre) (a : Addr48) : (f.loopEnd a).trapped = f.trapped := by unfold Fibre.loopEnd; dsimp only; repeat (first | rfl | split)
@[simp] theorem Fibre.loopEnd_units (f : Fibre) (a : Addr48) : (f.loopEnd a).units = f.units := by unfold Fibre.loopEnd; dsimp only; repeat (first | rfl | split)
@[simp] theorem Fibre.loopEnd_cohort (f : Fibre) (a : Addr48) : (f.loopEnd a).cohort = f.cohort := by unfold Fibre.loopEnd; dsimp only; repeat (first | rfl | split)
@[simp] theorem Fibre.loopEnd_pace (f : Fibre) (a : Addr48) : (f.loopEnd a).pace = f.pace := by unfold Fibre.loopEnd; dsimp only; repeat (first | rfl | split)

/-! ## Fibre.goOn -/

@[simp] theorem Fibre.goOn_core (f : Fibre) : (f.goOn).core = f.core := by simp [Fibre.goOn]
@[simp] theorem Fibre.goOn_slot (f : Fibre) : (f.goOn).slot = f.slot := by simp [Fibre.goOn]
@[simp] theorem Fibre.goOn_lane (f : Fibre) : (f.goOn).lane = f.lane := by simp [Fibre.goOn]
@[simp] theorem Fibre.goOn_warpid (f : Fibre) : (f.goOn).warpid = f.warpid := by simp [Fibre.goOn]
@[simp] theorem Fibre.goOn_helper (f : Fibre) : (f.goOn).helper = f.helper := by simp [Fibre.goOn]
@[simp] theorem Fibre.goOn_winbase (f : Fibre) : (f.goOn).winbase = f.winbase := by simp [Fibre.goOn]
@[simp] theorem Fibre.goOn_win (f : Fibre) : (f.goOn).win = f.win := by simp [Fibre.goOn]
@[simp] theorem Fibre.goOn_pred (f : Fibre) : (f.goOn).pred = f.pred := by simp [Fibre.goOn]
@[simp] theorem Fibre.goOn_fpctl (f : Fibre) : (f.goOn).fpctl = f.fpctl := by simp [Fibre.goOn]
@[simp] theorem Fibre.goOn_trapcause (f : Fibre) : (f.goOn).trapcause = f.trapcause := by simp [Fibre.goOn]
@[simp] theorem Fibre.goOn_trappc (f : Fibre) : (f.goOn).trappc = f.trappc := by simp [Fibre.goOn]
@[simp] theorem Fibre.goOn_trapaddr (f : Fibre) : (f.goOn).trapaddr = f.trapaddr := by simp [Fibre.goOn]
@[simp] theorem Fibre.goOn_ilenc (f : Fibre) : (f.goOn).ilenc = f.ilenc := by simp [Fibre.goOn]
@[simp] theorem Fibre.goOn_ilf0 (f : Fibre) : (f.goOn).ilf0 = f.ilf0 := by simp [Fibre.goOn]
@[simp] theorem Fibre.goOn_ilf1 (f : Fibre) : (f.goOn).ilf1 = f.ilf1 := by simp [Fibre.goOn]
@[simp] theorem Fibre.goOn_ilf2 (f : Fibre) : (f.goOn).ilf2 = f.ilf2 := by simp [Fibre.goOn]
@[simp] theorem Fibre.goOn_ilf3 (f : Fibre) : (f.goOn).ilf3 = f.ilf3 := by simp [Fibre.goOn]
@[simp] theorem Fibre.goOn_rec_ (f : Fibre) : (f.goOn).rec_ = f.rec_ := by simp [Fibre.goOn]
@[simp] theorem Fibre.goOn_repc (f : Fibre) : (f.goOn).repc = f.repc := by simp [Fibre.goOn]
@[simp] theorem Fibre.goOn_mdone (f : Fibre) : (f.goOn).mdone = f.mdone := by simp [Fibre.goOn]
@[simp] theorem Fibre.goOn_wait (f : Fibre) : (f.goOn).wait = f.wait := by simp [Fibre.goOn]
@[simp] theorem Fibre.goOn_age (f : Fibre) : (f.goOn).age = f.age := by simp [Fibre.goOn]
@[simp] theorem Fibre.goOn_ready (f : Fibre) : (f.goOn).ready = f.ready := by simp [Fibre.goOn]
@[simp] theorem Fibre.goOn_infl (f : Fibre) : (f.goOn).infl = f.infl := by simp [Fibre.goOn]
@[simp] theorem Fibre.goOn_outst (f : Fibre) : (f.goOn).outst = f.outst := by simp [Fibre.goOn]
@[simp] theorem Fibre.goOn_late (f : Fibre) : (f.goOn).late = f.late := by simp [Fibre.goOn]
@[simp] theorem Fibre.goOn_trapped (f : Fibre) : (f.goOn).trapped = f.trapped := by simp [Fibre.goOn]
@[simp] theorem Fibre.goOn_units (f : Fibre) : (f.goOn).units = f.units := by simp [Fibre.goOn]
@[simp] theorem Fibre.goOn_cohort (f : Fibre) : (f.goOn).cohort = f.cohort := by simp [Fibre.goOn]
@[simp] theorem Fibre.goOn_pace (f : Fibre) : (f.goOn).pace = f.pace := by simp [Fibre.goOn]

/-! ## Fibre.release -/

@[simp] theorem Fibre.release_core (f : Fibre) (p : Addr48) (now m : Nat) : (f.release p now m).core = f.core := rfl
@[simp] theorem Fibre.release_slot (f : Fibre) (p : Addr48) (now m : Nat) : (f.release p now m).slot = f.slot := rfl
@[simp] theorem Fibre.release_lane (f : Fibre) (p : Addr48) (now m : Nat) : (f.release p now m).lane = f.lane := rfl
@[simp] theorem Fibre.release_warpid (f : Fibre) (p : Addr48) (now m : Nat) : (f.release p now m).warpid = f.warpid := rfl
@[simp] theorem Fibre.release_helper (f : Fibre) (p : Addr48) (now m : Nat) : (f.release p now m).helper = f.helper := rfl
@[simp] theorem Fibre.release_winbase (f : Fibre) (p : Addr48) (now m : Nat) : (f.release p now m).winbase = f.winbase := rfl
@[simp] theorem Fibre.release_win (f : Fibre) (p : Addr48) (now m : Nat) : (f.release p now m).win = f.win := rfl
@[simp] theorem Fibre.release_pred (f : Fibre) (p : Addr48) (now m : Nat) : (f.release p now m).pred = f.pred := rfl
@[simp] theorem Fibre.release_lp0 (f : Fibre) (p : Addr48) (now m : Nat) : (f.release p now m).lp0 = f.lp0 := rfl
@[simp] theorem Fibre.release_lp1 (f : Fibre) (p : Addr48) (now m : Nat) : (f.release p now m).lp1 = f.lp1 := rfl
@[simp] theorem Fibre.release_lp2 (f : Fibre) (p : Addr48) (now m : Nat) : (f.release p now m).lp2 = f.lp2 := rfl
@[simp] theorem Fibre.release_fpctl (f : Fibre) (p : Addr48) (now m : Nat) : (f.release p now m).fpctl = f.fpctl := rfl
@[simp] theorem Fibre.release_trapcause (f : Fibre) (p : Addr48) (now m : Nat) : (f.release p now m).trapcause = f.trapcause := rfl
@[simp] theorem Fibre.release_trappc (f : Fibre) (p : Addr48) (now m : Nat) : (f.release p now m).trappc = f.trappc := rfl
@[simp] theorem Fibre.release_trapaddr (f : Fibre) (p : Addr48) (now m : Nat) : (f.release p now m).trapaddr = f.trapaddr := rfl
@[simp] theorem Fibre.release_ilenc (f : Fibre) (p : Addr48) (now m : Nat) : (f.release p now m).ilenc = f.ilenc := rfl
@[simp] theorem Fibre.release_ilf0 (f : Fibre) (p : Addr48) (now m : Nat) : (f.release p now m).ilf0 = f.ilf0 := rfl
@[simp] theorem Fibre.release_ilf1 (f : Fibre) (p : Addr48) (now m : Nat) : (f.release p now m).ilf1 = f.ilf1 := rfl
@[simp] theorem Fibre.release_ilf2 (f : Fibre) (p : Addr48) (now m : Nat) : (f.release p now m).ilf2 = f.ilf2 := rfl
@[simp] theorem Fibre.release_ilf3 (f : Fibre) (p : Addr48) (now m : Nat) : (f.release p now m).ilf3 = f.ilf3 := rfl
@[simp] theorem Fibre.release_rec_ (f : Fibre) (p : Addr48) (now m : Nat) : (f.release p now m).rec_ = f.rec_ := rfl
@[simp] theorem Fibre.release_repc (f : Fibre) (p : Addr48) (now m : Nat) : (f.release p now m).repc = f.repc := rfl
@[simp] theorem Fibre.release_mdone (f : Fibre) (p : Addr48) (now m : Nat) : (f.release p now m).mdone = f.mdone := rfl
@[simp] theorem Fibre.release_infl (f : Fibre) (p : Addr48) (now m : Nat) : (f.release p now m).infl = f.infl := rfl
@[simp] theorem Fibre.release_outst (f : Fibre) (p : Addr48) (now m : Nat) : (f.release p now m).outst = f.outst := rfl
@[simp] theorem Fibre.release_late (f : Fibre) (p : Addr48) (now m : Nat) : (f.release p now m).late = f.late := rfl
@[simp] theorem Fibre.release_trapped (f : Fibre) (p : Addr48) (now m : Nat) : (f.release p now m).trapped = f.trapped := rfl
@[simp] theorem Fibre.release_units (f : Fibre) (p : Addr48) (now m : Nat) : (f.release p now m).units = f.units := rfl
@[simp] theorem Fibre.release_pace (f : Fibre) (p : Addr48) (now m : Nat) : (f.release p now m).pace = f.pace := rfl

end Sys2Proof.Machine
end

