-- ==== Sys2Proof/Laws/Batch.lean ====
section
/-! SUPPORT. What the operations on a batch can do: the checks before an instruction, what an update of the active fibres leaves, and
where the fibres go on. -/

namespace Sys2Proof.Machine

/-! ## The checks -/

/-- Where the checks pass, an instruction is its body. -/
theorem Dev.guard_of_passes {d : Dev} {i : Instr} (h : d.passes i = true) (body : Dev → Dev) : d.guard i body = body d := by
  simp only [Dev.passes, List.all_eq_true, Bool.and_eq_true, Option.isNone_iff_eq_none, Bool.not_eq_true'] at h
  have h1 : (d.active.any fun f => ((windowReject (usesOf i) f).or none).isSome) = false := by
    rw [List.any_eq_false]
    intro f hf
    simp [(h f hf).1]
  have h2 : (d.sbchk && d.active.any (d.isShort (usesOf i))) = false := by
    rw [Bool.and_eq_false_iff]
    by_cases hs : d.sbchk = true
    · right
      rw [List.any_eq_false]
      intro f hf
      have := (h f hf).2
      simpa [hs] using this
    · left; simpa using hs
  unfold Dev.guard Dev.guardWith
  rw [if_neg (by simpa using h1), if_neg (by simpa using h2)]

/-- Where the checks pass, a device instruction gives the next state of its body. -/
theorem State.run_of_passes {s : State} {i : Instr} (h : s.dev.passes i = true) (body : Dev → Dev) :
    s.run i body = .next { s with dev := body s.dev } := by
  simp only [State.run, State.onDev, Dev.guard_of_passes h]

/-- Every register that a passing instruction names lies in the window. -/
theorem Dev.passes_window {d : Dev} {i : Instr} (h : d.passes i = true) {f : Fibre} (hf : f ∈ d.active) {u : Use}
    (hu : u ∈ usesOf i) {n : Nat} (hn : u.reg = .v n) : n < f.win.length := by
  simp only [Dev.passes, List.all_eq_true, Bool.and_eq_true, Option.isNone_iff_eq_none] at h
  have h1 := (h f hf).1
  simp only [windowReject, Option.map_eq_none_iff, List.find?_eq_none] at h1
  have := h1 u hu
  simpa [hn] using this

/-! ## Fibres at their places -/

theorem updWhere_nil {α : Type} (p : α → Bool) (f : α → α) : updWhere p f [] = [] := rfl

/-- A fibre whose place an update keeps is found changed. -/
theorem Dev.fibre?_updFibres (d : Dev) (p : Fibre → Bool) (g : Fibre → Fibre)
    (hg : ∀ f, (g f).core = f.core ∧ (g f).slot = f.slot ∧ (g f).lane = f.lane) (c n l : Nat) :
    (d.updFibres p g).fibre? c n l = (d.fibre? c n l).map fun f => if p f then g f else f := by
  simp only [Dev.fibre?, Dev.updFibres_fibres, updWhere]
  induction d.fibres with
  | nil => rfl
  | cons x xs ih =>
    have hx : (((if p x = true then g x else x).core == c && (if p x = true then g x else x).slot == n &&
        (if p x = true then g x else x).lane == l)) = (x.core == c && x.slot == n && x.lane == l) := by
      split
      · rw [(hg x).1, (hg x).2.1, (hg x).2.2]
      · rfl
    rw [List.map_cons, List.find?_cons, List.find?_cons, hx]
    cases x.core == c && x.slot == n && x.lane == l
    · exact ih
    · rfl

/-- The place of a fibre that is found. -/
theorem Dev.fibre?_place {d : Dev} {c n l : Nat} {f : Fibre} (h : d.fibre? c n l = some f) :
    f.core = c ∧ f.slot = n ∧ f.lane = l := by
  have := List.find?_some h
  simpa [and_assoc] using this

/-- An active fibre is a member of the batch, and is the fibre found at its place. -/
theorem Dev.mem_active {d : Dev} {f : Fibre} (h : f ∈ d.active) :
    d.cur.has f = true ∧ d.fibre? f.core f.slot f.lane = some f ∧ f.core = d.cur.core := by
  simp only [Dev.active, List.mem_filterMap] at h
  obtain ⟨m, hm, hf⟩ := h
  obtain ⟨h1, h2, h3⟩ := Dev.fibre?_place hf
  refine ⟨?_, by rw [h1, h2, h3]; exact hf, h1⟩
  simp [Batch.has, h1, h2, h3, hm]

/-- A fibre at a place of the batch is active. -/
theorem Dev.active_of_has {d : Dev} {c n l : Nat} {f : Fibre} (h : d.fibre? c n l = some f) (hb : d.cur.has f = true) :
    f ∈ d.active := by
  obtain ⟨h1, h2, h3⟩ := Dev.fibre?_place h
  simp only [Batch.has, Bool.and_eq_true, beq_iff_eq, List.contains_iff_mem] at hb
  simp only [Dev.active, List.mem_filterMap]
  refine ⟨(f.slot, f.lane), hb.2, ?_⟩
  rw [← hb.1, h1, h2, h3]
  exact h

/-- After an update of the active fibres, an active fibre is found changed. -/
theorem Dev.fibre?_updActive_mem {d : Dev} {g : Fibre → Fibre}
    (hg : ∀ f, (g f).core = f.core ∧ (g f).slot = f.slot ∧ (g f).lane = f.lane) {f : Fibre} (hf : f ∈ d.active) :
    (d.updActive g).fibre? f.core f.slot f.lane = some (g f) := by
  obtain ⟨h1, h2, _⟩ := Dev.mem_active hf
  unfold Dev.updActive
  rw [Dev.fibre?_updFibres d _ g hg, h2]
  simp [h1]

/-- After an update of the active fibres, the other fibres are as they were. -/
theorem Dev.fibre?_updActive_other {d : Dev} {g : Fibre → Fibre}
    (hg : ∀ f, (g f).core = f.core ∧ (g f).slot = f.slot ∧ (g f).lane = f.lane) {c n l : Nat}
    (ho : ¬(c = d.cur.core ∧ (n, l) ∈ d.cur.members)) : (d.updActive g).fibre? c n l = d.fibre? c n l := by
  unfold Dev.updActive
  rw [Dev.fibre?_updFibres d _ g hg]
  cases h : d.fibre? c n l with
  | none => rfl
  | some f =>
    obtain ⟨h1, h2, h3⟩ := Dev.fibre?_place h
    have : d.cur.has f = false := by
      rw [Bool.eq_false_iff]
      intro hb
      simp only [Batch.has, Bool.and_eq_true, beq_iff_eq, List.contains_iff_mem] at hb
      exact ho ⟨by rw [← h1]; exact hb.1, by rw [← h2, ← h3]; exact hb.2⟩
    simp [this]

/-! ## Updates one after the other -/

/-- Two updates of the active fibres are one. -/
theorem Dev.updActive_updActive (d : Dev) (g k : Fibre → Fibre)
    (hg : ∀ f, (g f).core = f.core ∧ (g f).slot = f.slot ∧ (g f).lane = f.lane) :
    (d.updActive g).updActive k = d.updActive (k ∘ g) := by
  have hb (f : Fibre) : d.cur.has (g f) = d.cur.has f := by simp [Batch.has, (hg f).1, (hg f).2.1, (hg f).2.2]
  simp only [Dev.updActive, Dev.updFibres, updWhere, List.map_map]
  congr 1
  apply List.map_congr_left
  intro f _
  by_cases h : d.cur.has f = true
  · simp [h, hb f]
  · simp [h]

/-! ## Registers -/

theorem nth_set_same {α : Type} (l : List α) (n : Nat) (x y : α) (h : n < l.length) : nth (l.set n x) n y = x := by
  simp [nth, List.getD, h]

theorem nth_set_other {α : Type} (l : List α) (n m : Nat) (x y : α) (h : m ≠ n) : nth (l.set n x) m y = nth l m y := by
  simp [nth, List.getD, List.getElem?_set_ne (Ne.symm h)]

theorem landV_win_length (f : Fibre) (r : Reg) : (landV f r).win.length = f.win.length := by
  unfold landV; split <;> simp

theorem landV_vreg_other (f : Fibre) (n m : Nat) (h : m ≠ n) : (landV f (.v n)).vreg m = f.vreg m := by
  simp only [landV, Fibre.vreg]
  exact nth_set_other _ _ _ _ _ h

/-- A write of a lane register is read back. -/
theorem Fibre.putV_vreg_same (f : Fibre) (n : Nat) (x : W64) (r : Nat) (h : n < f.win.length) : (f.putV n x r).vreg n = x := by
  simp only [Fibre.putV, Fibre.vreg]
  exact nth_set_same _ _ _ _ (by rw [landV_win_length]; exact h)

/-- A write of a lane register leaves the others. -/
theorem Fibre.putV_vreg_other (f : Fibre) (n m : Nat) (x : W64) (r : Nat) (h : m ≠ n) : (f.putV n x r).vreg m = f.vreg m := by
  simp only [Fibre.putV, Fibre.vreg]
  rw [nth_set_other _ _ _ _ _ h]
  exact landV_vreg_other f n m h

theorem Fibre.putV_win_length (f : Fibre) (n : Nat) (x : W64) (r : Nat) : (f.putV n x r).win.length = f.win.length := by
  simp [Fibre.putV, landV_win_length]

/-- What a write of a lane register and going on leave of a fibre. -/
theorem Fibre.putV_rest (f : Fibre) (n : Nat) (x : W64) (r : Nat) :
    { f.putV n x r with win := f.win, infl := f.infl, outst := f.outst } = f := rfl

/-! ## Going on -/

theorem Dev.fibre?_free (d : Dev) (k c n l : Nat) : Dev.fibre? { d with free := k } c n l = d.fibre? c n l := rfl

/-- After an update of the active fibres and going on, an active fibre is found changed, at its next place. -/
theorem Dev.fibre?_advance_mem {d : Dev} {g : Fibre → Fibre}
    (hg : ∀ f, (g f).core = f.core ∧ (g f).slot = f.slot ∧ (g f).lane = f.lane) (stl : BitVec 2) (l : Bool) {f : Fibre}
    (hf : f ∈ d.active) (ht : (g f).trapped = false) :
    ((d.updActive g).advance stl l).fibre? f.core f.slot f.lane =
      some ((g f).goOn.issued d.cycle (d.pass d.cur.core) l (stall stl) d.free) := by
  simp only [Dev.advance]
  rw [Dev.updActive_updActive _ _ _ hg, Dev.fibre?_free, Dev.fibre?_updActive_mem _ hf]
  · simp only [Function.comp, ht, Bool.false_eq_true, if_false, Dev.updActive_cycle, Dev.updActive_cur, Dev.updActive_free]; rfl
  · intro f
    simp only [Function.comp]
    split <;> simp [hg f]

/-- After an update of the active fibres and going on, the other fibres are as they were. -/
theorem Dev.fibre?_advance_other {d : Dev} {g : Fibre → Fibre}
    (hg : ∀ f, (g f).core = f.core ∧ (g f).slot = f.slot ∧ (g f).lane = f.lane) (stl : BitVec 2) (b : Bool) {c n l : Nat}
    (ho : ¬(c = d.cur.core ∧ (n, l) ∈ d.cur.members)) :
    ((d.updActive g).advance stl b).fibre? c n l = d.fibre? c n l := by
  simp only [Dev.advance]
  rw [Dev.updActive_updActive _ _ _ hg, Dev.fibre?_free]
  refine Dev.fibre?_updActive_other (fun f => ?_) ho
  simp only [Function.comp]
  split <;> simp [hg f]

/-- Where a fibre goes on depends only on its PC and its loop levels. -/
theorem Fibre.goOn_congr {f h : Fibre} (hp : h.pc = f.pc) (h0 : h.lp0 = f.lp0) (h1 : h.lp1 = f.lp1) (h2 : h.lp2 = f.lp2) :
    h.goOn.pc = f.goOn.pc ∧ h.goOn.lp0 = f.goOn.lp0 ∧ h.goOn.lp1 = f.goOn.lp1 ∧ h.goOn.lp2 = f.goOn.lp2 := by
  simp only [Fibre.goOn, Fibre.loopEnd, h0, h1, h2, hp]
  split
  · exact ⟨rfl, rfl, rfl, rfl⟩
  · split
    · exact ⟨rfl, rfl, rfl, rfl⟩
    · split <;> exact ⟨rfl, rfl, rfl, rfl⟩

/-- Going on changes nothing but the PC, the loop levels, and when the fibre may issue next. -/
theorem Fibre.goOn_issued_rest (f : Fibre) (now pass : Nat) (l : Bool) (n free : Nat) :
    f.goOn.issued now pass l n free = { f with
      pc := f.goOn.pc, lp0 := f.goOn.lp0, lp1 := f.goOn.lp1, lp2 := f.goOn.lp2, age := (f.goOn.issued now pass l n free).age
      ready := (f.goOn.issued now pass l n free).ready, cohort := (f.goOn.issued now pass l n free).cohort
      pace := (f.goOn.issued now pass l n free).pace } := by
  simp only [Fibre.issued, Fibre.counted, Fibre.goOn, Fibre.loopEnd]
  split
  · rfl
  · split
    · rfl
    · split <;> rfl

end Sys2Proof.Machine
end

