-- ==== Sys2Proof/Laws/Dispatch.lean ====
section
/-! SUPPORT. The meaning of each constructor: what its arm calls. -/

namespace Sys2Proof.Machine

theorem exec_add {o} {s : State} : exec (.add o) s = execAdd o s := rfl
theorem exec_sub {o} {s : State} : exec (.sub o) s = execSub o s := rfl
theorem exec_mul {o} {s : State} : exec (.mul o) s = execMul o s := rfl
theorem exec_mulhiI {o} {s : State} : exec (.mulhiI o) s = execMulhiI o s := rfl
theorem exec_mulhiN {o} {s : State} : exec (.mulhiN o) s = execMulhiN o s := rfl
theorem exec_mad {o} {s : State} : exec (.mad o) s = execMad o s := rfl
theorem exec_and {o} {s : State} : exec (.and o) s = execAnd o s := rfl
theorem exec_or {o} {s : State} : exec (.or o) s = execOr o s := rfl
theorem exec_xor {o} {s : State} : exec (.xor o) s = execXor o s := rfl
theorem exec_andn {o} {s : State} : exec (.andn o) s = execAndn o s := rfl
theorem exec_shl {o} {s : State} : exec (.shl o) s = execShl o s := rfl
theorem exec_shr {o} {s : State} : exec (.shr o) s = execShr o s := rfl
theorem exec_sar {o} {s : State} : exec (.sar o) s = execSar o s := rfl
theorem exec_rot {o} {s : State} : exec (.rot o) s = execRot o s := rfl
theorem exec_minI {o} {s : State} : exec (.minI o) s = execMinI o s := rfl
theorem exec_minN {o} {s : State} : exec (.minN o) s = execMinN o s := rfl
theorem exec_maxI {o} {s : State} : exec (.maxI o) s = execMaxI o s := rfl
theorem exec_maxN {o} {s : State} : exec (.maxN o) s = execMaxN o s := rfl
theorem exec_addsatI {o} {s : State} : exec (.addsatI o) s = execAddsatI o s := rfl
theorem exec_addsatN {o} {s : State} : exec (.addsatN o) s = execAddsatN o s := rfl
theorem exec_subsatI {o} {s : State} : exec (.subsatI o) s = execSubsatI o s := rfl
theorem exec_subsatN {o} {s : State} : exec (.subsatN o) s = execSubsatN o s := rfl
theorem exec_avgI {o} {s : State} : exec (.avgI o) s = execAvgI o s := rfl
theorem exec_avgN {o} {s : State} : exec (.avgN o) s = execAvgN o s := rfl
theorem exec_sadI {o} {s : State} : exec (.sadI o) s = execSadI o s := rfl
theorem exec_sadN {o} {s : State} : exec (.sadN o) s = execSadN o s := rfl
theorem exec_dot4I {o} {s : State} : exec (.dot4I o) s = execDot4I o s := rfl
theorem exec_dot4N {o} {s : State} : exec (.dot4N o) s = execDot4N o s := rfl
theorem exec_cmpI {o} {s : State} : exec (.cmpI o) s = execCmpI o s := rfl
theorem exec_cmpN {o} {s : State} : exec (.cmpN o) s = execCmpN o s := rfl
theorem exec_sel {o} {s : State} : exec (.sel o) s = execSel o s := rfl
theorem exec_movReg {o} {s : State} : exec (.movReg o) s = execMovReg o s := rfl
theorem exec_movUniform {o} {s : State} : exec (.movUniform o) s = execMovUniform o s := rfl
theorem exec_neg {o} {s : State} : exec (.neg o) s = execNeg o s := rfl
theorem exec_abs {o} {s : State} : exec (.abs o) s = execAbs o s := rfl
theorem exec_not {o} {s : State} : exec (.not o) s = execNot o s := rfl
theorem exec_popc {o} {s : State} : exec (.popc o) s = execPopc o s := rfl
theorem exec_clz {o} {s : State} : exec (.clz o) s = execClz o s := rfl
theorem exec_ctz {o} {s : State} : exec (.ctz o) s = execCtz o s := rfl
theorem exec_brev {o} {s : State} : exec (.brev o) s = execBrev o s := rfl
theorem exec_bfx {o} {s : State} : exec (.bfx o) s = execBfx o s := rfl
theorem exec_bfi {o} {s : State} : exec (.bfi o) s = execBfi o s := rfl
theorem exec_permb {o} {s : State} : exec (.permb o) s = execPermb o s := rfl
theorem exec_lea {o} {s : State} : exec (.lea o) s = execLea o s := rfl
theorem exec_addi {o} {s : State} : exec (.addi o) s = execAddi o s := rfl
theorem exec_shli {o} {s : State} : exec (.shli o) s = execShli o s := rfl
theorem exec_shri {o} {s : State} : exec (.shri o) s = execShri o s := rfl
theorem exec_sari {o} {s : State} : exec (.sari o) s = execSari o s := rfl
theorem exec_roti {o} {s : State} : exec (.roti o) s = execRoti o s := rfl
theorem exec_movi {o} {s : State} : exec (.movi o) s = execMovi o s := rfl
theorem exec_fadd {o} {s : State} : exec (.fadd o) s = execFadd o s := rfl
theorem exec_fsub {o} {s : State} : exec (.fsub o) s = execFsub o s := rfl
theorem exec_fmul {o} {s : State} : exec (.fmul o) s = execFmul o s := rfl
theorem exec_fma {o} {s : State} : exec (.fma o) s = execFma o s := rfl
theorem exec_fms {o} {s : State} : exec (.fms o) s = execFms o s := rfl
theorem exec_fmin {o} {s : State} : exec (.fmin o) s = execFmin o s := rfl
theorem exec_fmax {o} {s : State} : exec (.fmax o) s = execFmax o s := rfl
theorem exec_fcmp {o} {s : State} : exec (.fcmp o) s = execFcmp o s := rfl
theorem exec_fscale {o} {s : State} : exec (.fscale o) s = execFscale o s := rfl
theorem exec_fabs {o} {s : State} : exec (.fabs o) s = execFabs o s := rfl
theorem exec_fneg {o} {s : State} : exec (.fneg o) s = execFneg o s := rfl
theorem exec_fclass {o} {s : State} : exec (.fclass o) s = execFclass o s := rfl
theorem exec_frnd {o} {s : State} : exec (.frnd o) s = execFrnd o s := rfl
theorem exec_frndRn {o} {s : State} : exec (.frndRn o) s = execFrndRn o s := rfl
theorem exec_frndRz {o} {s : State} : exec (.frndRz o) s = execFrndRz o s := rfl
theorem exec_frndRu {o} {s : State} : exec (.frndRu o) s = execFrndRu o s := rfl
theorem exec_frndRd {o} {s : State} : exec (.frndRd o) s = execFrndRd o s := rfl
theorem exec_rcp {o} {s : State} : exec (.rcp o) s = execRcp o s := rfl
theorem exec_rsq {o} {s : State} : exec (.rsq o) s = execRsq o s := rfl
theorem exec_sqrt {o} {s : State} : exec (.sqrt o) s = execSqrt o s := rfl
theorem exec_ex2 {o} {s : State} : exec (.ex2 o) s = execEx2 o s := rfl
theorem exec_lg2 {o} {s : State} : exec (.lg2 o) s = execLg2 o s := rfl
theorem exec_sinp {o} {s : State} : exec (.sinp o) s = execSinp o s := rfl
theorem exec_cosp {o} {s : State} : exec (.cosp o) s = execCosp o s := rfl
theorem exec_tanh {o} {s : State} : exec (.tanh o) s = execTanh o s := rfl
theorem exec_cvt {o} {s : State} : exec (.cvt o) s = execCvt o s := rfl
theorem exec_cvtnb {o} {s : State} : exec (.cvtnb o) s = execCvtnb o s := rfl
theorem exec_cvtnbx {o} {s : State} : exec (.cvtnbx o) s = execCvtnbx o s := rfl
theorem exec_had {o} {s : State} : exec (.had o) s = execHad o s := rfl
theorem exec_pack {o} {s : State} : exec (.pack o) s = execPack o s := rfl
theorem exec_unpack {o} {s : State} : exec (.unpack o) s = execUnpack o s := rfl
theorem exec_shflIdx {o} {s : State} : exec (.shflIdx o) s = execShflIdx o s := rfl
theorem exec_shflXor {o} {s : State} : exec (.shflXor o) s = execShflXor o s := rfl
theorem exec_shflUp {o} {s : State} : exec (.shflUp o) s = execShflUp o s := rfl
theorem exec_shflDn {o} {s : State} : exec (.shflDn o) s = execShflDn o s := rfl
theorem exec_bcast {o} {s : State} : exec (.bcast o) s = execBcast o s := rfl
theorem exec_shflXorConst {o} {s : State} : exec (.shflXorConst o) s = execShflXorConst o s := rfl
theorem exec_shflUpConst {o} {s : State} : exec (.shflUpConst o) s = execShflUpConst o s := rfl
theorem exec_shflDnConst {o} {s : State} : exec (.shflDnConst o) s = execShflDnConst o s := rfl
theorem exec_qxch {o} {s : State} : exec (.qxch o) s = execQxch o s := rfl
theorem exec_vote {o} {s : State} : exec (.vote o) s = execVote o s := rfl
theorem exec_matchLanes {o} {s : State} : exec (.matchLanes o) s = execMatchLanes o s := rfl
theorem exec_wred {o} {s : State} : exec (.wred o) s = execWred o s := rfl
theorem exec_wscan {o} {s : State} : exec (.wscan o) s = execWscan o s := rfl
theorem exec_br {o} {s : State} : exec (.br o) s = execBr o s := rfl
theorem exec_jmp {o} {s : State} : exec (.jmp o) s = execJmp o s := rfl
theorem exec_ji {o} {s : State} : exec (.ji o) s = execJi o s := rfl
theorem exec_call {o} {s : State} : exec (.call o) s = execCall o s := rfl
theorem exec_calli {o} {s : State} : exec (.calli o) s = execCalli o s := rfl
theorem exec_ret {o} {s : State} : exec (.ret o) s = execRet o s := rfl
theorem exec_fork {o} {s : State} : exec (.fork o) s = execFork o s := rfl
theorem exec_rejoin {o} {s : State} : exec (.rejoin o) s = execRejoin o s := rfl
theorem exec_loopImm {o} {s : State} : exec (.loopImm o) s = execLoopImm o s := rfl
theorem exec_loopUniform {o} {s : State} : exec (.loopUniform o) s = execLoopUniform o s := rfl
theorem exec_nop {o} {s : State} : exec (.nop o) s = execNop o s := rfl
theorem exec_yield {o} {s : State} : exec (.yield o) s = execYield o s := rfl
theorem exec_endFibre {o} {s : State} : exec (.endFibre o) s = execEndFibre o s := rfl
theorem exec_setperfL {o} {s : State} : exec (.setperfL o) s = execSetperfL o s := rfl
theorem exec_ldG {o} {s : State} : exec (.ldG o) s = execLdG o s := rfl
theorem exec_ldS {o} {s : State} : exec (.ldS o) s = execLdS o s := rfl
theorem exec_ldA {o} {s : State} : exec (.ldA o) s = execLdA o s := rfl
theorem exec_ldO {o} {s : State} : exec (.ldO o) s = execLdO o s := rfl
theorem exec_ldW {o} {s : State} : exec (.ldW o) s = execLdW o s := rfl
theorem exec_stG {o} {s : State} : exec (.stG o) s = execStG o s := rfl
theorem exec_stS {o} {s : State} : exec (.stS o) s = execStS o s := rfl
theorem exec_stA {o} {s : State} : exec (.stA o) s = execStA o s := rfl
theorem exec_stO {o} {s : State} : exec (.stO o) s = execStO o s := rfl
theorem exec_stW {o} {s : State} : exec (.stW o) s = execStW o s := rfl
theorem exec_ldStrong {o} {s : State} : exec (.ldStrong o) s = execLdStrong o s := rfl
theorem exec_stStrong {o} {s : State} : exec (.stStrong o) s = execStStrong o s := rfl
theorem exec_atomG32 {o} {s : State} : exec (.atomG32 o) s = execAtomG32 o s := rfl
theorem exec_atomG64 {o} {s : State} : exec (.atomG64 o) s = execAtomG64 o s := rfl
theorem exec_atomS32 {o} {s : State} : exec (.atomS32 o) s = execAtomS32 o s := rfl
theorem exec_atomS64 {o} {s : State} : exec (.atomS64 o) s = execAtomS64 o s := rfl
theorem exec_atomW32 {o} {s : State} : exec (.atomW32 o) s = execAtomW32 o s := rfl
theorem exec_atomW64 {o} {s : State} : exec (.atomW64 o) s = execAtomW64 o s := rfl
theorem exec_fence {o} {s : State} : exec (.fence o) s = execFence o s := rfl
theorem exec_phase {o} {s : State} : exec (.phase o) s = execPhase o s := rfl
theorem exec_pref {o} {s : State} : exec (.pref o) s = execPref o s := rfl
theorem exec_kvldRead {o} {s : State} : exec (.kvldRead o) s = execKvldRead o s := rfl
theorem exec_kvldOpen {o} {s : State} : exec (.kvldOpen o) s = execKvldOpen o s := rfl
theorem exec_kvldClose {o} {s : State} : exec (.kvldClose o) s = execKvldClose o s := rfl
theorem exec_kvappAppend {o} {s : State} : exec (.kvappAppend o) s = execKvappAppend o s := rfl
theorem exec_kvappUnref {o} {s : State} : exec (.kvappUnref o) s = execKvappUnref o s := rfl
theorem exec_kvappPagein {o} {s : State} : exec (.kvappPagein o) s = execKvappPagein o s := rfl
theorem exec_kvappCommit {o} {s : State} : exec (.kvappCommit o) s = execKvappCommit o s := rfl
theorem exec_kvappRetain {o} {s : State} : exec (.kvappRetain o) s = execKvappRetain o s := rfl
theorem exec_illegalWord {w} {s : State} : exec (.illegalWord w) s = execIllegalWord w s := rfl
theorem exec_kaddImm {o} {s : State} : exec (.kaddImm o) s = execKaddImm o s := rfl
theorem exec_ksubImm {o} {s : State} : exec (.ksubImm o) s = execKsubImm o s := rfl
theorem exec_kmulImm {o} {s : State} : exec (.kmulImm o) s = execKmulImm o s := rfl
theorem exec_kandImm {o} {s : State} : exec (.kandImm o) s = execKandImm o s := rfl
theorem exec_korImm {o} {s : State} : exec (.korImm o) s = execKorImm o s := rfl
theorem exec_kxorImm {o} {s : State} : exec (.kxorImm o) s = execKxorImm o s := rfl
theorem exec_kshlImm {o} {s : State} : exec (.kshlImm o) s = execKshlImm o s := rfl
theorem exec_kshrImm {o} {s : State} : exec (.kshrImm o) s = execKshrImm o s := rfl
theorem exec_kaddReg {o} {s : State} : exec (.kaddReg o) s = execKaddReg o s := rfl
theorem exec_ksubReg {o} {s : State} : exec (.ksubReg o) s = execKsubReg o s := rfl
theorem exec_kmulReg {o} {s : State} : exec (.kmulReg o) s = execKmulReg o s := rfl
theorem exec_kandReg {o} {s : State} : exec (.kandReg o) s = execKandReg o s := rfl
theorem exec_korReg {o} {s : State} : exec (.korReg o) s = execKorReg o s := rfl
theorem exec_kxorReg {o} {s : State} : exec (.kxorReg o) s = execKxorReg o s := rfl
theorem exec_kshlReg {o} {s : State} : exec (.kshlReg o) s = execKshlReg o s := rfl
theorem exec_kshrReg {o} {s : State} : exec (.kshrReg o) s = execKshrReg o s := rfl
theorem exec_kcmp {o} {s : State} : exec (.kcmp o) s = execKcmp o s := rfl
theorem exec_ksel {o} {s : State} : exec (.ksel o) s = execKsel o s := rfl
theorem exec_kmov {o} {s : State} : exec (.kmov o) s = execKmov o s := rfl
theorem exec_movkH0 {o} {s : State} : exec (.movkH0 o) s = execMovkH0 o s := rfl
theorem exec_movkH1 {o} {s : State} : exec (.movkH1 o) s = execMovkH1 o s := rfl
theorem exec_movkH2 {o} {s : State} : exec (.movkH2 o) s = execMovkH2 o s := rfl
theorem exec_movkH3 {o} {s : State} : exec (.movkH3 o) s = execMovkH3 o s := rfl
theorem exec_kldG {o} {s : State} : exec (.kldG o) s = execKldG o s := rfl
theorem exec_kldS {o} {s : State} : exec (.kldS o) s = execKldS o s := rfl
theorem exec_kstG {o} {s : State} : exec (.kstG o) s = execKstG o s := rfl
theorem exec_kstS {o} {s : State} : exec (.kstS o) s = execKstS o s := rfl
theorem exec_kbr {o} {s : State} : exec (.kbr o) s = execKbr o s := rfl
theorem exec_kjmp {o} {s : State} : exec (.kjmp o) s = execKjmp o s := rfl
theorem exec_kcall {o} {s : State} : exec (.kcall o) s = execKcall o s := rfl
theorem exec_kret {o} {s : State} : exec (.kret o) s = execKret o s := rfl
theorem exec_bar {o} {s : State} : exec (.bar o) s = execBar o s := rfl
theorem exec_tbar {o} {s : State} : exec (.tbar o) s = execTbar o s := rfl
theorem exec_waitany {o} {s : State} : exec (.waitany o) s = execWaitany o s := rfl
theorem exec_arm {o} {s : State} : exec (.arm o) s = execArm o s := rfl
theorem exec_disarm {o} {s : State} : exec (.disarm o) s = execDisarm o s := rfl
theorem exec_post {o} {s : State} : exec (.post o) s = execPost o s := rfl
theorem exec_evset {o} {s : State} : exec (.evset o) s = execEvset o s := rfl
theorem exec_evclr {o} {s : State} : exec (.evclr o) s = execEvclr o s := rfl
theorem exec_cpyk {o} {s : State} : exec (.cpyk o) s = execCpyk o s := rfl
theorem exec_handoff {o} {s : State} : exec (.handoff o) s = execHandoff o s := rfl
theorem exec_qpull {o} {s : State} : exec (.qpull o) s = execQpull o s := rfl
theorem exec_enq {o} {s : State} : exec (.enq o) s = execEnq o s := rfl
theorem exec_kick {o} {s : State} : exec (.kick o) s = execKick o s := rfl
theorem exec_pres {o} {s : State} : exec (.pres o) s = execPres o s := rfl
theorem exec_prel {o} {s : State} : exec (.prel o) s = execPrel o s := rfl
theorem exec_pscl {o} {s : State} : exec (.pscl o) s = execPscl o s := rfl
theorem exec_upret {o} {s : State} : exec (.upret o) s = execUpret o s := rfl
theorem exec_upfail {o} {s : State} : exec (.upfail o) s = execUpfail o s := rfl
theorem exec_recur {o} {s : State} : exec (.recur o) s = execRecur o s := rfl
theorem exec_rchild {o} {s : State} : exec (.rchild o) s = execRchild o s := rfl
theorem exec_rbase {o} {s : State} : exec (.rbase o) s = execRbase o s := rfl
theorem exec_rres {o} {s : State} : exec (.rres o) s = execRres o s := rfl
theorem exec_rarg {o} {s : State} : exec (.rarg o) s = execRarg o s := rfl
theorem exec_srd {o} {s : State} : exec (.srd o) s = execSrd o s := rfl
theorem exec_swr {o} {s : State} : exec (.swr o) s = execSwr o s := rfl
theorem exec_trap {o} {s : State} : exec (.trap o) s = execTrap o s := rfl
theorem exec_tret {o} {s : State} : exec (.tret o) s = execTret o s := rfl
theorem exec_tmask {o} {s : State} : exec (.tmask o) s = execTmask o s := rfl
theorem exec_tunmask {o} {s : State} : exec (.tunmask o) s = execTunmask o s := rfl
theorem exec_rgn {o} {s : State} : exec (.rgn o) s = execRgn o s := rfl
theorem exec_setperf {o} {s : State} : exec (.setperf o) s = execSetperf o s := rfl
theorem exec_bkpt {o} {s : State} : exec (.bkpt o) s = execBkpt o s := rfl
theorem exec_halt {o} {s : State} : exec (.halt o) s = execHalt o s := rfl
theorem exec_rfetch {o} {s : State} : exec (.rfetch o) s = execRfetch o s := rfl
theorem exec_xbfe {o} {s : State} : exec (.xbfe o) s = execXbfe o s := rfl
theorem exec_xbfeS {o} {s : State} : exec (.xbfeS o) s = execXbfeS o s := rfl
theorem exec_swait {o} {s : State} : exec (.swait o) s = execSwait o s := rfl
theorem exec_disp {o} {s : State} : exec (.disp o) s = execDisp o s := rfl
theorem exec_variableLatencyArrival {s : State} : exec .variableLatencyArrival s = execVariableLatencyArrival s := rfl
theorem exec_yieldWaitEnd {s : State} : exec .yieldWaitEnd s = execYieldWaitEnd s := rfl
theorem exec_rejoinRelease {s : State} : exec .rejoinRelease s = execRejoinRelease s := rfl
theorem exec_rejoindl {s : State} : exec .rejoindl s = execRejoindl s := rfl
theorem exec_eventDelivery {s : State} : exec .eventDelivery s = execEventDelivery s := rfl
theorem exec_mailboxArrival {s : State} : exec .mailboxArrival s = execMailboxArrival s := rfl
theorem exec_faultPath {s : State} : exec .faultPath s = execFaultPath s := rfl
theorem exec_pageRequestIssue {s : State} : exec .pageRequestIssue s = execPageRequestIssue s := rfl
theorem exec_stage2RequestRecord {s : State} : exec .stage2RequestRecord s = execStage2RequestRecord s := rfl
theorem exec_faultRecord {s : State} : exec .faultRecord s = execFaultRecord s := rfl
theorem exec_faultRingPoll {s : State} : exec .faultRingPoll s = execFaultRingPoll s := rfl
theorem exec_prgResponseSuccess {s : State} : exec .prgResponseSuccess s = execPrgResponseSuccess s := rfl
theorem exec_prgResponseInvalidRequest {s : State} : exec .prgResponseInvalidRequest s = execPrgResponseInvalidRequest s := rfl
theorem exec_prgResponseFailure {s : State} : exec .prgResponseFailure s = execPrgResponseFailure s := rfl
theorem exec_s2replySuccess {s : State} : exec .s2replySuccess s = execS2replySuccess s := rfl
theorem exec_s2replyInvalidRequest {s : State} : exec .s2replyInvalidRequest s = execS2replyInvalidRequest s := rfl
theorem exec_s2replyResponseFailure {s : State} : exec .s2replyResponseFailure s = execS2replyResponseFailure s := rfl
theorem exec_freplyResume {s : State} : exec .freplyResume s = execFreplyResume s := rfl
theorem exec_freplyTerminate {s : State} : exec .freplyTerminate s = execFreplyTerminate s := rfl
theorem exec_translationWalk {s : State} : exec .translationWalk s = execTranslationWalk s := rfl
theorem exec_atsInvalidationRequest {s : State} : exec .atsInvalidationRequest s = execAtsInvalidationRequest s := rfl
theorem exec_s2invRange {s : State} : exec .s2invRange s = execS2invRange s := rfl
theorem exec_s2invAll {s : State} : exec .s2invAll s = execS2invAll s := rfl
theorem exec_invalidationComplete {s : State} : exec .invalidationComplete s = execInvalidationComplete s := rfl
theorem exec_maskBudgetExpiry {s : State} : exec .maskBudgetExpiry s = execMaskBudgetExpiry s := rfl
theorem exec_preemptionRequest {s : State} : exec .preemptionRequest s = execPreemptionRequest s := rfl
theorem exec_groupSave {s : State} : exec .groupSave s = execGroupSave s := rfl
theorem exec_groupRestore {s : State} : exec .groupRestore s = execGroupRestore s := rfl
theorem exec_partialEviction {s : State} : exec .partialEviction s = execPartialEviction s := rfl
theorem exec_energyQuotaExhausted {s : State} : exec .energyQuotaExhausted s = execEnergyQuotaExhausted s := rfl
theorem exec_energyPeriodStart {s : State} : exec .energyPeriodStart s = execEnergyPeriodStart s := rfl
theorem exec_walkDispatch {s : State} : exec .walkDispatch s = execWalkDispatch s := rfl
theorem exec_walkDraw {s : State} : exec .walkDraw s = execWalkDraw s := rfl
theorem exec_walkStepAdmit {s : State} : exec .walkStepAdmit s = execWalkStepAdmit s := rfl
theorem exec_upcallDelivery {s : State} : exec .upcallDelivery s = execUpcallDelivery s := rfl
theorem exec_tileProduct {s : State} : exec .tileProduct s = execTileProduct s := rfl
theorem exec_walkAbortRemote {s : State} : exec .walkAbortRemote s = execWalkAbortRemote s := rfl
theorem exec_walkGraceExpiry {s : State} : exec .walkGraceExpiry s = execWalkGraceExpiry s := rfl
theorem exec_routineStart {s : State} : exec .routineStart s = execRoutineStart s := rfl
theorem exec_copyElement {s : State} : exec .copyElement s = execCopyElement s := rfl
theorem exec_atomicEngineApply {s : State} : exec .atomicEngineApply s = execAtomicEngineApply s := rfl
theorem exec_gopenWrite {s : State} : exec .gopenWrite s = execGopenWrite s := rfl
theorem exec_gcloseWrite {s : State} : exec .gcloseWrite s = execGcloseWrite s := rfl
theorem exec_grantLapse {s : State} : exec .grantLapse s = execGrantLapse s := rfl
theorem exec_streamRelease {s : State} : exec .streamRelease s = execStreamRelease s := rfl
theorem exec_kickWrite {s : State} : exec .kickWrite s = execKickWrite s := rfl
theorem exec_packetFetch {s : State} : exec .packetFetch s = execPacketFetch s := rfl
theorem exec_fetcherRetry {s : State} : exec .fetcherRetry s = execFetcherRetry s := rfl
theorem exec_launch {s : State} : exec .launch s = execLaunch s := rfl
theorem exec_walk {s : State} : exec .walk s = execWalk s := rfl
theorem exec_recurPacket {s : State} : exec .recurPacket s = execRecurPacket s := rfl
theorem exec_event {s : State} : exec .event s = execEvent s := rfl
theorem exec_groupPlacement {s : State} : exec .groupPlacement s = execGroupPlacement s := rfl
theorem exec_passedOverTimeout {s : State} : exec .passedOverTimeout s = execPassedOverTimeout s := rfl
theorem exec_completionWordWrite {s : State} : exec .completionWordWrite s = execCompletionWordWrite s := rfl
theorem exec_mappingTick {s : State} : exec .mappingTick s = execMappingTick s := rfl
theorem exec_binCountdownExpiry {s : State} : exec .binCountdownExpiry s = execBinCountdownExpiry s := rfl
theorem exec_ctxcmdCreate {s : State} : exec .ctxcmdCreate s = execCtxcmdCreate s := rfl
theorem exec_ctxcmdReread {s : State} : exec .ctxcmdReread s = execCtxcmdReread s := rfl
theorem exec_ctxcmdDestroy {s : State} : exec .ctxcmdDestroy s = execCtxcmdDestroy s := rfl
theorem exec_contextDestroyDone {s : State} : exec .contextDestroyDone s = execContextDestroyDone s := rfl
theorem exec_s2rootWrite {s : State} : exec .s2rootWrite s = execS2rootWrite s := rfl
theorem exec_capWrite {s : State} : exec .capWrite s = execCapWrite s := rfl
theorem exec_floorWrite {s : State} : exec .floorWrite s = execFloorWrite s := rfl
theorem exec_registerWrite {s : State} : exec .registerWrite s = execRegisterWrite s := rfl
theorem exec_powerEvaluation {s : State} : exec .powerEvaluation s = execPowerEvaluation s := rfl
theorem exec_hostWrite {s : State} : exec .hostWrite s = execHostWrite s := rfl
theorem exec_peerAccess {s : State} : exec .peerAccess s = execPeerAccess s := rfl
theorem exec_linkUp {s : State} : exec .linkUp s = execLinkUp s := rfl
theorem exec_linkDown {s : State} : exec .linkDown s = execLinkDown s := rfl
theorem exec_temperatureThreshold {s : State} : exec .temperatureThreshold s = execTemperatureThreshold s := rfl
theorem exec_uncorrectedError {s : State} : exec .uncorrectedError s = execUncorrectedError s := rfl
theorem exec_coreSignalWrite {s : State} : exec .coreSignalWrite s = execCoreSignalWrite s := rfl
theorem exec_swaitWake {s : State} : exec .swaitWake s = execSwaitWake s := rfl
theorem exec_attest {s : State} : exec .attest s = execAttest s := rfl
theorem exec_cert {s : State} : exec .cert s = execCert s := rfl
theorem exec_bootclr {s : State} : exec .bootclr s = execBootclr s := rfl
theorem exec_allot {s : State} : exec .allot s = execAllot s := rfl
theorem exec_levread {s : State} : exec .levread s = execLevread s := rfl
theorem exec_update {s : State} : exec .update s = execUpdate s := rfl
theorem exec_stopCmd {s : State} : exec .stopCmd s = execStopCmd s := rfl
theorem exec_goCmd {s : State} : exec .goCmd s = execGoCmd s := rfl
theorem exec_rdmem {s : State} : exec .rdmem s = execRdmem s := rfl
theorem exec_wrmem {s : State} : exec .wrmem s = execWrmem s := rfl
theorem exec_rdsave {s : State} : exec .rdsave s = execRdsave s := rfl
theorem exec_breakCmd {s : State} : exec .breakCmd s = execBreakCmd s := rfl
theorem exec_coldReset {s : State} : exec .coldReset s = execColdReset s := rfl
theorem exec_warmReset {s : State} : exec .warmReset s = execWarmReset s := rfl
theorem exec_queueReset {s : State} : exec .queueReset s = execQueueReset s := rfl
theorem exec_priReenable {s : State} : exec .priReenable s = execPriReenable s := rfl
theorem exec_nodeBinConfiguration {s : State} : exec .nodeBinConfiguration s = execNodeBinConfiguration s := rfl
theorem exec_storeBecomesAvailable {s : State} : exec .storeBecomesAvailable s = execStoreBecomesAvailable s := rfl

end Sys2Proof.Machine
end

