-- ==== Sys2Proof/Laws/Elements.lean ====
section
/-! SUPPORT. Sub-elements: an instruction that computes each of them leaves the one it computed. -/

namespace Sys2Proof.Machine

/-- Sub-element `j` of joined sub-elements is the `j`-th. -/
theorem elem_join {w : Nat} (l : List (BitVec w)) (j : Nat) (hj : j < l.length) (hw : w * l.length ≤ 64) :
    elem w (join l) j = l[j] := by
  induction l generalizing j with
  | nil => cases hj
  | cons b l ih =>
    have hw' : w * l.length + w ≤ 64 := by rw [List.length_cons, Nat.mul_succ] at hw; exact hw
    apply BitVec.eq_of_getLsbD_eq
    intro i hi
    simp only [elem, join, BitVec.getLsbD_extractLsb', hi, decide_true, Bool.true_and, BitVec.getLsbD_or, BitVec.getLsbD_shiftLeft,
      BitVec.getLsbD_setWidth]
    cases j with
    | zero =>
      have : i < 64 := by omega
      simp [hi, this]
    | succ j =>
      have hj' : j < l.length := by simpa using hj
      have h1 : w * (j + 1) + i < 64 := by
        have : w * (j + 1) ≤ w * l.length := Nat.mul_le_mul_left _ hj'
        omega
      have h2 : ¬ w * (j + 1) + i < w := by rw [Nat.mul_succ]; omega
      have h3 : b.getLsbD (w * (j + 1) + i) = false := BitVec.getLsbD_of_ge _ _ (by omega)
      have h4 : w * (j + 1) + i - w = w * j + i := by rw [Nat.mul_succ]; omega
      have := congrArg (fun x => BitVec.getLsbD x i) (ih j hj' (by omega))
      simp only [elem, BitVec.getLsbD_extractLsb', hi, decide_true, Bool.true_and] at this
      simp [h1, h2, h3, h4, this]

/-- Sub-element `j` of a value computed for each sub-element. -/
theorem elem_perElem {w : Nat} (f : Nat → BitVec w) (j : Nat) (hj : j < 64 / w) : elem w (perElem w f) j = f j := by
  have hl : ((List.range (64 / w)).map f).length = 64 / w := by simp
  have := elem_join ((List.range (64 / w)).map f) j (by rw [hl]; exact hj) (by rw [hl]; exact Nat.mul_div_le 64 w)
  unfold perElem
  rw [this]
  simp

end Sys2Proof.Machine
end

