-- ==== Sys2Proof/Laws/Memory.lean ====
section
/-! SUPPORT. Memory reads what was written last, and every memory operation keeps the canonical form. -/

namespace Sys2Proof.Machine

/-! ## Rising numbers -/

theorem rising_tail {a : Nat} {l : List Nat} (h : rising (a :: l) = true) : rising l = true := by
  cases l with
  | nil => rfl
  | cons b l => simp only [rising, Bool.and_eq_true] at h; exact h.2

theorem rising_head_lt {a : Nat} {l : List Nat} (h : rising (a :: l) = true) : ∀ x ∈ l, a < x := by
  induction l generalizing a with
  | nil => intro x hx; cases hx
  | cons b l ih =>
    simp only [rising, Bool.and_eq_true, decide_eq_true_eq] at h
    intro x hx
    rcases List.mem_cons.1 hx with rfl | hx
    · exact h.1
    · exact Nat.lt_trans h.1 (ih h.2 x hx)

theorem rising_cons {a : Nat} {l : List Nat} (h : rising l = true) (hl : ∀ x ∈ l, a < x) : rising (a :: l) = true := by
  cases l with
  | nil => rfl
  | cons b l => simp only [rising, Bool.and_eq_true, decide_eq_true_eq]; exact ⟨hl b (by simp), h⟩

/-! ## Bytes -/

theorem Mem.wf_iff (m : Mem) : m.wf = true ↔ (rising (m.map Prod.fst) = true ∧ ∀ c ∈ m, c.2 ≠ 0) := by
  induction m with
  | nil => simp [Mem.wf, rising]
  | cons c m ih =>
    cases m with
    | nil => simp [Mem.wf, rising]
    | cons d m =>
      simp only [Mem.wf, Bool.and_eq_true, bne_iff_ne, decide_eq_true_eq, ih, List.map_cons, rising, List.mem_cons, forall_eq_or_imp]
      constructor
      · rintro ⟨⟨h1, h2⟩, h3, h4⟩; exact ⟨⟨h2, h3⟩, h1, h4⟩
      · rintro ⟨⟨h2, h3⟩, h1, h4⟩; exact ⟨⟨h1, h2⟩, h3, h4⟩

theorem Mem.get_of_lt {m : Mem} {a : Nat} (h : ∀ c ∈ m, a < c.1) : m.get a = 0 := by
  induction m with
  | nil => rfl
  | cons c m ih =>
    have h1 := h c (by simp)
    simp only [Mem.get]
    rw [if_neg (by simp; omega)]
    exact ih fun x hx => h x (by simp [hx])

theorem Mem.get_set_rising {m : Mem} (a b : Nat) (x : Byte) (h : rising (m.map Prod.fst) = true) :
    (m.set a x).get b = if b = a then x else m.get b := by
  induction m with
  | nil =>
    simp only [Mem.set]
    by_cases hx : x = 0
    · subst hx; simp [Mem.get]
    · simp only [beq_iff_eq, hx, if_false, Mem.get]
      by_cases hb : b = a
      · simp [hb]
      · simp [hb, Ne.symm hb]
  | cons c m ih =>
    have ht := ih (rising_tail h)
    have hlt := rising_head_lt h
    have hc : ∀ d ∈ m, c.1 < d.1 := fun d hd => hlt d.1 (List.mem_map_of_mem hd)
    simp only [Mem.set]
    split
    · rename_i hac
      split
      · rename_i hx
        simp only [beq_iff_eq] at hx
        by_cases hb : b = a
        · subst hb
          rw [Mem.get_of_lt (m := c :: m)]
          · simp [hx]
          · intro d hd; rcases List.mem_cons.1 hd with rfl | hd
            · exact hac
            · exact Nat.lt_trans hac (hc d hd)
        · simp [hb]
      · simp only [Mem.get]
        by_cases hb : b = a
        · simp [hb]
        · simp [hb, Ne.symm hb]
    · split
      · rename_i hac hca
        simp only [beq_iff_eq] at hca
        split
        · rename_i hx
          simp only [beq_iff_eq] at hx
          by_cases hb : b = a
          · subst hb
            rw [Mem.get_of_lt]
            · simp [hx]
            · intro d hd; have := hc d hd; omega
          · have : ¬ c.1 = b := by omega
            simp [hb, Mem.get, this]
        · by_cases hb : b = a
          · simp [hb, Mem.get]
          · have : ¬ c.1 = b := by omega
            simp [hb, Mem.get, this, Ne.symm hb]
      · rename_i hac hca
        simp only [beq_iff_eq] at hca
        simp only [Mem.get]
        rw [ht]
        by_cases hb : c.1 = b
        · have : ¬ b = a := by omega
          simp [hb, this]
        · simp [hb]

/-- A write is read back, and every other address keeps its byte. -/
theorem Mem.get_set {m : Mem} (a b : Nat) (x : Byte) (h : m.wf = true) :
    (m.set a x).get b = if b = a then x else m.get b := Mem.get_set_rising a b x (Mem.wf_iff m |>.1 h).1

theorem Mem.mem_set {m : Mem} {a : Nat} {x : Byte} {c : Host.Cell} (h : c ∈ m.set a x) : c ∈ m ∨ (c = (a, x) ∧ x ≠ 0) := by
  induction m with
  | nil =>
    simp only [Mem.set] at h
    split at h
    · cases h
    · rename_i hx; exact .inr ⟨by simpa using h, by simpa using hx⟩
  | cons d m ih =>
    simp only [Mem.set] at h
    split at h
    · split at h
      · exact .inl h
      · rename_i hx
        rcases List.mem_cons.1 h with h | h
        · exact .inr ⟨h, by simpa using hx⟩
        · exact .inl h
    · split at h
      · split at h
        · exact .inl (by simp [h])
        · rename_i hx
          rcases List.mem_cons.1 h with h | h
          · exact .inr ⟨h, by simpa using hx⟩
          · exact .inl (by simp [h])
      · rcases List.mem_cons.1 h with h | h
        · exact .inl (by simp [h])
        · rcases ih h with h | h
          · exact .inl (by simp [h])
          · exact .inr h

theorem Mem.rising_set {m : Mem} (a : Nat) (x : Byte) (h : rising (m.map Prod.fst) = true) :
    rising ((m.set a x).map Prod.fst) = true := by
  induction m with
  | nil => simp only [Mem.set]; split <;> rfl
  | cons d m ih =>
    have hlt := rising_head_lt h
    have ht := rising_tail h
    simp only [Mem.set]
    split
    · rename_i had
      split
      · exact h
      · exact rising_cons h fun y hy => by
          rcases List.mem_cons.1 hy with rfl | hy
          · exact had
          · exact Nat.lt_trans had (hlt y hy)
    · split
      · rename_i had hda
        split
        · exact ht
        · exact rising_cons ht fun y hy => by
            have := hlt y hy; have : d.1 = a := by simpa using hda
            omega
      · rename_i had hda
        refine rising_cons (ih ht) fun y hy => ?_
        obtain ⟨c, hc, rfl⟩ := List.mem_map.1 hy
        rcases Mem.mem_set hc with hc | ⟨rfl, _⟩
        · exact hlt _ (List.mem_map_of_mem hc)
        · have : ¬ d.1 = a := by simpa using hda
          show d.1 < a
          omega

/-- A write of a byte keeps the canonical form. -/
theorem Mem.wf_set {m : Mem} (a : Nat) (x : Byte) (h : m.wf = true) : (m.set a x).wf = true := by
  rw [Mem.wf_iff] at h ⊢
  refine ⟨Mem.rising_set a x h.1, fun c hc => ?_⟩
  rcases Mem.mem_set hc with hc | ⟨rfl, hx⟩
  · exact h.2 c hc
  · exact hx

/-- A write of bytes keeps the canonical form. -/
theorem Mem.wf_write {m : Mem} (a : Nat) (l : List Byte) (h : m.wf = true) : (m.write a l).wf = true := by
  induction l generalizing m a with
  | nil => exact h
  | cons b l ih => exact ih _ (Mem.wf_set a b h)

theorem rising_filter {α : Type} (key : α → Nat) (p : α → Bool) {l : List α} (h : rising (l.map key) = true) :
    rising ((l.filter p).map key) = true := by
  induction l with
  | nil => rfl
  | cons x l ih =>
    have ht := ih (rising_tail h)
    simp only [List.filter]
    split
    · exact rising_cons ht fun y hy => by
        obtain ⟨c, hc, rfl⟩ := List.mem_map.1 hy
        exact rising_head_lt h _ (List.mem_map_of_mem (List.mem_filter.1 hc).1)
    · exact ht

/-- Taking cells out keeps the canonical form. -/
theorem Mem.wf_filter {m : Mem} (p : Host.Cell → Bool) (h : m.wf = true) : Mem.wf (m.filter p) = true := by
  rw [Mem.wf_iff] at h ⊢
  exact ⟨rising_filter Prod.fst p h.1, fun c hc => h.2 c (List.mem_filter.1 hc).1⟩

theorem mem_putBy {α : Type} {key : α → Nat} {y z : α} {l : List α} (h : z ∈ putBy key y l) : z = y ∨ z ∈ l := by
  induction l with
  | nil => simpa [putBy] using h
  | cons x l ih =>
    simp only [putBy] at h
    split at h
    · simpa using h
    · split at h
      · rcases List.mem_cons.1 h with h | h
        · exact .inl h
        · exact .inr (by simp [h])
      · rcases List.mem_cons.1 h with h | h
        · exact .inr (by simp [h])
        · rcases ih h with h | h
          · exact .inl h
          · exact .inr (by simp [h])

theorem rising_putBy {α : Type} (key : α → Nat) (y : α) {l : List α} (h : rising (l.map key) = true) :
    rising ((putBy key y l).map key) = true := by
  induction l with
  | nil => rfl
  | cons x l ih =>
    have hlt := rising_head_lt h
    have ht := rising_tail h
    simp only [putBy]
    split
    · rename_i hyx
      exact rising_cons h fun z hz => by
        rcases List.mem_cons.1 hz with rfl | hz
        · exact hyx
        · exact Nat.lt_trans hyx (hlt z hz)
    · split
      · rename_i hyx hxy
        exact rising_cons ht fun z hz => by
          have := hlt z hz; have : key x = key y := by simpa using hxy
          omega
      · rename_i hyx hxy
        refine rising_cons (ih ht) fun z hz => ?_
        obtain ⟨c, hc, rfl⟩ := List.mem_map.1 hz
        rcases mem_putBy hc with rfl | hc
        · have : ¬ key x = key c := by simpa using hxy
          omega
        · exact hlt _ (List.mem_map_of_mem hc)

/-! ## The canonical form of what the cores see -/

theorem MemSys.wf_iff (ms : MemSys) : ms.wf = true ↔
    ms.mem.wf = true ∧ rising (ms.own.map OwnView.core) = true ∧
      ∀ v ∈ ms.own, v.mem ≠ [] ∧ rising (v.mem.map Prod.fst) = true := by
  simp [MemSys.wf, and_assoc]

/-- The canonical form looks only at memory and the unpublished bytes. -/
theorem MemSys.wf_congr {ms ns : MemSys} (h : ms.wf = true) (hm : ns.mem = ms.mem) (ho : ns.own = ms.own) : ns.wf = true := by
  unfold MemSys.wf at *; rw [hm, ho]; exact h

theorem MemSys.wf_own {ms : MemSys} (h : ms.wf = true) (core : Nat) : rising ((ms.ownMem core).map Prod.fst) = true := by
  rw [MemSys.wf_iff] at h
  unfold MemSys.ownMem
  split
  · rename_i o ho
    have : o ∈ ms.own := by
      clear h
      revert ho
      generalize ms.own = l
      induction l with
      | nil => intro ho; cases ho
      | cons x l ih =>
        intro ho
        simp only [getBy] at ho
        split at ho
        · cases ho; simp
        · simp [ih ho]
    exact (h.2.2 o this).2
  · rfl

theorem MemSys.wf_setOwn {ms : MemSys} (h : ms.wf = true) (core : Nat) {m : List Host.Cell}
    (hm : rising (m.map Prod.fst) = true) : (ms.setOwn core m).wf = true := by
  rw [MemSys.wf_iff] at h ⊢
  refine ⟨h.1, ?_⟩
  unfold MemSys.setOwn
  split
  · exact ⟨rising_filter _ _ h.2.1, fun v hv => h.2.2 v (List.mem_filter.1 hv).1⟩
  · rename_i hne
    refine ⟨rising_putBy _ _ h.2.1, fun v hv => ?_⟩
    rcases mem_putBy hv with rfl | hv
    · exact ⟨by simpa using hne, hm⟩
    · exact h.2.2 v hv

theorem MemSys.wf_patchSnap {ms : MemSys} (h : ms.wf = true) (core a : Nat) (b : Byte) : (ms.patchSnap core a b).wf = true :=
  MemSys.wf_congr h rfl rfl

theorem MemSys.wf_noteStore {ms : MemSys} (h : ms.wf = true) (who : Party) (sees : Nat → Bool) (a : Nat) (b : Byte) :
    (ms.noteStore who sees a b).wf = true := MemSys.wf_congr h rfl rfl

theorem MemSys.wf_setAll {ms : MemSys} (h : ms.wf = true) (who : Party) (a : Nat) (b : Byte) : (ms.setAll who a b).wf = true := by
  apply MemSys.wf_noteStore
  rw [MemSys.wf_iff] at h ⊢
  exact ⟨Mem.wf_set a b h.1, h.2⟩

theorem MemSys.wf_dropOwn {ms : MemSys} (h : ms.wf = true) (core a : Nat) : (ms.dropOwn core a).wf = true :=
  MemSys.wf_setOwn h core (rising_filter _ _ (MemSys.wf_own h core))

theorem MemSys.wf_publish {ms : MemSys} (h : ms.wf = true) (core a : Nat) (b : Byte) (sc : Scope) :
    (ms.publish core a b sc).wf = true := by
  have hp := MemSys.wf_patchSnap h core a b
  have hs := MemSys.wf_setAll hp (.core core) a b
  unfold MemSys.publish
  dsimp only
  repeat (first | exact hs | exact MemSys.wf_congr hp rfl rfl | split)

theorem MemSys.wf_publishAll (core : Nat) (sc : Scope) (l : List Host.Cell) {ms : MemSys} (h : ms.wf = true) :
    (MemSys.publishAll core sc l ms).wf = true := by
  induction l generalizing ms with
  | nil => exact h
  | cons c l ih => exact ih (MemSys.wf_publish h _ _ _ _)

theorem MemSys.wf_widen {ms : MemSys} (h : ms.wf = true) (p : PubByte) (toSys : Bool) : (ms.widen p toSys).wf = true := by
  apply MemSys.wf_noteStore
  split
  · rw [MemSys.wf_iff] at h ⊢
    exact ⟨Mem.wf_set _ _ h.1, h.2⟩
  · exact MemSys.wf_congr h rfl rfl

theorem MemSys.wf_promote (core : Nat) (sc : Scope) (l : List PubByte) {ms : MemSys} (h : ms.wf = true) :
    (MemSys.promote core sc l ms).wf = true := by
  induction l generalizing ms with
  | nil => exact h
  | cons p l ih =>
    unfold MemSys.promote
    dsimp only
    split
    · exact MemSys.wf_widen (ih h) _ _
    · exact ih h

theorem MemSys.wf_publishView {ms : MemSys} (h : ms.wf = true) (core : Nat) (sc : Scope) : (ms.publishView core sc).wf = true := by
  unfold MemSys.publishView
  dsimp only
  split
  · exact MemSys.wf_setOwn (MemSys.wf_publishAll _ _ _ (MemSys.wf_promote core sc ms.pub h)) _ rfl
  · exact MemSys.wf_setOwn (MemSys.wf_publishAll _ _ _ h) _ rfl

/-! ## Pending stores -/

theorem MemSys.wf_availBytes (core : Nat) (sc : Scope) (newer : List Nat) (later : List CStore) (l : List Byte) (a : Nat) {ms : MemSys}
    (h : ms.wf = true) : (MemSys.availBytes core sc newer later l a ms).wf = true := by
  induction l generalizing ms a with
  | nil => exact h
  | cons b l ih =>
    unfold MemSys.availBytes
    apply ih
    split
    · exact h
    · have hp := MemSys.wf_publish h core a b sc
      dsimp only
      split
      · exact hp
      · exact MemSys.wf_dropOwn hp _ _

theorem MemSys.wf_compatPut {ms : MemSys} (h : ms.wf = true) (core : Nat) (sc : Scope) (c : CStore) :
    (ms.compatPut core sc c).wf = true := MemSys.wf_availBytes _ _ _ _ _ _ (MemSys.wf_congr h rfl rfl)

/-- A compatibility-mode store that becomes available keeps the canonical form. -/
theorem MemSys.wf_compatAvail {ms : MemSys} (h : ms.wf = true) (core i : Nat) : (ms.compatAvail core i).wf = true := by
  unfold MemSys.compatAvail
  dsimp only
  split
  · exact h
  · exact MemSys.wf_compatPut h _ _ _

theorem MemSys.wf_compatUntil (core : Nat) (sc : Scope) (p : CStore → Bool) (n : Nat) {ms : MemSys} (h : ms.wf = true) :
    (MemSys.compatUntil core sc p n ms).wf = true := by
  induction n generalizing ms with
  | zero => exact h
  | succ n ih =>
    unfold MemSys.compatUntil
    dsimp only
    split
    · exact h
    · exact ih (MemSys.wf_compatPut h _ _ _)

/-- A compatibility-mode boundary keeps the canonical form. -/
theorem MemSys.wf_compatDrain {ms : MemSys} (h : ms.wf = true) (core : Nat) : (ms.compatDrain core).wf = true :=
  MemSys.wf_compatUntil _ _ _ _ h

theorem MemSys.wf_compatForce {ms : MemSys} (h : ms.wf = true) (core a : Nat) (sc : Scope) : (ms.compatForce core a sc).wf = true :=
  MemSys.wf_compatUntil _ _ _ _ h

theorem MemSys.wf_compatBefore {ms : MemSys} (h : ms.wf = true) (core : Nat) : (ms.compatBefore core).wf = true :=
  MemSys.wf_compatUntil _ _ _ _ h

/-! ## Releases and acquires -/

/-- A release keeps the canonical form. -/
theorem MemSys.wf_release {ms : MemSys} (h : ms.wf = true) (core : Nat) (sc : Scope) : (ms.release core sc).wf = true := by
  unfold MemSys.release
  dsimp only
  split
  · exact MemSys.wf_compatDrain h core
  · exact MemSys.wf_publishView (MemSys.wf_compatDrain h core) core sc

/-- An acquire keeps the canonical form. -/
theorem MemSys.wf_acquire {ms : MemSys} (h : ms.wf = true) (core : Nat) (sc : Scope) : (ms.acquire core sc).wf = true := by
  unfold MemSys.acquire
  split
  · exact h
  · exact MemSys.wf_congr h rfl rfl

/-! ## Accesses -/

theorem MemSys.wf_fill {ms : MemSys} (h : ms.wf = true) (core a : Nat) : (ms.fill core a).wf = true := by
  unfold MemSys.fill
  split
  · exact h
  · exact MemSys.wf_congr h rfl rfl

/-- An ordinary load keeps the canonical form. -/
theorem MemSys.wf_loadByte {ms : MemSys} (h : ms.wf = true) (core a : Nat) : (ms.loadByte core a).2.wf = true := by
  unfold MemSys.loadByte
  split
  · exact h
  · dsimp only
    split <;> exact MemSys.wf_fill h core a

/-- A load without a snapshot keeps the canonical form. -/
theorem MemSys.wf_loadNow {ms : MemSys} (h : ms.wf = true) (core a : Nat) : (ms.loadNow core a).2.wf = true :=
  MemSys.wf_patchSnap h _ _ _

/-- An ordinary store keeps the canonical form. -/
theorem MemSys.wf_storeByte {ms : MemSys} (h : ms.wf = true) (core a : Nat) (b : Byte) : (ms.storeByte core a b).wf = true := by
  unfold MemSys.storeByte
  split
  · exact MemSys.wf_setAll h _ a b
  · exact MemSys.wf_setOwn (MemSys.wf_congr h rfl rfl) core (rising_putBy Prod.fst (a, b) (MemSys.wf_own h core))

theorem MemSys.wf_settle {ms : MemSys} (h : ms.wf = true) (core a : Nat) (sc : Scope) : (ms.settle core a sc).wf = true := by
  unfold MemSys.settle
  split
  · exact h
  · dsimp only
    have hf := MemSys.wf_compatForce h core a sc
    split
    · exact hf
    · exact MemSys.wf_dropOwn (MemSys.wf_publish hf _ _ _ _) _ _

/-- A strong load keeps the canonical form. -/
theorem MemSys.wf_strongLoad {ms : MemSys} (h : ms.wf = true) (core a : Nat) (sc : Scope) :
    (ms.strongLoad core a sc).2.wf = true := by
  unfold MemSys.strongLoad
  split
  · exact MemSys.wf_loadByte h core a
  · exact MemSys.wf_patchSnap (MemSys.wf_settle h core a sc) _ _ _

/-- A strong store keeps the canonical form. -/
theorem MemSys.wf_strongStore {ms : MemSys} (h : ms.wf = true) (core a : Nat) (b : Byte) (sc : Scope) :
    (ms.strongStore core a b sc).wf = true := by
  unfold MemSys.strongStore
  split
  · exact MemSys.wf_setAll h _ a b
  · split
    · exact MemSys.wf_publish (MemSys.wf_settle h _ _ _) _ _ _ _
    · exact MemSys.wf_storeByte h _ _ _

/-- A store available to everybody keeps the canonical form. -/
theorem MemSys.wf_poke {ms : MemSys} (h : ms.wf = true) (who : Party) (a : Nat) (l : List Byte) : (ms.poke who a l).wf = true := by
  induction l generalizing ms a with
  | nil => exact h
  | cons b l ih => exact ih (MemSys.wf_setAll h who a b) (a + 1)

/-- Publication before an atomic keeps the canonical form. -/
theorem MemSys.wf_flushBytes {ms : MemSys} (h : ms.wf = true) (core a n : Nat) : (ms.flushBytes core a n).wf = true := by
  induction n with
  | zero => exact h
  | succ n ih =>
    unfold MemSys.flushBytes
    dsimp only
    have hf := MemSys.wf_compatForce ih core (a + n) Scope.system
    split
    · exact hf
    · exact MemSys.wf_dropOwn (MemSys.wf_setAll (MemSys.wf_patchSnap hf _ _ _) _ _ _) _ _

/-- An atomic's store keeps the canonical form. -/
theorem MemSys.wf_atomWrite {ms : MemSys} (h : ms.wf = true) (core a n v : Nat) : (ms.atomWrite core a n v).wf = true := by
  unfold MemSys.atomWrite
  apply MemSys.wf_poke
  generalize List.range n = l
  induction l generalizing ms with
  | nil => exact h
  | cons i l ih => exact ih (MemSys.wf_patchSnap h _ _ _)

/-- A load of bytes keeps the canonical form. -/
theorem MemSys.wf_loadBytes (core n a : Nat) {ms : MemSys} (h : ms.wf = true) : (MemSys.loadBytes core n a ms).2.wf = true := by
  induction n generalizing ms a with
  | zero => exact h
  | succ n ih => exact ih (a + 1) (MemSys.wf_loadByte h core a)

/-- A load of bytes without a snapshot keeps the canonical form. -/
theorem MemSys.wf_loadsNow (core n a : Nat) {ms : MemSys} (h : ms.wf = true) : (MemSys.loadsNow core n a ms).2.wf = true := by
  induction n generalizing ms a with
  | zero => exact h
  | succ n ih => exact ih (a + 1) (MemSys.wf_loadNow h core a)

/-- A strong load of bytes keeps the canonical form. -/
theorem MemSys.wf_strongLoads (core : Nat) (sc : Scope) (n a : Nat) {ms : MemSys} (h : ms.wf = true) :
    (MemSys.strongLoads core sc n a ms).2.wf = true := by
  induction n generalizing ms a with
  | zero => exact h
  | succ n ih => exact ih (a + 1) (MemSys.wf_strongLoad h core a sc)

/-- A store of bytes keeps the canonical form. -/
theorem MemSys.wf_storeBytes (core : Nat) (l : List Byte) (a : Nat) {ms : MemSys} (h : ms.wf = true) :
    (MemSys.storeBytes core l a ms).wf = true := by
  induction l generalizing ms a with
  | nil => exact h
  | cons b l ih => exact ih (a + 1) (MemSys.wf_storeByte h core a b)

/-- A strong store of bytes keeps the canonical form. -/
theorem MemSys.wf_strongStores (core : Nat) (sc : Scope) (l : List Byte) (a : Nat) {ms : MemSys} (h : ms.wf = true) :
    (MemSys.strongStores core sc l a ms).wf = true := by
  induction l generalizing ms a with
  | nil => exact h
  | cons b l ih => exact ih (a + 1) (MemSys.wf_strongStore h core a b sc)

/-- A compatibility-mode store keeps the canonical form. -/
theorem MemSys.wf_compatStore {ms : MemSys} (h : ms.wf = true) (core slot lane : Nat) (l : List Byte) (a : Nat) :
    (MemSys.compatStore core slot lane l a ms).wf = true := by
  unfold MemSys.compatStore
  dsimp only
  split
  · exact MemSys.wf_storeBytes core l a (MemSys.wf_compatBefore h core)
  · exact MemSys.wf_congr (MemSys.wf_storeBytes core l a h) rfl rfl

theorem rising_dropCells (p : Host.Cell → Bool) (l : List OwnView) (h : rising (l.map OwnView.core) = true) :
    rising ((l.map fun v => ({ v with mem := v.mem.filter p } : OwnView)).map OwnView.core) = true := by
  rw [List.map_map]; exact h

/-- Forgetting stores keeps the canonical form. -/
theorem MemSys.wf_forget {ms : MemSys} (h : ms.wf = true) (p : Nat → Bool) : (ms.forget p).wf = true := by
  rw [MemSys.wf_iff] at h ⊢
  refine ⟨h.1, rising_filter _ _ (rising_dropCells _ _ h.2.1), fun v hv => ?_⟩
  obtain ⟨hm, hne⟩ := List.mem_filter.1 hv
  obtain ⟨w, hw, rfl⟩ := List.mem_map.1 hm
  exact ⟨by simpa using hne, rising_filter _ _ (h.2.2 w hw).2⟩

/-- The memory of the machine after reset has the canonical form. -/
theorem MemSys.wf_reset : State.reset.dev.ms.wf = true := rfl

end Sys2Proof.Machine
end

