-- ==== Sys2Proof/Laws/PerInstr.lean ====
section
/-! SUPPORT. Statements made once per instruction. NamesRegistersOfTheFiles: every register an instruction names is one of
the 128 lane, 64 uniform or 8 mask registers, and its field lies in the
32-bit word (R3, R56). -/

namespace Sys2Proof.Laws.NamesRegistersOfTheFiles

open Sys2Proof.Machine

/-- A register of one of the three files, named by a field of the word. -/
def InFiles (u : Use) : Prop :=
  u.lo + u.wid ≤ 32 ∧ match u.reg with | .v n => n < 128 | .k n => n < 64 | .m n => n < 8

/-- Every register the instruction names is a register of the files. -/
def Statement (i : Instr) : Prop := ∀ u ∈ usesOf i, InFiles u

theorem lane {hv : BitVec 1} {f : BitVec 6} {lo : Nat} {m : Mode} (h : lo + 6 ≤ 32) : InFiles (.lane hv f lo m) :=
  ⟨h, show laneNo hv f < 128 by unfold laneNo; omega⟩

theorem lane7 (f : BitVec 7) (m : Mode) : InFiles (.lane7 f m) := ⟨by show 14 + 7 ≤ 32; decide, f.isLt⟩

theorem uni {f : BitVec 6} {lo : Nat} {m : Mode} (h : lo + 6 ≤ 32) : InFiles (.uni f lo m) := ⟨h, f.isLt⟩

theorem mask {f : BitVec 3} {lo : Nat} {m : Mode} (h : lo + 3 ≤ 32) : InFiles (.mask f lo m) := ⟨h, f.isLt⟩

theorem opB (kb hv : BitVec 1) (f : BitVec 6) : InFiles (Machine.opB kb hv f) := by
  unfold Machine.opB; split
  · exact uni (by decide)
  · exact lane (by decide)

theorem none_named : ∀ u ∈ ([] : List Use), InFiles u := nofun

theorem named {u : Use} {l : List Use} (h : InFiles u) (t : ∀ x ∈ l, InFiles x) : ∀ x ∈ u :: l, InFiles x :=
  List.forall_mem_cons.2 ⟨h, t⟩

theorem joined {l k : List Use} (h : ∀ x ∈ l, InFiles x) (t : ∀ x ∈ k, InFiles x) : ∀ x ∈ l ++ k, InFiles x :=
  List.forall_mem_append.2 ⟨h, t⟩

theorem guarded {c : Prop} [Decidable c] {l : List Use} (h : ∀ x ∈ l, InFiles x) : ∀ x ∈ (if c then l else []), InFiles x := by
  split
  · exact h
  · exact nofun

theorem either {c : Prop} [Decidable c] {u v : Use} (hu : InFiles u) (hv : InFiles v) : ∀ x ∈ [if c then u else v], InFiles x := by
  split
  · exact named hu none_named
  · exact named hv none_named

theorem each {n : Nat} {f : Nat → Use} (h : ∀ i, InFiles (f i)) : ∀ x ∈ (List.range n).map f, InFiles x := by
  intro x hx
  obtain ⟨i, -, rfl⟩ := List.mem_map.1 hx
  exact h i

theorem add {o} : Statement (.add o) := named (lane (by decide)) (named (lane (by decide)) (named (opB _ _ _) none_named))
theorem sub {o} : Statement (.sub o) := named (lane (by decide)) (named (lane (by decide)) (named (opB _ _ _) none_named))
theorem mul {o} : Statement (.mul o) := named (lane (by decide)) (named (lane (by decide)) (named (opB _ _ _) none_named))
theorem mulhiI {o} : Statement (.mulhiI o) := named (lane (by decide)) (named (lane (by decide)) (named (opB _ _ _) none_named))
theorem mulhiN {o} : Statement (.mulhiN o) := named (lane (by decide)) (named (lane (by decide)) (named (opB _ _ _) none_named))
theorem mad {o} : Statement (.mad o) := named (lane (by decide)) (named (lane (by decide)) (named (opB _ _ _) none_named))
theorem and {o} : Statement (.and o) := named (lane (by decide)) (named (lane (by decide)) (named (opB _ _ _) none_named))
theorem or {o} : Statement (.or o) := named (lane (by decide)) (named (lane (by decide)) (named (opB _ _ _) none_named))
theorem xor {o} : Statement (.xor o) := named (lane (by decide)) (named (lane (by decide)) (named (opB _ _ _) none_named))
theorem andn {o} : Statement (.andn o) := named (lane (by decide)) (named (lane (by decide)) (named (opB _ _ _) none_named))
theorem shl {o} : Statement (.shl o) := named (lane (by decide)) (named (lane (by decide)) (named (opB _ _ _) none_named))
theorem shr {o} : Statement (.shr o) := named (lane (by decide)) (named (lane (by decide)) (named (opB _ _ _) none_named))
theorem sar {o} : Statement (.sar o) := named (lane (by decide)) (named (lane (by decide)) (named (opB _ _ _) none_named))
theorem rot {o} : Statement (.rot o) := named (lane (by decide)) (named (lane (by decide)) (named (opB _ _ _) none_named))
theorem minI {o} : Statement (.minI o) := named (lane (by decide)) (named (lane (by decide)) (named (opB _ _ _) none_named))
theorem minN {o} : Statement (.minN o) := named (lane (by decide)) (named (lane (by decide)) (named (opB _ _ _) none_named))
theorem maxI {o} : Statement (.maxI o) := named (lane (by decide)) (named (lane (by decide)) (named (opB _ _ _) none_named))
theorem maxN {o} : Statement (.maxN o) := named (lane (by decide)) (named (lane (by decide)) (named (opB _ _ _) none_named))
theorem addsatI {o} : Statement (.addsatI o) := named (lane (by decide)) (named (lane (by decide)) (named (opB _ _ _) none_named))
theorem addsatN {o} : Statement (.addsatN o) := named (lane (by decide)) (named (lane (by decide)) (named (opB _ _ _) none_named))
theorem subsatI {o} : Statement (.subsatI o) := named (lane (by decide)) (named (lane (by decide)) (named (opB _ _ _) none_named))
theorem subsatN {o} : Statement (.subsatN o) := named (lane (by decide)) (named (lane (by decide)) (named (opB _ _ _) none_named))
theorem avgI {o} : Statement (.avgI o) := named (lane (by decide)) (named (lane (by decide)) (named (opB _ _ _) none_named))
theorem avgN {o} : Statement (.avgN o) := named (lane (by decide)) (named (lane (by decide)) (named (opB _ _ _) none_named))
theorem sadI {o} : Statement (.sadI o) := named (lane (by decide)) (named (lane (by decide)) (named (opB _ _ _) none_named))
theorem sadN {o} : Statement (.sadN o) := named (lane (by decide)) (named (lane (by decide)) (named (opB _ _ _) none_named))
theorem dot4I {o} : Statement (.dot4I o) := named (lane (by decide)) (named (lane (by decide)) (named (opB _ _ _) none_named))
theorem dot4N {o} : Statement (.dot4N o) := named (lane (by decide)) (named (lane (by decide)) (named (opB _ _ _) none_named))
theorem cmpI {o} : Statement (.cmpI o) := named (mask (by decide)) (named (lane (by decide)) (named (opB _ _ _) none_named))
theorem cmpN {o} : Statement (.cmpN o) := named (mask (by decide)) (named (lane (by decide)) (named (opB _ _ _) none_named))
theorem sel {o} : Statement (.sel o) := named (lane (by decide)) (named (lane (by decide)) (named (mask (by decide)) none_named))
theorem movReg {o} : Statement (.movReg o) := named (lane (by decide)) (named (lane (by decide)) none_named)
theorem movUniform {o} : Statement (.movUniform o) := named (lane (by decide)) (named (uni (by decide)) none_named)
theorem neg {o} : Statement (.neg o) := named (lane (by decide)) (named (lane (by decide)) none_named)
theorem abs {o} : Statement (.abs o) := named (lane (by decide)) (named (lane (by decide)) none_named)
theorem not {o} : Statement (.not o) := named (lane (by decide)) (named (lane (by decide)) none_named)
theorem popc {o} : Statement (.popc o) := named (lane (by decide)) (named (lane (by decide)) none_named)
theorem clz {o} : Statement (.clz o) := named (lane (by decide)) (named (lane (by decide)) none_named)
theorem ctz {o} : Statement (.ctz o) := named (lane (by decide)) (named (lane (by decide)) none_named)
theorem brev {o} : Statement (.brev o) := named (lane (by decide)) (named (lane (by decide)) none_named)
theorem bfx {o} : Statement (.bfx o) := named (lane (by decide)) (named (lane (by decide)) (named (opB _ _ _) none_named))
theorem bfi {o} : Statement (.bfi o) := named (lane (by decide)) (named (lane (by decide)) (named (opB _ _ _) none_named))
theorem permb {o} : Statement (.permb o) := named (lane (by decide)) (named (lane (by decide)) (named (opB _ _ _) none_named))
theorem lea {o} : Statement (.lea o) := named (lane (by decide)) (named (lane (by decide)) (named (opB _ _ _) none_named))
theorem addi {o} : Statement (.addi o) := named (lane (by decide)) (named (lane (by decide)) none_named)
theorem shli {o} : Statement (.shli o) := named (lane (by decide)) (named (lane (by decide)) none_named)
theorem shri {o} : Statement (.shri o) := named (lane (by decide)) (named (lane (by decide)) none_named)
theorem sari {o} : Statement (.sari o) := named (lane (by decide)) (named (lane (by decide)) none_named)
theorem roti {o} : Statement (.roti o) := named (lane (by decide)) (named (lane (by decide)) none_named)
theorem movi {o} : Statement (.movi o) := named (lane (by decide)) none_named
theorem fadd {o} : Statement (.fadd o) := named (lane (by decide)) (named (lane (by decide)) (named (opB _ _ _) none_named))
theorem fsub {o} : Statement (.fsub o) := named (lane (by decide)) (named (lane (by decide)) (named (opB _ _ _) none_named))
theorem fmul {o} : Statement (.fmul o) := named (lane (by decide)) (named (lane (by decide)) (named (opB _ _ _) none_named))
theorem fma {o} : Statement (.fma o) := named (lane (by decide)) (named (lane (by decide)) (named (opB _ _ _) none_named))
theorem fms {o} : Statement (.fms o) := named (lane (by decide)) (named (lane (by decide)) (named (opB _ _ _) none_named))
theorem fmin {o} : Statement (.fmin o) := named (lane (by decide)) (named (lane (by decide)) (named (opB _ _ _) none_named))
theorem fmax {o} : Statement (.fmax o) := named (lane (by decide)) (named (lane (by decide)) (named (opB _ _ _) none_named))
theorem fcmp {o} : Statement (.fcmp o) := named (mask (by decide)) (named (lane (by decide)) (named (opB _ _ _) none_named))
theorem fscale {o} : Statement (.fscale o) := named (lane (by decide)) (named (lane (by decide)) (named (opB _ _ _) none_named))
theorem fabs {o} : Statement (.fabs o) := named (lane (by decide)) (named (lane (by decide)) none_named)
theorem fneg {o} : Statement (.fneg o) := named (lane (by decide)) (named (lane (by decide)) none_named)
theorem fclass {o} : Statement (.fclass o) := named (lane (by decide)) (named (lane (by decide)) none_named)
theorem frnd {o} : Statement (.frnd o) := named (lane (by decide)) (named (lane (by decide)) none_named)
theorem frndRn {o} : Statement (.frndRn o) := named (lane (by decide)) (named (lane (by decide)) none_named)
theorem frndRz {o} : Statement (.frndRz o) := named (lane (by decide)) (named (lane (by decide)) none_named)
theorem frndRu {o} : Statement (.frndRu o) := named (lane (by decide)) (named (lane (by decide)) none_named)
theorem frndRd {o} : Statement (.frndRd o) := named (lane (by decide)) (named (lane (by decide)) none_named)
theorem rcp {o} : Statement (.rcp o) := named (lane (by decide)) (named (lane (by decide)) none_named)
theorem rsq {o} : Statement (.rsq o) := named (lane (by decide)) (named (lane (by decide)) none_named)
theorem sqrt {o} : Statement (.sqrt o) := named (lane (by decide)) (named (lane (by decide)) none_named)
theorem ex2 {o} : Statement (.ex2 o) := named (lane (by decide)) (named (lane (by decide)) none_named)
theorem lg2 {o} : Statement (.lg2 o) := named (lane (by decide)) (named (lane (by decide)) none_named)
theorem sinp {o} : Statement (.sinp o) := named (lane (by decide)) (named (lane (by decide)) none_named)
theorem cosp {o} : Statement (.cosp o) := named (lane (by decide)) (named (lane (by decide)) none_named)
theorem tanh {o} : Statement (.tanh o) := named (lane (by decide)) (named (lane (by decide)) none_named)
theorem cvt {o} : Statement (.cvt o) := named (lane (by decide)) (named (lane (by decide)) none_named)
theorem cvtnb {o} : Statement (.cvtnb o) := named (lane (by decide)) (named (lane (by decide)) none_named)
theorem cvtnbx {o} : Statement (.cvtnbx o) := named (lane (by decide)) (named (lane (by decide)) none_named)
theorem had {o} : Statement (.had o) := named (lane (by decide)) (named (lane (by decide)) none_named)
theorem pack {o} : Statement (.pack o) := named (lane (by decide)) (named (lane (by decide)) (named (opB _ _ _) none_named))
theorem unpack {o} : Statement (.unpack o) := named (lane (by decide)) (named (lane (by decide)) (named (opB _ _ _) none_named))
theorem shflIdx {o} : Statement (.shflIdx o) := named (lane (by decide)) (named (lane (by decide)) (named (opB _ _ _) none_named))
theorem shflXor {o} : Statement (.shflXor o) := named (lane (by decide)) (named (lane (by decide)) (named (opB _ _ _) none_named))
theorem shflUp {o} : Statement (.shflUp o) := named (lane (by decide)) (named (lane (by decide)) (named (opB _ _ _) none_named))
theorem shflDn {o} : Statement (.shflDn o) := named (lane (by decide)) (named (lane (by decide)) (named (opB _ _ _) none_named))
theorem bcast {o} : Statement (.bcast o) := named (lane (by decide)) (named (lane (by decide)) none_named)
theorem shflXorConst {o} : Statement (.shflXorConst o) := named (lane (by decide)) (named (lane (by decide)) none_named)
theorem shflUpConst {o} : Statement (.shflUpConst o) := named (lane (by decide)) (named (lane (by decide)) none_named)
theorem shflDnConst {o} : Statement (.shflDnConst o) := named (lane (by decide)) (named (lane (by decide)) none_named)
theorem qxch {o} : Statement (.qxch o) := named (lane (by decide)) (named (lane (by decide)) none_named)
theorem vote {o} : Statement (.vote o) := named (lane (by decide)) (named (lane (by decide)) none_named)
theorem matchLanes {o} : Statement (.matchLanes o) := named (lane (by decide)) (named (lane (by decide)) none_named)
theorem wred {o} : Statement (.wred o) := named (lane (by decide)) (named (lane (by decide)) none_named)
theorem wscan {o} : Statement (.wscan o) := named (lane (by decide)) (named (lane (by decide)) none_named)
theorem br {o} : Statement (.br o) := named (lane (by decide)) none_named
theorem jmp {o} : Statement (.jmp o) := none_named
theorem ji {o} : Statement (.ji o) := named (lane (by decide)) none_named
theorem call {o} : Statement (.call o) := named (lane (by decide)) none_named
theorem calli {o} : Statement (.calli o) := named (lane (by decide)) (named (lane (by decide)) none_named)
theorem ret {o} : Statement (.ret o) := named (lane (by decide)) none_named
theorem fork {o} : Statement (.fork o) := each fun _ => lane (by decide)
theorem rejoin {o} : Statement (.rejoin o) := named (opB _ _ _) none_named
theorem loopImm {o} : Statement (.loopImm o) := none_named
theorem loopUniform {o} : Statement (.loopUniform o) := named (uni (by decide)) none_named
theorem nop {o} : Statement (.nop o) := none_named
theorem yield {o} : Statement (.yield o) := none_named
theorem endFibre {o} : Statement (.endFibre o) := none_named
theorem setperfL {o} : Statement (.setperfL o) := named (lane (by decide)) none_named
theorem ldG {o} : Statement (.ldG o) := named (lane (by decide)) (named (lane (by decide)) (named (mask (by decide)) none_named))
theorem ldS {o} : Statement (.ldS o) := named (lane (by decide)) (named (lane (by decide)) (named (mask (by decide)) none_named))
theorem ldA {o} : Statement (.ldA o) := named (lane (by decide)) (named (lane (by decide)) (named (mask (by decide)) none_named))
theorem ldO {o} : Statement (.ldO o) := named (lane (by decide)) (named (lane (by decide)) (named (mask (by decide)) none_named))
theorem ldW {o} : Statement (.ldW o) := named (lane (by decide)) (named (lane (by decide)) (named (mask (by decide)) none_named))
theorem stG {o} : Statement (.stG o) := named (lane (by decide)) (named (lane (by decide)) (named (mask (by decide)) none_named))
theorem stS {o} : Statement (.stS o) := named (lane (by decide)) (named (lane (by decide)) (named (mask (by decide)) none_named))
theorem stA {o} : Statement (.stA o) := named (lane (by decide)) (named (lane (by decide)) (named (mask (by decide)) none_named))
theorem stO {o} : Statement (.stO o) := named (lane (by decide)) (named (lane (by decide)) (named (mask (by decide)) none_named))
theorem stW {o} : Statement (.stW o) := named (lane (by decide)) (named (lane (by decide)) (named (mask (by decide)) none_named))
theorem ldStrong {o} : Statement (.ldStrong o) := named (lane (by decide)) (named (lane (by decide)) (named (mask (by decide)) none_named))
theorem stStrong {o} : Statement (.stStrong o) := named (lane (by decide)) (named (lane (by decide)) (named (mask (by decide)) none_named))
theorem atomG32 {o} : Statement (.atomG32 o) := named (lane (by decide)) (named (lane (by decide)) none_named)
theorem atomG64 {o} : Statement (.atomG64 o) := joined (named (lane (by decide)) (named (lane (by decide)) none_named)) (guarded (named (lane (by decide)) none_named))
theorem atomS32 {o} : Statement (.atomS32 o) := named (lane (by decide)) (named (lane (by decide)) none_named)
theorem atomS64 {o} : Statement (.atomS64 o) := joined (named (lane (by decide)) (named (lane (by decide)) none_named)) (guarded (named (lane (by decide)) none_named))
theorem atomW32 {o} : Statement (.atomW32 o) := named (lane (by decide)) (named (lane (by decide)) none_named)
theorem atomW64 {o} : Statement (.atomW64 o) := joined (named (lane (by decide)) (named (lane (by decide)) none_named)) (guarded (named (lane (by decide)) none_named))
theorem fence {o} : Statement (.fence o) := none_named
theorem phase {o} : Statement (.phase o) := none_named
theorem pref {o} : Statement (.pref o) := named (lane (by decide)) (named (mask (by decide)) none_named)
theorem kvldRead {o} : Statement (.kvldRead o) := named (lane (by decide)) (named (lane (by decide)) (named (lane (by decide)) (named (opB _ _ _) none_named)))
theorem kvldOpen {o} : Statement (.kvldOpen o) := named (lane (by decide)) (named (lane (by decide)) (named (lane (by decide)) (named (opB _ _ _) none_named)))
theorem kvldClose {o} : Statement (.kvldClose o) := named (lane (by decide)) (named (lane (by decide)) (named (lane (by decide)) (named (opB _ _ _) none_named)))
theorem kvappAppend {o} : Statement (.kvappAppend o) := named (lane (by decide)) (named (lane (by decide)) (named (lane (by decide)) (named (opB _ _ _) none_named)))
theorem kvappUnref {o} : Statement (.kvappUnref o) := named (lane (by decide)) (named (lane (by decide)) (named (lane (by decide)) (named (opB _ _ _) none_named)))
theorem kvappPagein {o} : Statement (.kvappPagein o) := named (lane (by decide)) (named (lane (by decide)) (named (lane (by decide)) (named (opB _ _ _) none_named)))
theorem kvappCommit {o} : Statement (.kvappCommit o) := named (lane (by decide)) (named (lane (by decide)) (named (lane (by decide)) (named (opB _ _ _) none_named)))
theorem kvappRetain {o} : Statement (.kvappRetain o) := named (lane (by decide)) (named (lane (by decide)) (named (lane (by decide)) (named (opB _ _ _) none_named)))
theorem illegalWord {o} : Statement (.illegalWord o) := none_named
theorem kaddImm {o} : Statement (.kaddImm o) := named (uni (by decide)) (named (uni (by decide)) none_named)
theorem ksubImm {o} : Statement (.ksubImm o) := named (uni (by decide)) (named (uni (by decide)) none_named)
theorem kmulImm {o} : Statement (.kmulImm o) := named (uni (by decide)) (named (uni (by decide)) none_named)
theorem kandImm {o} : Statement (.kandImm o) := named (uni (by decide)) (named (uni (by decide)) none_named)
theorem korImm {o} : Statement (.korImm o) := named (uni (by decide)) (named (uni (by decide)) none_named)
theorem kxorImm {o} : Statement (.kxorImm o) := named (uni (by decide)) (named (uni (by decide)) none_named)
theorem kshlImm {o} : Statement (.kshlImm o) := named (uni (by decide)) (named (uni (by decide)) none_named)
theorem kshrImm {o} : Statement (.kshrImm o) := named (uni (by decide)) (named (uni (by decide)) none_named)
theorem kaddReg {o} : Statement (.kaddReg o) := named (uni (by decide)) (named (uni (by decide)) (named (uni (by decide)) none_named))
theorem ksubReg {o} : Statement (.ksubReg o) := named (uni (by decide)) (named (uni (by decide)) (named (uni (by decide)) none_named))
theorem kmulReg {o} : Statement (.kmulReg o) := named (uni (by decide)) (named (uni (by decide)) (named (uni (by decide)) none_named))
theorem kandReg {o} : Statement (.kandReg o) := named (uni (by decide)) (named (uni (by decide)) (named (uni (by decide)) none_named))
theorem korReg {o} : Statement (.korReg o) := named (uni (by decide)) (named (uni (by decide)) (named (uni (by decide)) none_named))
theorem kxorReg {o} : Statement (.kxorReg o) := named (uni (by decide)) (named (uni (by decide)) (named (uni (by decide)) none_named))
theorem kshlReg {o} : Statement (.kshlReg o) := named (uni (by decide)) (named (uni (by decide)) (named (uni (by decide)) none_named))
theorem kshrReg {o} : Statement (.kshrReg o) := named (uni (by decide)) (named (uni (by decide)) (named (uni (by decide)) none_named))
theorem kcmp {o} : Statement (.kcmp o) := named (uni (by decide)) (named (uni (by decide)) (named (uni (by decide)) none_named))
theorem ksel {o} : Statement (.ksel o) := named (uni (by decide)) (named (uni (by decide)) (named (uni (by decide)) none_named))
theorem kmov {o} : Statement (.kmov o) := named (uni (by decide)) (named (uni (by decide)) none_named)
theorem movkH0 {o} : Statement (.movkH0 o) := named (uni (by decide)) none_named
theorem movkH1 {o} : Statement (.movkH1 o) := named (uni (by decide)) none_named
theorem movkH2 {o} : Statement (.movkH2 o) := named (uni (by decide)) none_named
theorem movkH3 {o} : Statement (.movkH3 o) := named (uni (by decide)) none_named
theorem kldG {o} : Statement (.kldG o) := named (uni (by decide)) (named (uni (by decide)) none_named)
theorem kldS {o} : Statement (.kldS o) := named (uni (by decide)) (named (uni (by decide)) none_named)
theorem kstG {o} : Statement (.kstG o) := named (uni (by decide)) (named (uni (by decide)) none_named)
theorem kstS {o} : Statement (.kstS o) := named (uni (by decide)) (named (uni (by decide)) none_named)
theorem kbr {o} : Statement (.kbr o) := named (uni (by decide)) none_named
theorem kjmp {o} : Statement (.kjmp o) := none_named
theorem kcall {o} : Statement (.kcall o) := named (uni (by decide)) none_named
theorem kret {o} : Statement (.kret o) := named (uni (by decide)) none_named
theorem bar {o} : Statement (.bar o) := none_named
theorem tbar {o} : Statement (.tbar o) := none_named
theorem waitany {o} : Statement (.waitany o) := each fun _ => uni (by decide)
theorem arm {o} : Statement (.arm o) := named (uni (by decide)) none_named
theorem disarm {o} : Statement (.disarm o) := named (uni (by decide)) none_named
theorem post {o} : Statement (.post o) := named (uni (by decide)) (named (uni (by decide)) none_named)
theorem evset {o} : Statement (.evset o) := named (uni (by decide)) none_named
theorem evclr {o} : Statement (.evclr o) := named (uni (by decide)) none_named
theorem cpyk {o} : Statement (.cpyk o) := named (uni (by decide)) none_named
theorem handoff {o} : Statement (.handoff o) := named (uni (by decide)) (named (uni (by decide)) none_named)
theorem qpull {o} : Statement (.qpull o) := named (uni (by decide)) (named (uni (by decide)) none_named)
theorem enq {o} : Statement (.enq o) := named (uni (by decide)) (named (uni (by decide)) none_named)
theorem kick {o} : Statement (.kick o) := named (uni (by decide)) none_named
theorem pres {o} : Statement (.pres o) := named (uni (by decide)) none_named
theorem prel {o} : Statement (.prel o) := named (uni (by decide)) none_named
theorem pscl {o} : Statement (.pscl o) := named (uni (by decide)) (named (uni (by decide)) none_named)
theorem upret {o} : Statement (.upret o) := none_named
theorem upfail {o} : Statement (.upfail o) := named (uni (by decide)) none_named
theorem recur {o} : Statement (.recur o) := named (uni (by decide)) none_named
theorem rchild {o} : Statement (.rchild o) := named (uni (by decide)) none_named
theorem rbase {o} : Statement (.rbase o) := none_named
theorem rres {o} : Statement (.rres o) := named (uni (by decide)) none_named
theorem rarg {o} : Statement (.rarg o) := named (uni (by decide)) (named (uni (by decide)) none_named)
theorem srd {o} : Statement (.srd o) := either (uni (by decide)) (lane7 _ _)
theorem swr {o} : Statement (.swr o) := either (uni (by decide)) (lane7 _ _)
theorem trap {o} : Statement (.trap o) := none_named
theorem tret {o} : Statement (.tret o) := none_named
theorem tmask {o} : Statement (.tmask o) := none_named
theorem tunmask {o} : Statement (.tunmask o) := none_named
theorem rgn {o} : Statement (.rgn o) := none_named
theorem setperf {o} : Statement (.setperf o) := named (uni (by decide)) none_named
theorem bkpt {o} : Statement (.bkpt o) := none_named
theorem halt {o} : Statement (.halt o) := none_named
theorem rfetch {o} : Statement (.rfetch o) := none_named
theorem xbfe {o} : Statement (.xbfe o) := none_named
theorem xbfeS {o} : Statement (.xbfeS o) := none_named
theorem swait {o} : Statement (.swait o) := none_named
theorem disp {o} : Statement (.disp o) := none_named
theorem variableLatencyArrival : Statement (.variableLatencyArrival) := none_named
theorem yieldWaitEnd : Statement (.yieldWaitEnd) := none_named
theorem rejoinRelease : Statement (.rejoinRelease) := none_named
theorem rejoindl : Statement (.rejoindl) := none_named
theorem eventDelivery : Statement (.eventDelivery) := none_named
theorem mailboxArrival : Statement (.mailboxArrival) := none_named
theorem faultPath : Statement (.faultPath) := none_named
theorem pageRequestIssue : Statement (.pageRequestIssue) := none_named
theorem stage2RequestRecord : Statement (.stage2RequestRecord) := none_named
theorem faultRecord : Statement (.faultRecord) := none_named
theorem faultRingPoll : Statement (.faultRingPoll) := none_named
theorem prgResponseSuccess : Statement (.prgResponseSuccess) := none_named
theorem prgResponseInvalidRequest : Statement (.prgResponseInvalidRequest) := none_named
theorem prgResponseFailure : Statement (.prgResponseFailure) := none_named
theorem s2replySuccess : Statement (.s2replySuccess) := none_named
theorem s2replyInvalidRequest : Statement (.s2replyInvalidRequest) := none_named
theorem s2replyResponseFailure : Statement (.s2replyResponseFailure) := none_named
theorem freplyResume : Statement (.freplyResume) := none_named
theorem freplyTerminate : Statement (.freplyTerminate) := none_named
theorem translationWalk : Statement (.translationWalk) := none_named
theorem atsInvalidationRequest : Statement (.atsInvalidationRequest) := none_named
theorem s2invRange : Statement (.s2invRange) := none_named
theorem s2invAll : Statement (.s2invAll) := none_named
theorem invalidationComplete : Statement (.invalidationComplete) := none_named
theorem maskBudgetExpiry : Statement (.maskBudgetExpiry) := none_named
theorem preemptionRequest : Statement (.preemptionRequest) := none_named
theorem groupSave : Statement (.groupSave) := none_named
theorem groupRestore : Statement (.groupRestore) := none_named
theorem partialEviction : Statement (.partialEviction) := none_named
theorem energyQuotaExhausted : Statement (.energyQuotaExhausted) := none_named
theorem energyPeriodStart : Statement (.energyPeriodStart) := none_named
theorem walkDispatch : Statement (.walkDispatch) := none_named
theorem walkDraw : Statement (.walkDraw) := none_named
theorem walkStepAdmit : Statement (.walkStepAdmit) := none_named
theorem upcallDelivery : Statement (.upcallDelivery) := none_named
theorem tileProduct : Statement (.tileProduct) := none_named
theorem walkAbortRemote : Statement (.walkAbortRemote) := none_named
theorem walkGraceExpiry : Statement (.walkGraceExpiry) := none_named
theorem routineStart : Statement (.routineStart) := none_named
theorem copyElement : Statement (.copyElement) := none_named
theorem atomicEngineApply : Statement (.atomicEngineApply) := none_named
theorem gopenWrite : Statement (.gopenWrite) := none_named
theorem gcloseWrite : Statement (.gcloseWrite) := none_named
theorem grantLapse : Statement (.grantLapse) := none_named
theorem streamRelease : Statement (.streamRelease) := none_named
theorem kickWrite : Statement (.kickWrite) := none_named
theorem packetFetch : Statement (.packetFetch) := none_named
theorem fetcherRetry : Statement (.fetcherRetry) := none_named
theorem launch : Statement (.launch) := none_named
theorem walk : Statement (.walk) := none_named
theorem recurPacket : Statement (.recurPacket) := none_named
theorem event : Statement (.event) := none_named
theorem groupPlacement : Statement (.groupPlacement) := none_named
theorem passedOverTimeout : Statement (.passedOverTimeout) := none_named
theorem completionWordWrite : Statement (.completionWordWrite) := none_named
theorem mappingTick : Statement (.mappingTick) := none_named
theorem binCountdownExpiry : Statement (.binCountdownExpiry) := none_named
theorem ctxcmdCreate : Statement (.ctxcmdCreate) := none_named
theorem ctxcmdReread : Statement (.ctxcmdReread) := none_named
theorem ctxcmdDestroy : Statement (.ctxcmdDestroy) := none_named
theorem contextDestroyDone : Statement (.contextDestroyDone) := none_named
theorem s2rootWrite : Statement (.s2rootWrite) := none_named
theorem capWrite : Statement (.capWrite) := none_named
theorem floorWrite : Statement (.floorWrite) := none_named
theorem registerWrite : Statement (.registerWrite) := none_named
theorem powerEvaluation : Statement (.powerEvaluation) := none_named
theorem hostWrite : Statement (.hostWrite) := none_named
theorem peerAccess : Statement (.peerAccess) := none_named
theorem linkUp : Statement (.linkUp) := none_named
theorem linkDown : Statement (.linkDown) := none_named
theorem temperatureThreshold : Statement (.temperatureThreshold) := none_named
theorem uncorrectedError : Statement (.uncorrectedError) := none_named
theorem coreSignalWrite : Statement (.coreSignalWrite) := none_named
theorem swaitWake : Statement (.swaitWake) := none_named
theorem attest : Statement (.attest) := none_named
theorem cert : Statement (.cert) := none_named
theorem bootclr : Statement (.bootclr) := none_named
theorem allot : Statement (.allot) := none_named
theorem levread : Statement (.levread) := none_named
theorem update : Statement (.update) := none_named
theorem stopCmd : Statement (.stopCmd) := none_named
theorem goCmd : Statement (.goCmd) := none_named
theorem rdmem : Statement (.rdmem) := none_named
theorem wrmem : Statement (.wrmem) := none_named
theorem rdsave : Statement (.rdsave) := none_named
theorem breakCmd : Statement (.breakCmd) := none_named
theorem coldReset : Statement (.coldReset) := none_named
theorem warmReset : Statement (.warmReset) := none_named
theorem queueReset : Statement (.queueReset) := none_named
theorem priReenable : Statement (.priReenable) := none_named
theorem nodeBinConfiguration : Statement (.nodeBinConfiguration) := none_named
theorem storeBecomesAvailable : Statement (.storeBecomesAvailable) := none_named

end Sys2Proof.Laws.NamesRegistersOfTheFiles
end

