-- ==== Sys2Proof/Safety.lean ====
section
/-! DEFINITION. What counts as a safe run: one that never stops with a fault and is never refused. -/

namespace Sys2Proof.Machine

/-- Whether `n` steps from a state all give a next state. -/
def safeFor : Nat → State → Prop
  | 0, _ => True
  | n + 1, s => ∃ t, step s = .next t ∧ safeFor n t

/-- A state from which no run stops. -/
def Safe (s : State) : Prop := ∀ n, safeFor n s

end Sys2Proof.Machine
end

