-- ==== Sys2Proof/Tests/Slice0.lean ====
section
/-! SUPPORT. The model's own tests: words that the spec writes out, values of its worked examples, ill-formed instructions, and for each
statement with hypotheses a state and operands that meet them. -/

-- One theorem after the other: each waits for the checks of those before it, and would hold a thread meanwhile.
set_option Elab.async false

namespace Sys2Proof.Tests

open Machine Stmt

/-! ## Small states -/

/-- A batch of the fibres at home lanes 0 to n - 1 of one warp, in a group of context 0, whose address space is the loader's. -/
def dev (n : Nat) : Dev :=
  { Dev.reset.loadWord 0 with
    fibres := (List.range n).map fun l => { loadFibre 0 with lane := l }
    cur := { core := 0, gid := 1, pc := 0x10000, word := 0, members := (List.range n).map fun l => (0, l), anchor := 0 } }

/-- A state with that batch. -/
def st (n : Nat) : State := { State.reset with dev := dev n }

/-- The same with lane registers 0, 1, ... of every fibre set. -/
def stV (n : Nat) (vs : List W64) : State :=
  { st n with dev := { dev n with fibres := (dev n).fibres.map fun (f : Fibre) => { f with win := vs ++ f.win.drop vs.length } } }

/-- The state after an instruction. -/
def run (i : Instr) (s : State) : State := match exec i s with | .next t => t | _ => s

/-- A lane register of the fibre at a home lane. -/
def lane (t : State) (l r : Nat) : W64 := ((t.dev.fibre? 0 0 l).map fun f => f.vreg r).getD 0

/-! ## Hypotheses that can be met -/

/-- Operands: vD 7, vA 2, vB 3. -/
def r3 (ty : BitVec 2) : R3Op := { stl := 0, vd := 7, va := 2, vb := 3, hv := 0, ty := ty, kb := 0 }
/-- Unary operands. -/
def un (ty : BitVec 2) : UnOp := { stl := 0, vd := 63, va := 2, hv := 1, ty := ty }

/-- Operands of a form with the type fixed. -/
def r3w : R3wOp := { stl := 0, vd := 63, va := 63, vb := 63, hv := 1, kb := 0 }
/-- A comparison into m7. -/
def cmp (cc : BitVec 3) : CmpOp := { stl := 0, cc := cc, md := 7, va := 2, vb := 3, hv := 0, ty := 2, kb := 0 }
/-- An 8-bit immediate. -/
def im8 (n : BitVec 8) : Im8Op := { stl := 0, vd := 7, va := 2, imm := n, ty := 2 }
/-- An operand v2. -/
def ind : IndOp := { stl := 0, va := 2, hv := 0 }
/-- No operand. -/
def nul : NulOp := { stl := 0 }
/-- kD 54, kA 63 and an immediate. -/
def kim : KImmOp := { stl := 0, kd := 54, ka := 63, imm := 0x3FF }
/-- kD 63, kA 0, kB 54. -/
def k3 : K3Op := { stl := 0, kd := 63, ka := 0, kb := 54 }
/-- A half-word of k63. -/
def kh : KHalfOp := { stl := 0, kd := 63, imm := 0xFFFF }
/-- A special register and a lane or uniform register. -/
def sr (dk : BitVec 1) (reg : BitVec 7) (spr : BitVec 10) : SrOp := { stl := 0, dk := dk, reg := reg, spr := spr }

/-- Operands at the ends of their ranges, for each shape of instruction of a lane pipe. -/
def laneInstrs : List Instr :=
  ([[.add (r3 0), .sub (r3 1), .mul (r3 2), .mulhiI (r3 3), .mulhiN (r3 3), .mad (r3 2), .minI (r3 0), .minN (r3 0), .maxI (r3 0), .maxN (r3 0),
   .addsatI (r3 0), .addsatN (r3 0), .subsatI (r3 0), .subsatN (r3 0), .avgI (r3 0), .avgN (r3 0), .sadI (r3 0), .sadN (r3 0), .and (r3 3),
   .or (r3 3), .xor (r3 3), .andn (r3 3), .shl (r3 0), .shr (r3 0), .sar (r3 0), .rot (r3 0), .bfx (r3 2), .bfi (r3 2), .lea (r3 2), .lea (r3 3)],
  [.shli { stl := 0, vd := 63, va := 0, cnt := 7, ty := 0 }, .shri { stl := 0, vd := 7, va := 2, cnt := 63, ty := 3 },
   .sari { stl := 0, vd := 7, va := 2, cnt := 0, ty := 0 }, .roti { stl := 0, vd := 7, va := 2, cnt := 31, ty := 2 },
   .neg (un 3), .abs (un 0), .not (un 3), .popc (un 3), .clz (un 3), .ctz (un 3), .brev (un 3), .movReg (un 3),
   .movUniform { stl := 0, vd := 63, ku := 63, hv := 1, ty := 3 }, .addi { stl := 0, vd := 63, va := 0, imm := 255, ty := 3 },
   .movi { stl := 0, vd := 0, imm := 0x2000, ty := 3 }, .permb r3w, .dot4I r3w, .dot4N r3w,
   .sel { stl := 0, vd := 7, va := 2, ms := 7, hv := 0, ty := 0 }, .cmpI (cmp 5), .cmpN (cmp 0), .fcmp (cmp 7)],
  [.fadd (r3 0), .fsub (r3 1), .fmul (r3 2), .fma (r3 3), .fmin (r3 0), .fmax (r3 0), .fscale (r3 2), .frnd (un 2), .fclass (un 2),
   .rcp (un 0), .rsq (un 1), .sqrt (un 2), .ex2 (un 2), .lg2 (un 2), .sinp (un 2), .cosp (un 2), .tanh (un 2),
   .cvt { stl := 0, vd := 7, va := 2, td := 2, ts := 10, rnd := 3 }, .pack (r3 3), .unpack (r3 0),
   .had { stl := 0, vd := 7, va := 2, imm := 16 }, .had { stl := 0, vd := 7, va := 2, imm := 32 },
   .cvtnb { stl := 0, vd := 7, va := 2, g := 7, nf := 2, bl := 1, hf := 0 }, .cvtnbx { stl := 0, vd := 7, va := 2, g := 0, nf := 0, bl := 0, hf := 1 },
   .shflIdx (r3 0), .shflXor (r3 0), .shflUp (r3 0), .shflDn (r3 0), .bcast (im8 0), .shflXorConst (im8 255), .shflUpConst (im8 8),
   .shflDnConst (im8 0), .qxch (im8 0), .qxch (im8 2), .vote { stl := 0, vd := 7, va := 2, form := 3, hv := 0, ty := 2 }, .matchLanes (un 3),
   .wred { stl := 0, vd := 7, va := 2, op := 4, hv := 0, ty := 2 }, .wscan { stl := 0, vd := 7, va := 2, op := 10, hv := 0, ty := 2 }],
  [.br { stl := 0, va := 2, hv := 0, cc := 0, off := 0x800 }, .jmp { stl := 0, off := 0x200000 }, .call { stl := 0, vd := 63, off := 0xFFFF },
   .ji ind, .ret ind, .calli { stl := 0, vd := 63, va := 2, hv := 0 }, .nop nul, .loopImm { stl := 0, cnt := 511, off := 4095 },
   .loopUniform { stl := 0, kc := 63, off := 1 }, .yield nul, .setperfL ind, .fork { stl := 0, va := 0, cnt := 15, off := 5 },
   .rejoin { stl := 0, vb := 63, hv := 0, kb := 1 }, .endFibre nul]] : List (List Instr)).flatten

theorem test_ready_lane : ∀ i ∈ laneInstrs, i.wf = true ∧ Ready (st 2) i := by unfold Ready; decide +kernel

/-- Statements on shifts, address formation, special functions, HAD, CVTNB, QXCH and the reductions: their operand ranges at the ends. -/
theorem test_operand_ranges :
    (7 : BitVec 6).toNat < widthOf 0 ∧ (63 : BitVec 6).toNat < widthOf 3 ∧ 2 ≤ (r3 2).ty.toNat ∧ (un 2).ty.toNat ≤ 2 ∧
    ((16 : BitVec 8) = 16 ∨ (16 : BitVec 8) = 32) ∧ (2 : BitVec 2).toNat ≤ 2 ∧ (2 : BitVec 8).toNat ≤ 2 ∧
    ((4 : BitVec 6).toNat ≤ 4 ∨ (8 ≤ (4 : BitVec 6).toNat ∧ (4 : BitVec 6).toNat ≤ 10)) ∧
    ((10 : BitVec 6).toNat ≤ 4 ∨ (8 ≤ (10 : BitVec 6).toNat ∧ (10 : BitVec 6).toNat ≤ 10)) := by decide +kernel

/-- Jumps by register: the highest and the lowest canonical target. -/
theorem test_good_targets : GoodTarget 0x00007FFFFFFFFFFC ∧ GoodTarget 0xFFFF800000000000 ∧
    ∀ f ∈ (stV 2 [0, 0, 0x00007FFFFFFFFFFC]).dev.active, GoodTarget ((stV 2 [0, 0, 0x00007FFFFFFFFFFC]).dev.readV f (laneNo 0 2)) := by
  unfold GoodTarget; decide +kernel

/-- Jumps to an odd address and to one that is not canonical: the premises of the statement on bad targets. -/
theorem test_bad_target : (∀ i ∈ [Instr.ji ind, .ret ind, .calli { stl := 0, vd := 63, va := 2, hv := 0 }], Ready (stV 2 [0, 0, 2]) i) ∧
    (∀ f ∈ (stV 2 [0, 0, 2]).dev.active, ¬GoodTarget ((stV 2 [0, 0, 2]).dev.readV f (laneNo 0 2))) ∧ ¬GoodTarget 0x0000800000000000 := by
  unfold GoodTarget Ready; decide +kernel

/-- A batch whose fibres hold a bad TRAPPC. -/
def oddSt : State := { st 2 with dev := { dev 2 with fibres := (dev 2).fibres.map fun (f : Fibre) => { f with trappc := 1 } } }

theorem test_bad_return : Ready oddSt (.tret nul) ∧ ∀ f ∈ oddSt.dev.active, ¬GoodTarget f.trappc := by
  unfold GoodTarget Ready; decide +kernel

/-- A batch of helper fibres alone. -/
def helperSt : State := { st 2 with dev := { dev 2 with fibres := (dev 2).fibres.map fun (f : Fibre) => { f with helper := true } } }

theorem test_helper_premises : (∀ i ∈ [Instr.kstG kim, .kstS kim, .setperf { stl := 0, ka := 63 }], Ready helperSt i) ∧ helperSt.dev.allHelpers = true := by
  unfold Ready; decide +kernel

theorem test_loop_levels : ∀ f ∈ (st 2).dev.active, (511 : BitVec 32) = 0 ∨ f.lp0.count = 0 ∨ f.lp1.count = 0 ∨ f.lp2.count = 0 := by
  decide +kernel

/-- A group of two warps, the second without fibres: a FORK finds a place. -/
def forkSt : State :=
  { st 2 with dev := { dev 2 with
    warps := [launchWarp 0 0 1 0, launchWarp 0 1 1 1]
    fibres := (dev 2).fibres.map fun (f : Fibre) => { f with win := f.win.take 8 }
    groups := [{ loadGroup 1 0 with slots := [0, 1] }] } }

theorem test_fork_premises : Ready forkSt (.fork { stl := 0, va := 0, cnt := 7, off := 5 }) ∧ ProperBatch forkSt.dev ∧
    ∃ f, forkSt.dev.active.head? = some f ∧ (forkSt.dev.forkPlace f).isSome := by
  refine ⟨by unfold Ready; decide +kernel, ⟨by decide +kernel, ?_⟩, ⟨{ loadFibre 0 with win := List.replicate 8 0 }, by decide +kernel, by decide +kernel⟩⟩
  intro m hm
  rcases List.mem_cons.mp hm with rfl | hm
  · exact ⟨{ loadFibre 0 with win := List.replicate 8 0 }, by decide +kernel, rfl⟩
  · rw [List.mem_singleton.mp hm]
    exact ⟨{ loadFibre 0 with win := List.replicate 8 0, lane := 1 }, by decide +kernel, rfl⟩

theorem test_end_premises : ∀ f ∈ (st 2).dev.active, f.late = none ∧ f.helper = false := by decide +kernel

/-- Uniform instructions: shapes and the ends of register numbers. -/
def uniInstrs : List Instr :=
  ([[.kaddImm kim, .ksubImm kim, .kmulImm kim, .kandImm kim, .korImm kim, .kxorImm kim, .kshlImm { kim with imm := 63 }, .kshrImm { kim with imm := 0 },
   .kaddReg k3, .ksubReg k3, .kmulReg k3, .kandReg k3, .korReg k3, .kxorReg k3, .kshlReg k3, .kshrReg k3,
   .kcmp { stl := 0, kd := 63, ka := 0, kb := 54, cc := 9 }, .kmov { stl := 0, kd := 0, ka := 63 }, .ksel k3],
  [.movkH0 kh, .movkH1 kh, .movkH2 kh, .movkH3 kh, .kbr { stl := 0, ka := 63, cc := 5, off := 0x800 }, .kjmp { stl := 0, off := 0x200000 },
   .kret { stl := 0, ka := 0 }, .kcall { stl := 0, vd := 63, off := 0x8000 }, .trap { stl := 0, imm := 1023 }, .bkpt nul, .halt nul, .tret nul,
   .tmask nul, .tunmask nul, .rgn nul, .setperf { stl := 0, ka := 63 }, .srd (sr 0 7 0x10), .srd (sr 1 63 9), .srd (sr 1 63 0x31), .swr (sr 0 127 0x19), .swr (sr 1 63 0x40)]] : List (List Instr)).flatten

theorem test_ready_uniform : ∀ i ∈ uniInstrs, i.wf = true ∧ Ready (st 2) i := by unfold Ready; decide +kernel

/-- Every uniform register is held. -/
theorem test_holds_k : ∀ n < 64, HoldsK (st 2).dev n := by
  intro n h
  refine ⟨loadGroup 1 0, launchWarp 0 0 1 0, by decide +kernel, by decide +kernel, ?_⟩
  revert n; decide +kernel

theorem test_uniform_premises : (∀ e ∈ (st 2).dev.grp.outst, e.reg ≠ .k 63) ∧ GoodTarget ((st 2).dev.readK 0) ∧
    (∀ f ∈ (st 2).dev.active, GoodTarget f.trappc) := by
  unfold GoodTarget; decide +kernel

/-- Special registers: the numbers at the ends, and writable ones of each kind with a value that keeps res0 at 0. -/
theorem test_special_registers : (sprOf 0).isSome ∧ (sprOf 0x10).isSome ∧ (sprOf 0x40).isSome ∧
    (∃ r, sprOf 0x19 = some r ∧ r.rw = true ∧ r.held = .group ∧ ∀ f ∈ (st 2).dev.active, (st 2).dev.readV f 127 &&& r.res0 = 0) ∧
    (∃ r, sprOf 0x18 = some r ∧ r.rw = true ∧ r.held = .fibre ∧ ∀ f ∈ (stV 1 [7]).dev.active, (stV 1 [7]).dev.readV f 0 &&& r.res0 = 0) := by
  refine ⟨by decide, by decide, by decide, ⟨_, rfl, rfl, rfl, by decide +kernel⟩, ⟨_, rfl, rfl, rfl, by decide +kernel⟩⟩

/-- A window of 8 registers: register 63 lies beyond it. -/
theorem test_beyond_window : ∃ f ∈ forkSt.dev.active, ∃ u ∈ usesOf (.add { r3 0 with vb := 63 }), ∃ n, u.reg = .v n ∧ f.win.length ≤ n := by
  refine ⟨{ loadFibre 0 with win := List.replicate 8 0 }, by decide +kernel, ⟨.v 63, 4, 6, .r⟩, ?_, 63, rfl, by decide +kernel⟩
  decide +kernel

/-- A short read under GCTL.SBCHK. -/
def shortSt : State :=
  { st 1 with dev := { dev 1 with
    groups := [{ loadGroup 1 0 with gctl := 1 }]
    fibres := [{ loadFibre 0 with infl := [⟨.v 2, 0, 5⟩] }] } }

/-- No lane register that the instruction names lies beyond the window. -/
def inWindow (i : Instr) (f : Fibre) : Bool :=
  (usesOf i).all fun u => match u.reg with | .v n => decide (n < f.win.length) | _ => true

theorem test_short_read : (∃ f ∈ shortSt.dev.active, shortSt.dev.sbchk = true ∧ shortSt.dev.isShort (usesOf (.add (r3 0))) f = true) ∧
    ∀ f ∈ shortSt.dev.active, inWindow (.add (r3 0)) f = true := by decide +kernel

/-! ### Memory -/

/-- Whether an access passes the checks. -/
def clearB (d : Dev) (q : Acc) (v a : W64) : Bool :=
  decide (a.toNat % q.n = 0) && (q.sp != 0 || decide ((a.setWidth 48).signExtend 64 = a)) &&
  (q.sp == 0 || (d.slotHeld d.grp q v a && !d.slotShut d.grp q a))

theorem clear_of_check {d : Dev} {q : Acc} {v a : W64} (h : clearB d q v a = true) : Clear d q v a := by
  simp only [clearB, Bool.and_eq_true, Bool.or_eq_true, decide_eq_true_eq, bne_iff_ne, beq_iff_eq, Bool.not_eq_true'] at h
  obtain ⟨⟨ha, hg⟩, hl⟩ := h
  exact ⟨ha, fun h0 => hg.resolve_left fun hn => hn h0, fun h0 => hl.resolve_left h0⟩

/-- The places that accesses reach. -/
def reachB (q : Acc) (acc core ctx : Nat) : Dev → List W64 → Option (List Place)
  | _, [] => some []
  | d, a :: l =>
    if q.sp = 0 then
      let t := d.translate core ctx (a.setWidth 48).toNat acc
      match t.1 with
      | .ok x => (reachB q acc core ctx t.2 l).map (.phys x :: ·)
      | .error _ => none
    else match q.spot core a with
      | some x => (reachB q acc core ctx d l).map (placeOf x :: ·)
      | none => none

theorem reached_of_check {q : Acc} {acc core ctx : Nat} {l : List W64} {d : Dev} {ps : List Place} (h : reachB q acc core ctx d l = some ps) :
    Reached q acc core ctx d l ps := by
  induction l generalizing d ps with
  | nil => exact (Option.some.inj h).symm
  | cons a l ih =>
    rw [reachB] at h
    split at h
    · next hs =>
      cases hx : (d.translate core ctx (a.setWidth 48).toNat acc).1 with
      | error e => simp only [hx] at h; cases h
      | ok x =>
        simp only [hx, Option.map_eq_some_iff] at h
        obtain ⟨rest, hr, rfl⟩ := h
        exact ⟨_, rest, rfl, by rw [if_pos hs]; exact ⟨⟨x, hx, rfl⟩, ih hr⟩⟩
    · next hs =>
      cases hx : q.spot core a with
      | none => simp [hx] at h
      | some x =>
        simp only [hx, Option.map_eq_some_iff] at h
        obtain ⟨rest, hr, rfl⟩ := h
        exact ⟨_, rest, rfl, by rw [if_neg hs]; exact ⟨⟨x, hx, rfl⟩, ih hr⟩⟩

/-- A group that holds the whole scratchpad, every accumulator slot and a grant over its registers. -/
def memSt (n : Nat) (vs : List W64) : State :=
  let s := stV n vs
  { s with dev := { s.dev with groups := [{ loadGroup 1 0 with spad := [⟨0, 2048⟩], aslots := List.range 16 }] } }

/-- The address of slot j of a load or store through v2. -/
def slotAt (s : State) (f : Fibre) (n j : Nat) : W64 := s.dev.readV f 2 + BitVec.ofInt 64 ((0 : Int) * n) + BitVec.ofNat 64 (j * n)

/-- Whether every slot of an access, all of them taking part, passes the checks and reaches a place, and all its places are memory's. -/
def goesB (s : State) (q : Acc) (acc vd : Nat) : Bool :=
  let d := s.dev
  let slots := d.active.flatMap fun f => (List.range (8 / q.n)).map fun j => (f, j)
  let a (x : Fibre × Nat) : W64 := slotAt s x.1 q.n x.2
  slots.all (fun x => clearB d q (d.readV x.1 vd) (a x)) &&
  match reachB q acc d.grp.core d.grp.ctx d (slots.map a) with
  | some ps => ps.all fun p => match p with | .phys _ => true | _ => false
  | none => false

/-- Loads and stores of every space: eight slots at the first bytes of a space, and one slot at the last ones. -/
def memCases : List (Acc × W64) :=
  [(⟨0, 1, false, none⟩, 0), (⟨1, 1, false, none⟩, 0), (⟨2, 4, false, none⟩, 0), (⟨1, 8, false, none⟩, 0x7FFF8), (⟨2, 8, false, none⟩, 0x3FFF8),
   (⟨0, 8, false, some 6⟩, 0x3FFFFFF8), (⟨4, 8, false, some 3⟩, 0xFE0000000000), (⟨4, 8, false, some 6⟩, 0xFE000007FFF8)]

theorem test_access_premises :
    (∀ x ∈ memCases, goesB (memSt 2 [0, 0, x.2]) x.1 1 7 = true) ∧
    (∀ x ∈ memCases, goesB (memSt 2 [0, 0, x.2]) { x.1 with store := true } 2 7 = true) := by
  refine ⟨by decide +kernel, by decide +kernel⟩

theorem test_load_premises : let s := memSt 2 []
    (∀ i ∈ [Instr.ldG { stl := 0, vd := 3, va := 2, msk := 0, off := 7, sz := 0, hv := 0 }, .ldS { stl := 0, vd := 3, va := 2, msk := 0, off := 7, sz := 1, hv := 0 },
        .ldA { stl := 0, vd := 3, va := 2, msk := 7, off := 0, sz := 2, hv := 0 }, .ldO { stl := 0, vd := 3, va := 2, msk := 0, off := 0, sz := 3, hv := 1 },
        .ldW { stl := 0, vd := 3, va := 2, msk := 0, off := 0, sz := 3, hv := 0 }, .ldStrong { stl := 0, vd := 3, va := 2, msk := 0, scope := 6, sp := 1, sz := 3, hv := 0 }],
      Ready s i) ∧
    Apart s.dev ∧ s.dev.ms.wf = true ∧ (∀ q, Quiet s.dev q) ∧ ∀ c x, s.dev.ms.ownGet c x = none := by
  refine ⟨by unfold Ready; decide +kernel, by unfold Apart; decide +kernel, by decide +kernel, fun q _ => by decide +kernel, fun c x => rfl⟩

theorem test_store_premises : let s := memSt 2 []
    (∀ i ∈ [Instr.stG { stl := 0, vd := 7, va := 2, msk := 0, off := 7, sz := 0, hv := 0 }, .stS { stl := 0, vd := 7, va := 2, msk := 0, off := 7, sz := 1, hv := 0 },
        .stA { stl := 0, vd := 7, va := 2, msk := 7, off := 0, sz := 2, hv := 0 }, .stW { stl := 0, vd := 7, va := 2, msk := 0, off := 0, sz := 3, hv := 0 },
        .stStrong { stl := 0, vd := 7, va := 2, msk := 0, scope := 6, sp := 0, sz := 3, hv := 0 }], Ready s i) ∧
    Ready (memSt 32 []) (.stO { stl := 0, vd := 7, va := 2, msk := 0, off := 0, sz := 3, hv := 0 }) ∧ (memSt 32 []).dev.cur.members.length = 32 := by
  refine ⟨by unfold Ready; decide +kernel, by unfold Ready; decide +kernel, by decide +kernel⟩

/-- Operands of an atomic. -/
def atm (aop : BitVec 4) : AtomOp := { stl := 0, vd := 7, va := 2, aop := aop, ord := 3, scope := 6, hv := 0 }
/-- Operands of an atomic on the own scratchpad. -/
def atmS (aop : BitVec 4) : AtomSOp := { stl := 0, vd := 7, va := 2, aop := aop, ord := 3, hv := 0 }

theorem test_scratch_atomic_premises : let s := memSt 2 [0, 0, 0x7FFF8]
    Ready s (.atomS64 (atmS 9)) ∧ Ready s (.atomS32 (atmS 11)) ∧ (9 : BitVec 4).toNat ≤ 11 ∧ (11 : BitVec 4).toNat ≤ 11 ∧
    Apart s.dev ∧ s.dev.ms.wf = true ∧ s.dev.ms.pendingOf s.dev.grp.core = [] ∧ (∀ f ∈ s.dev.active, f.late = none) ∧
    ∀ f ∈ s.dev.active, f.helper = false ∧ clearB s.dev ⟨1, 8, true, some 3⟩ 0 (s.dev.readV f 2) = true := by
  unfold Ready Apart; decide +kernel

theorem test_engine_atomic_premises :
    (let s := memSt 2 [0, 0, 0x3FFFFFF8]; let q : Acc := ⟨0, 8, true, some 6⟩
     Ready s (.atomG64 (atm 9)) ∧ Ready s (.atomG32 (atm 0)) ∧ Apart s.dev ∧ s.dev.ms.regLines = [] ∧ (∀ f ∈ s.dev.active, f.late = none) ∧
     (∀ f ∈ s.dev.active, clearB s.dev q 0 (s.dev.readV f 2) = true) ∧
     reachB q 3 0 0 s.dev (s.dev.active.map fun f => s.dev.readV f 2) = some ([0x3FFFFFF8, 0x3FFFFFF8].map Place.phys)) ∧
    let s := memSt 2 [0, 0, 0xFE0000000000]; let q : Acc := ⟨4, 4, true, some 6⟩
    Ready s (.atomW32 (atm 0)) ∧ Ready s (.atomW64 (atm 9)) ∧ (∀ f ∈ s.dev.active, clearB s.dev q 0 (s.dev.readV f 2) = true) ∧
      q.spot 0 0xFE0000000000 = some (.mem 0 0) := by
  unfold Ready Apart; decide +kernel

/-- A request. -/
def req0 : AtomReq :=
  { core := 0, slot := 0, lane := 0, vd := 7, addr := 0x100, wide := true, aop := 11, x := 5, y := 6, acq := some 6, at_ := 0, pc := 0, va := 0x100, rec_ := 0, repc := 0
    lps := (⟨0, 0, 0⟩, ⟨0, 0, 0⟩, ⟨0, 0, 0⟩) }

/-- It stands at the head of cluster 31's engine, where it arrived in the cycle before. -/
def engSt : State :=
  { memSt 1 [] with dev := { (memSt 1 []).dev with
    arg := { a := 31 }, cycle := 1
    clusters := [{ no := 31, queue := [req0], bins := [], pass := 1, want := 1, grant := 4 }] } }

theorem test_engine_premises : (atomHeads (engSt.dev.cluster engSt.dev.arg.a).queue engSt.dev.cycle).head? = some req0 ∧ engSt.dev.oracle = [] ∧ req0.aop ≤ 11 ∧
    engSt.dev.arg.a < 64 ∧ isRegAddr req0.addr = false ∧ isRegAddr (req0.addr + 7) = false ∧ engSt.dev.ms.wf = true ∧ engSt.dev.ms.pendingOf req0.core = [] ∧
    req0 ∈ atomHeads [{ req0 with lane := 1, core := 511 }, req0, { req0 with addr := 0x140 }] 1 := by decide +kernel

/-- With uniform registers k0, k1, ... of the group set. -/
def withK (s : State) (ks : List W64) : State :=
  { s with dev := { s.dev with groups := s.dev.groups.map fun (g : Group) => { g with ks := ks ++ g.ks.drop ks.length } } }

/-- Fences of every order and scope, and prefetches. -/
theorem test_fence_premises : Ready (memSt 2 []) (.fence { stl := 0, ord := 3, scope := 6 }) ∧ Ready (memSt 2 []) (.phase { stl := 0, ord := 1, scope := 3 }) ∧
    Ready (memSt 2 []) (.pref { stl := 0, lvl := 2, va := 2, msk := 0, off := 15, sz := 3, hv := 0 }) := by
  unfold Ready; decide +kernel

/-- Uniform accesses, with the ends of the offset: -512 and 511 times 8 bytes. -/
theorem test_uniform_memory_premises : let s := withK (memSt 2 []) [0x1000]
    let o : KImmOp := { stl := 0, kd := 63, ka := 0, imm := 0x200 }
    let p : KImmOp := { stl := 0, kd := 54, ka := 0, imm := 0x1FF }
    Ready s (.kldG o) ∧ Ready s (.kstS p) ∧ HoldsK s.dev 63 ∧ HoldsK s.dev 54 ∧ s.dev.allHelpers = false ∧ s.dev.ms.wf = true ∧
    (∀ q, Quiet s.dev q) ∧
    (let q : Acc := ⟨0, 8, false, none⟩; let a := s.dev.readK 0 + BitVec.ofInt 64 (8 * o.imm.toInt)
     clearB s.dev q 0 a = true ∧ reachB q 1 0 0 s.dev [a] = some [.phys 0]) ∧
    let q : Acc := ⟨1, 8, true, none⟩; let a := s.dev.readK 0 + BitVec.ofInt 64 (8 * p.imm.toInt)
    clearB s.dev q (s.dev.readK 54) a = true ∧ reachB q 2 0 0 s.dev [a] = some [.phys (slotBase 0 + 0x1FF8)] := by
  refine ⟨by unfold Ready; decide +kernel, by unfold Ready; decide +kernel, ?_, ?_, by decide +kernel, by decide +kernel, fun q _ => by decide +kernel,
    by decide +kernel, by decide +kernel⟩
  · exact ⟨(withK (memSt 2 []) [0x1000]).dev.grp, launchWarp 0 0 1 0, by decide +kernel, by decide +kernel, by decide +kernel⟩
  · exact ⟨(withK (memSt 2 []) [0x1000]).dev.grp, launchWarp 0 0 1 0, by decide +kernel, by decide +kernel, by decide +kernel⟩

/-! ### Tokens, waits and barriers -/

/-- A token of a kind with a name, in bits 63 to 32. -/
def tok (kind name : Nat) : W64 := BitVec.ofNat 64 ((kind * 2 ^ 28 + name) * 2 ^ 32)

/-- The check of R165 on a token. -/
def goodTok (t : W32) : Bool :=
  let name := t.toNat % 2 ^ 28
  match t.toNat / 2 ^ 28 with
  | 1 => decide (name < 2 ^ 19) | 2 => true | 3 => decide (name / 2 ^ 18 ≤ 511) || decide (name / 2 ^ 18 = 0x3FF) | 4 => true
  | 5 => decide (name < 256) | 6 => true | 7 => decide (name < 32) | _ => false

theorem goodTok_iff (t : W32) : GoodToken t ↔ goodTok t = true := by
  unfold GoodToken goodTok
  dsimp only
  generalize t.toNat / 2 ^ 28 = k
  split <;> simp

/-- Listed kinds at the ends of their names; a token outside them. -/
theorem test_tokens : (∀ x ∈ [(1, 0), (1, 0x7FFFF), (2, 0xFFFFFFF), (3, 0x7FFFFFF), (3, 0xFFFFFFF), (4, 0), (5, 255), (6, 0), (7, 31)],
      goodTok (TokenIn (tok x.1 x.2)) = true ∧ KindOf (TokenIn (tok x.1 x.2)) = x.1) ∧
    (∀ x ∈ [(0, 0), (1, 0x80000), (3, 0x8000000), (5, 256), (7, 32), (8, 0)], goodTok (TokenIn (tok x.1 x.2)) = false) := by
  decide +kernel

theorem test_arm_premises : let s := withK (st 2) [tok 2 0xFFFFFFF]
    Ready s (.arm { stl := 0, ka := 0 }) ∧ Ready s (.disarm { stl := 0, ka := 0 }) ∧ goodTok (TokenIn (s.dev.readK 0)) = true ∧ KindOf (TokenIn (s.dev.readK 0)) ≠ 4 ∧
    ∀ c n w, s.dev.warp? c n = some w → (∃ i p, HoldsToken w (TokenIn (s.dev.readK 0)) i p) ∨ ∃ i, FirstFree w i := by
  refine ⟨by unfold Ready; decide +kernel, by unfold Ready; decide +kernel, by decide +kernel, by decide +kernel, ?_⟩
  intro c n w hw
  have hm : w ∈ [launchWarp 0 0 1 0] := List.mem_of_find?_eq_some hw
  rw [List.mem_singleton.mp hm]
  exact .inr ⟨0, rfl, fun j hj => absurd hj (Nat.not_lt_zero j)⟩

theorem test_bad_token_premises : let s := withK (st 2) [tok 7 32]
    Ready s (.arm { stl := 0, ka := 0 }) ∧ goodTok (TokenIn (s.dev.readK 0)) = false := by
  refine ⟨by unfold Ready; decide +kernel, by decide +kernel⟩

/-- A warp with every slot armed. -/
def fullWarp : Warp := { launchWarp 0 0 1 0 with pend := List.replicate 16 (some ⟨0x10000000, none, 0⟩) }

/-- An ARM of an upcall role; an ARM of another token than the 16 armed; a POST of a token of another kind. -/
theorem test_trapping_token_premises : let s := withK (st 2) [tok 4 0]
    let t : State := { withK (st 2) [tok 1 8] with dev := { (withK (st 2) [tok 1 8]).dev with warps := [fullWarp] } }
    Ready s (.arm { stl := 0, ka := 0 }) ∧ KindOf (TokenIn (s.dev.readK 0)) = 4 ∧
    Ready s (.post { stl := 0, kd := 0, ka := 63 }) ∧ NoneLate s.dev ∧ KindOf (TokenIn (s.dev.readK 0)) ≠ 3 ∧
    Ready t (.arm { stl := 0, ka := 0 }) ∧ (0, 0) ∈ t.dev.cur.members ∧ t.dev.warp? t.dev.cur.core 0 = some fullWarp ∧
    (¬∃ i p, HoldsToken fullWarp (TokenIn (t.dev.readK 0)) i p) ∧ ¬∃ i, FirstFree fullWarp i := by
  refine ⟨by unfold Ready; decide +kernel, by decide +kernel, by unfold Ready; decide +kernel, by unfold NoneLate; decide +kernel, by decide +kernel,
    by unfold Ready; decide +kernel, by decide +kernel, by decide +kernel, ?_, ?_⟩
  · rintro ⟨i, p, hi, hn, -⟩
    have hm : some p ∈ List.replicate 16 (some (⟨0x10000000, none, 0⟩ : PSlot)) := List.mem_of_getElem? hi
    have hp : p = ⟨0x10000000, none, 0⟩ := by simpa using (List.eq_of_mem_replicate hm)
    subst hp
    revert hn; decide +kernel
  · rintro ⟨i, hi, -⟩
    have hm : (none : Option PSlot) ∈ List.replicate 16 (some (⟨0x10000000, none, 0⟩ : PSlot)) := List.mem_of_getElem? hi
    cases List.eq_of_mem_replicate hm

theorem test_post_premises : (∀ name ∈ [0, 0x7FFFFFF, 0xFFFFFFF], let s := withK (st 2) [tok 3 name]
    Ready s (.post { stl := 0, kd := 0, ka := 63 }) ∧ NoneLate s.dev ∧ goodTok (TokenIn (s.dev.readK 0)) = true ∧ KindOf (TokenIn (s.dev.readK 0)) = 3) ∧
    Ready (st 2) (.evset { stl := 0, ka := 63 }) ∧ Ready (st 2) (.evclr { stl := 0, ka := 0 }) := by
  unfold Ready NoneLate; decide +kernel

/-- Eight bindings at k0 to k7. -/
def waSt : State := withK (st 2) (List.replicate 8 (tok 1 0))

/-- A wait on one token and on eight. -/
theorem test_waitany_premises : let d := waSt.dev
    (∀ n ∈ [(0 : BitVec 3), 7], Ready waSt (.waitany { stl := 0, ka := 0, n := n })) ∧ d.warp? d.cur.core d.cur.anchor = some (launchWarp 0 0 1 0) ∧ NoneLate d ∧
    (∀ f ∈ d.fibres, f.core = d.cur.core → f.slot = d.cur.anchor → (f.slot, f.lane) ∈ d.cur.members) ∧ (∀ m ∈ d.cur.members, m.1 = d.cur.anchor) ∧
    ∀ i < 8, goodTok (TokenIn (d.readK i)) = true := by
  unfold Ready NoneLate; decide +kernel

/-- A change of the device. -/
def withDev (s : State) (f : Dev → Dev) : State := { s with dev := f s.dev }

/-- Bytes put where every party sees them. -/
def withBytes (s : State) (a : Nat) (b : List Byte) : State := withDev s fun d => { d with ms := d.ms.poke .hub a b }

/-- Operands of the event under test. -/
def withArg (s : State) (a : EvArg) : State := withDev s fun d => { d with arg := a }

theorem none_armed (n k : Nat) (q : PSlot) : (List.replicate n (none : Option PSlot))[k]? ≠ some (some q) := by
  rw [List.getElem?_replicate]
  split <;> simp

/-- A warp waiting for a token, and an arrival. -/
def evSt (w : Warp) (token : W64) : State :=
  withDev (st 1) fun d => { d with
    warps := [w], arrivals := [⟨0, 0, TokenIn token, 0, none, 3⟩]
    fibres := d.fibres.map fun (f : Fibre) => { f with wait := .parked } }

/-- A warp parked on one token. -/
def parkedOn (token : W64) : Warp := { launchWarp 0 0 1 0 with park := some [token] }

/-- The arrival in such a state. -/
def arr0 (token : W64) : Arrival := ⟨0, 0, TokenIn token, 0, none, 3⟩

theorem hears_evSt (w : Warp) (token : W64) (h : w.core = 0 ∧ w.gid = 1) : Hears (evSt w token).dev (arr0 token) w :=
  ⟨h.1, ⟨loadGroup 1 0, by rw [h.2]; rfl, rfl⟩, fun n hn => nomatch hn⟩

theorem test_event_arrives : let s := evSt (parkedOn (tok 1 8)) (tok 1 8)
    s.dev.arg.c ≠ 5 ∧ s.dev.arg.c ≠ 6 ∧ s.dev.arrivals[s.dev.arg.b]? = some (arr0 (tok 1 8)) ∧ (s.dev.warps.map fun w => (w.core, w.slot)).Nodup ∧
    KindOf (arr0 (tok 1 8)).token = 1 ∧ ∃ i, WakesNow s.dev (arr0 (tok 1 8)) (parkedOn (tok 1 8)) i := by
  refine ⟨by decide, by decide, rfl, by decide, by decide, 0, hears_evSt _ _ ⟨rfl, rfl⟩, ⟨arr0 (tok 1 8), 0, 0, 0⟩, by decide +kernel, rfl, rfl, rfl⟩

theorem test_post_wakes : let s := evSt (parkedOn (tok 3 0xFFFFFFF)) (tok 3 0x3FFFF)
    s.dev.arrivals[s.dev.arg.b]? = some (arr0 (tok 3 0x3FFFF)) ∧ KindOf (arr0 (tok 3 0x3FFFF)).token = 3 ∧
      LowestWarp s.dev (parkedOn (tok 3 0xFFFFFFF)) fun w => ∃ i, WakesNow s.dev (arr0 (tok 3 0x3FFFF)) w i := by
  refine ⟨rfl, by decide, ⟨0, hears_evSt _ _ ⟨rfl, rfl⟩, ⟨arr0 (tok 3 0x3FFFF), 0, 0, 0⟩, by decide +kernel, rfl, rfl, rfl⟩, ?_⟩
  intro v hv _
  have hv : v ∈ [parkedOn (tok 3 0xFFFFFFF)] := hv
  cases List.mem_singleton.mp hv
  exact Nat.le_refl _

/-- A warp that is not parked, with a token armed in its last pending slot. -/
def armedFor (token : W64) : Warp := { launchWarp 0 0 1 0 with pend := List.replicate 15 none ++ [some ⟨TokenIn token, none, 0⟩] }

theorem test_post_finds_armed : let s := evSt (armedFor (tok 3 0)) (tok 3 0)
    s.dev.arrivals[s.dev.arg.b]? = some (arr0 (tok 3 0)) ∧ KindOf (arr0 (tok 3 0)).token = 3 ∧
      (¬∃ w ∈ s.dev.warps, ∃ i, WakesNow s.dev (arr0 (tok 3 0)) w i) ∧
      LowestWarp s.dev (armedFor (tok 3 0)) fun w => ∃ i q, FindsArmed s.dev (arr0 (tok 3 0)) w i q := by
  refine ⟨rfl, by decide, ?_, ⟨15, ⟨TokenIn (tok 3 0), none, 0⟩, hears_evSt _ _ ⟨rfl, rfl⟩, ⟨rfl, rfl, ?_⟩, rfl⟩, ?_⟩
  · rintro ⟨w, hw, i, -, x, hx, -⟩
    have hw : w ∈ [armedFor (tok 3 0)] := hw
    rw [List.mem_singleton.mp hw] at hx
    have hn : (evSt (armedFor (tok 3 0)) (tok 3 0)).dev.wakes (armedFor (tok 3 0)).core [] = [] := by decide +kernel
    rw [hn] at hx
    cases hx
  · intro j hj q hq
    have hq : (List.replicate 15 none ++ [some ⟨TokenIn (tok 3 0), none, 0⟩])[j]? = some (some q) := hq
    rw [List.getElem?_append_left (by simpa using hj)] at hq
    exact absurd hq (none_armed 15 j q)
  · intro v hv _
    have hv : v ∈ [armedFor (tok 3 0)] := hv
    cases List.mem_singleton.mp hv
    exact Nat.le_refl _

/-- A saved group of one warp that has the token armed. -/
def awaySaved (token : W64) : Saved :=
  { group := loadGroup 1 0, warps := [armedFor token], fibres := [], area := 0x100000, partial_ := false, replay := false, halted := false, walkArea := 0, recLive := false }

/-- It alone, its area in memory, and nobody on the core. -/
def awaySt (token : W64) : State :=
  withBytes (withDev (evSt (armedFor token) token) fun d => { d with warps := [], fibres := [], saved := [awaySaved token] }) 0x100000 (awaySaved token).bytes

/-- Saved listeners: of a token for all of them, and of one for one of them. -/
theorem test_saved_listeners : ∀ k ∈ [7, 3], let s := awaySt (tok k 0); let d := s.dev; let a := arr0 (tok k 0)
    d.arrivals[d.arg.b]? = some a ∧ KindOf a.token = k ∧ (∀ w ∈ d.warps, ¬Hears d a w) ∧ (d.warps.map fun w => (w.core, w.slot)).Nodup ∧
    (∃ x ∈ d.saved, Saved.hears a x = true ∧ d.armedSaved a.token x ≠ [] ∧ (d.armedSaved a.token x).head? = some 0 ∧ ∃ w ∈ x.warps, w.warpid = 0) ∧
    d.saved.length = 1 := by
  have h : ∀ k ∈ [7, 3], let s := awaySt (tok k 0); let d := s.dev; let a := arr0 (tok k 0)
      d.arrivals[d.arg.b]? = some a ∧ KindOf a.token = k ∧ d.warps = [] ∧
      (∃ x ∈ d.saved, Saved.hears a x = true ∧ d.armedSaved a.token x ≠ [] ∧ (d.armedSaved a.token x).head? = some 0 ∧ ∃ w ∈ x.warps, w.warpid = 0) ∧
      d.saved.length = 1 := by decide +kernel
  intro k hk
  obtain ⟨h1, h2, h3, h4, h5⟩ := h k hk
  refine ⟨h1, h2, ?_, ?_, h4, h5⟩
  · intro w hw
    rw [show (awaySt (tok k 0)).dev.warps = [] from h3] at hw
    cases hw
  · show ((awaySt (tok k 0)).dev.warps.map fun w => (w.core, w.slot)).Nodup
    rw [show (awaySt (tok k 0)).dev.warps = [] from h3]
    exact List.nodup_nil

/-- One saved record at most satisfies a predicate where at most one is saved. -/
theorem atMostOne_of_length (d : Dev) (p : Saved → Prop) (h : d.saved.length ≤ 1) : AtMostOne d p := by
  intro i j x y hx hy _ _
  have hi := (List.getElem?_eq_some_iff.mp hx).1
  have hj := (List.getElem?_eq_some_iff.mp hy).1
  omega

theorem test_mailbox_premises : let s := withDev (st 1) fun d => { d with posts := [⟨0, 0, ⟨0, 511, TokenIn (tok 3 0x7FFFFFF), 5, none, 5⟩⟩] }
    ∃ p, s.dev.posts[s.dev.arg.a]? = some p := ⟨_, rfl⟩

theorem test_barrier_premises : Ready (st 2) (.bar { stl := 0, n := 7 }) ∧ Ready (st 2) (.tbar { stl := 0, n := 0 }) ∧
    ((st 2).dev.cur.gid ≠ 0 ∧ ∀ f ∈ (st 2).dev.fibres, (st 2).dev.cur.has f = true → (st 2).dev.gidOf f = (st 2).dev.cur.gid) ∧
    ((st 2).dev.group? (st 2).dev.cur.gid).isSome ∧ (st 2).dev.saved = [] ∧ (((st 2).dev.team (st 2).dev.grp).map Group.gid).Nodup ∧
    -- the batch is the whole group, so that both complete; a third fibre keeps them waiting
    (st 2).dev.fibres.all (st 2).dev.cur.has = true ∧ ∃ f ∈ (withDev (st 2) fun d => { d with fibres := d.fibres ++ [{ loadFibre 0 with lane := 2 }] }).dev.fibres,
      (st 2).dev.cur.has f = false := by
  unfold Ready; decide +kernel

/-- Two fibres that wait for each other with different masks. -/
def dlSt : State := withDev (st 2) fun d => { d with
  fibres := d.fibres.map fun (f : Fibre) => { f with wait := .rejoin (if f.lane = 0 then 3 else 7) } }

theorem test_rejoin_deadlock_premises : let d := dlSt.dev
    (∀ f ∈ d.inSlot 0 0, f.lane < 32) ∧ ((d.inSlot 0 0).map Fibre.lane).Nodup ∧ d.arg.a = 0 ∧ d.arg.b = 0 ∧
    ∀ f ∈ d.inSlot 0 0, ∀ m, f.wait = .rejoin m → ∃ g ∈ d.inSlot 0 0, m.getLsbD g.lane = true ∧ g.wait ≠ .rejoin m := by
  refine ⟨by decide +kernel, by decide +kernel, rfl, rfl, ?_⟩
  have h : ∀ f ∈ dlSt.dev.inSlot 0 0, ∃ g ∈ dlSt.dev.inSlot 0 0, (if f.lane = 0 then (3 : LaneMap) else 7).getLsbD g.lane = true ∧
      g.wait ≠ .rejoin (if f.lane = 0 then 3 else 7) := by decide +kernel
  have hw : ∀ f ∈ dlSt.dev.inSlot 0 0, f.wait = .rejoin (if f.lane = 0 then 3 else 7) := by decide +kernel
  intro f hf m hm
  rw [hw f hf] at hm
  cases hm
  exact h f hf

theorem test_variable_arrival_premises : (st 1).dev.arg.flag = false ∧
    let s := withArg (st 1) { flag := true, d := 63 }
    s.dev.arg.flag = true ∧ ∃ w g, s.dev.warp? s.dev.arg.a s.dev.arg.b = some w ∧ s.dev.group? w.gid = some g :=
  ⟨rfl, rfl, launchWarp 0 0 1 0, loadGroup 1 0, by decide +kernel, by decide +kernel⟩

/-! ### Work -/

/-- A state whose group holds its whole scratchpad, with k0, k1, ... set. -/
def wkSt (ks : List W64) : State := withK (memSt 1 []) ks

/-- Handles of the last unit and of an accumulator slot. -/
theorem test_handoff_premises : (let d := (wkSt [0x7F_0000_0001]).dev
      Ready (wkSt [0x7F_0000_0001]) (.handoff { stl := 0, kd := 0, ka := 63 }) ∧ NoneLate d ∧ (d.readK 0).toNat / 2 ^ 62 = 0 ∧
      ∀ u, (d.readK 0).toNat / 2 ^ 32 % 2 ^ 19 ≤ u → u < (d.readK 0).toNat / 2 ^ 32 % 2 ^ 19 + (d.readK 0).toNat % 2 ^ 16 → HasUnit d.grp u) ∧
    let d := (wkSt [0x4000_0000_0000_000F]).dev
    (d.readK 0).toNat / 2 ^ 62 = 1 ∧ (d.readK 0).toNat % 16 ∈ d.grp.aslots := by
  refine ⟨⟨by unfold Ready; decide +kernel, by unfold NoneLate; decide +kernel, by decide +kernel, ?_⟩, by decide +kernel, by decide +kernel⟩
  intro u h1 h2
  have hk : ((wkSt [0x7F_0000_0001]).dev.readK 0).toNat = 0x7F_0000_0001 := by decide +kernel
  rw [hk] at h1 h2
  exact ⟨⟨0, 2048⟩, by decide +kernel, Nat.zero_le u, by simp only; omega⟩

/-- Work queue 255 of a table at IPA 0x6000, with one item behind its tail. -/
def wqSt (tail : Nat) : State :=
  let s := withDev (wkSt [0, 255]) fun d => { d with hub := d.hub.setCtx { loadCtx 0 with wqt := 0x6000 } }
  withBytes (withBytes s (0x6000 + 32 * 255) (leBytes 8 0x7000 ++ [20, 0, 0, 0] ++ leBytes 4 5 ++ leBytes 8 0x7800 ++ leBytes 8 0)) 0x7800 (leBytes 4 tail)

theorem test_qpull_premises : Ready (wqSt 5) (.qpull { stl := 0, kd := 63, ka := 1 }) ∧ NoneLate (wqSt 5).dev ∧ HoldsK (wqSt 5).dev 63 ∧
    (wqSt 5).dev.lookQueue 0 255 = .empty ∧ (∃ v p n, (wqSt 6).dev.lookQueue 0 255 = .item v p n) := by
  refine ⟨by unfold Ready; decide +kernel, by unfold NoneLate; decide +kernel, ⟨(wqSt 5).dev.grp, launchWarp 0 0 1 0, by decide +kernel, by decide +kernel,
    by decide +kernel⟩, by decide +kernel, 0, 0x6000 + 32 * 255 + 12, 5, by decide +kernel⟩

/-- Bin 1023 of cluster 0, one record short of full. -/
def binSt : State := withDev (wkSt [0x7FFC0, 1023]) fun d => { d with
  clusters := [{ no := 0, queue := [], bins := [⟨1023, 0, 3, 8, 10, 0x20000, 1, 1, 1, 2, List.replicate 7 ⟨List.replicate 64 0, 1⟩, some 5⟩], pass := 1, want := 1, grant := 4 }] }

theorem test_enq_premises : Ready binSt (.enq { stl := 0, kd := 0, ka := 1 }) ∧ NoneLate binSt.dev ∧ ∃ b, (binSt.dev.cluster 0).bin? 1023 = some b ∧
    b.ctx = binSt.dev.grp.ctx ∧ b.recs.length < 8 ∧ (binSt.dev.readK 0).toNat % 2 ^ 19 % 64 = 0 ∧
    binSt.dev.holdsByte binSt.dev.grp.ctx binSt.dev.grp.core ((binSt.dev.readK 0).toNat % 2 ^ 19) = true ∧ (binSt.dev.readK 1).toNat % 1024 = 1023 :=
  ⟨by unfold Ready; decide +kernel, by unfold NoneLate; decide +kernel, _, rfl, by decide +kernel, by decide, by decide +kernel, by decide +kernel, by decide +kernel⟩

/-- A queue of context 0, mapped, with nothing fetched. -/
def queue0 : Queue :=
  { qid := 0xFFFF, desc := 0x8000, ctx := 0, cls := 1, ring := 0x9000, size := 4, ridx := 0x8800, h := 0, f := 0, hw := some 255, ticks := 0, wait := 0, fresh := false
    refused := false, stopped := false, paused := false, kicks := [], half := [], pend := [], live := [] }

/-- A state with a queue. -/
def qSt (q : Queue) : State := withDev (wkSt [0x1_0000_FFFF]) fun d => { d with hub := d.hub.setQueue q }

theorem test_kick_premises : Ready (qSt queue0) (.kick { stl := 0, ka := 0 }) ∧ NoneLate (qSt queue0).dev ∧
    ∃ q, (qSt queue0).dev.hub.queue? (((qSt queue0).dev.readK 0).toNat % 2 ^ 16) = some q ∧ q.ctx = (qSt queue0).dev.grp.ctx :=
  ⟨by unfold Ready; decide +kernel, by unfold NoneLate; decide +kernel, queue0, by decide +kernel, by decide +kernel⟩

/-- A bin due, and a configuration whose fields are all at an end of their ranges. -/
theorem test_bin_premises : (let s := withArg binSt { a := 0, b := 1023 }
      ∃ b, (s.dev.cluster s.dev.arg.a).bin? s.dev.arg.b = some b) ∧
    ∀ nums ∈ [[1, 0, 1, 1, 1, 2], [8, 65535, 32, 32, 16, 128]], let a : EvArg := { a := 31, b := 1023, c := 0, d := 3, v := 0x7FFFFFFFFFFC, nums := nums }
      let n (i : Nat) : Nat := nth a.nums i 0
      a.a < 32 ∧ a.b < 1024 ∧ ((st 1).dev.hub.ctx? a.c).isSome ∧ a.d ≤ 3 ∧ 1 ≤ n 0 ∧ n 0 ≤ 8 ∧ n 1 < 2 ^ 16 ∧ 1 ≤ n 2 ∧ n 2 ≤ 32 ∧ 1 ≤ n 3 ∧ n 3 ≤ 32 ∧
      1 ≤ n 4 ∧ n 4 ≤ 16 ∧ 2 ≤ n 5 ∧ n 5 ≤ 128 ∧ GoodTarget a.v := by
  refine ⟨⟨_, rfl⟩, ?_⟩
  unfold GoodTarget; decide +kernel

/-- Whether a result is a given value. -/
def okIs (x : Except FaultUnit Nat) (a : Nat) : Bool := match x with | .ok b => b == a | .error _ => false

theorem okIs_eq {x : Except FaultUnit Nat} {a : Nat} (h : okIs x a = true) : x = .ok a := by
  cases x with
  | ok b => rw [eq_of_beq h]
  | error e => cases h

theorem ok_of_isOk {ε α : Type} {x : Except ε α} (h : x.isOk = true) : ∃ a, x = .ok a := by
  cases x with
  | ok a => exact ⟨a, rfl⟩
  | error e => cases h

/-! ### Copies and grants -/

/-- A copy request of one 8-byte element, from spad offset 0x1000 to the last 8 bytes of the scratchpad, on channel 7. -/
def copyBytes : List Byte :=
  leBytes 8 0x1000 ++ leBytes 8 0x7FFF8 ++ leBytes 4 (0x73011) ++ leBytes 4 0xFFFFFFFF ++ leBytes 2 1 ++ List.replicate 38 0

/-- A state of a full batch whose k0 names a request at the given scratchpad offset. -/
def cpSt (n off : Nat) : State := withBytes (withK (memSt n []) [BitVec.ofNat 64 off]) (slotBase 0 + off) copyBytes

theorem test_cpyk_premises : let s := cpSt 32 0x7FFC0
    Ready s (.cpyk { stl := 0, ka := 0 }) ∧ NoneLate s.dev ∧ s.dev.cur.members.length = 32 ∧ s.dev.copyTrap s.dev.grp 0x7FFC0 = none ∧
    InSpad s.dev 0 0x7FFD0 4 / 2 ^ 16 % 8 = 7 :=
  ⟨by unfold Ready; decide +kernel, by unfold NoneLate; decide +kernel, by decide +kernel, by decide +kernel, by decide +kernel⟩

/-- The request that stands there finds room. -/
theorem test_cpyk_room : ∀ c, CopyOf (cpSt 32 0x7FFC0).dev 0 0x7FFC0 c → c.order = 0 → c.gid = 1 → c.slot = 0 → (cpSt 32 0x7FFC0).dev.copyRoom 0 0 7 c = true := by
  rintro ⟨order, gid, slot, ssp, dsp, src, dst, scat, esz, counts, strides, bobj, done⟩ ⟨h1, h2, h3, h4, h5, h6, h7, h8, h9, h10⟩ ho hg hs
  obtain rfl : order = 0 := ho
  obtain rfl : gid = 1 := hg
  obtain rfl : slot = 0 := hs
  obtain rfl : ssp = 1 := h1.trans (by decide +kernel)
  obtain rfl : dsp = 1 := h2.trans (by decide +kernel)
  obtain rfl : esz = 3 := h3.trans (by decide +kernel)
  obtain rfl : src = slotBase 0 + 0x1000 := h5.trans (show PhysBase 0 1 (InSpad (cpSt 32 0x7FFC0).dev 0 0x7FFC0 8) = _ by decide +kernel)
  obtain rfl : dst = slotBase 0 + 0x7FFF8 := h6.trans (show PhysBase 0 1 (InSpad (cpSt 32 0x7FFC0).dev 0 (0x7FFC0 + 8) 8) = _ by decide +kernel)
  obtain rfl : counts = [1] := h7.trans (by decide +kernel)
  obtain rfl : strides = [0] := h8.trans (by decide +kernel)
  obtain rfl : bobj = none := h9.trans (by decide +kernel)
  obtain rfl : done = 0 := h10
  cases scat <;> decide +kernel

theorem test_cpyk_trap_premises : (let s := cpSt 31 0x7FFC0
      Ready s (.cpyk { stl := 0, ka := 0 }) ∧ NoneLate s.dev ∧ s.dev.cur.members.length < 32) ∧
    let s := cpSt 32 0x7FFC8
    Ready s (.cpyk { stl := 0, ka := 0 }) ∧ NoneLate s.dev ∧ s.dev.cur.members.length = 32 ∧ (s.dev.readK 0).toNat % 64 ≠ 0 := by
  unfold Ready NoneLate; decide +kernel

/-- The copy of that request, accepted. -/
def copy0 : Copy :=
  { order := 0, gid := 1, slot := 0, ssp := 1, dsp := 1, src := slotBase 0 + 0x1000, dst := slotBase 0 + 0x7FFF8, scat := false, esz := 3, counts := [1]
    strides := [0], bobj := none, done := 0 }

/-- A channel that performs it. -/
def elSt : State := withDev (withArg (memSt 1 []) { c := 7 }) fun d => { d with
  cores := [{ no := 0, shut := [], chans := [⟨0, 7, 0, 8, [copy0], false⟩], walk := none, wstat := 0, wstall := 0, rec_ := none }] }

theorem test_copy_element_premises : ∃ p q, let d := elSt.dev
    d.ms.wf = true ∧ ((d.core 0).chan 0 7).reqs = copy0 :: [] ∧ ((d.core 0).chan 0 7).stalled = false ∧ d.elemWaits 0 copy0 = false ∧ d.arg.a < 512 ∧
    (∀ o, copy0.bobj = some o → o < 0x80000) ∧ (d.elemPlace 0 0 copy0 false).1 = .ok p ∧ ((d.elemPlace 0 0 copy0 false).2.elemPlace 0 0 copy0 true).1 = .ok q :=
  ⟨.phys (slotBase 0 + 0x1000), .phys (slotBase 0 + 0x7FFF8), by decide +kernel, by decide +kernel, by decide +kernel, by decide +kernel, by decide,
    fun o h => (nomatch h), by rfl, by rfl⟩

/-- A group whose last grant waits to lapse. -/
def grSt : State := withDev (st 1) fun d => { d with
  arg := { a := 1, b := 7, v := 7 }
  groups := [{ loadGroup 1 0 with grants := List.replicate 7 none ++ [some { lmask := 1, nreg := 1, base := 0, closing := true, next := none }] }] }

theorem test_grant_premises : (∃ g, grSt.dev.group? grSt.dev.arg.a = some g ∧ grSt.dev.arg.b < g.grants.length ∧
      ∃ r, nth g.grants 7 none = some r ∧ r.closing = true ∧ grSt.dev.copyInto g r = false) ∧
    let s := withArg grSt { v := 7 }
    ∃ w g, s.dev.warp? s.dev.arg.a s.dev.arg.b = some w ∧ s.dev.group? w.gid = some g ∧ g.grants.length = 8 :=
  ⟨⟨grSt.dev.grp, by decide +kernel, by decide +kernel, _, by rfl, rfl, by decide +kernel⟩,
    launchWarp 0 0 1 0, grSt.dev.grp, by decide +kernel, by decide +kernel, by decide +kernel⟩

/-! ### Walks -/

/-- A problem record of one tile with MXFP8 operands; WCTR at 0x7000. -/
def walkBytes : List Byte :=
  leBytes 2 1 ++ leBytes 2 0 ++ [0, 0, 0x22, 0x10] ++ leBytes 4 64 ++ leBytes 4 64 ++ leBytes 4 64 ++ [0x11, 1] ++ leBytes 2 1 ++ leBytes 8 0x7000 ++
  leBytes 8 0 ++ leBytes 4 0x40000001 ++ leBytes 4 0x40000002 ++ leBytes 4 0 ++ List.replicate 204 0

theorem test_walk_record_accepted : badWalk walkBytes = false := by decide +kernel

/-- An upcall, the first of its walk. -/
def up0 (kind : Nat) (s : UpSt) : Upcall :=
  { seq := 0, sweep := 0, kind := kind, cons := false, token := 0x40000001, args := BitVec.ofNat 64 kind :: List.replicate 7 0, st := s }

/-- Its panes: operand A at granule 0, operand B behind it. -/
def pane0 (b : Bool) (s : PaneSt) : Pane := { (walkRec walkBytes).newPane (if b then 4 else 0) 0 0 0 b with ngr := 4, st := s }

/-- A walk on core 0 with one sweep of one tile in its window. -/
def eng0 : WalkEng :=
  { lid := 0, ctx := 0, recA := 0x8000, rcd := walkRec walkBytes, cores := [0], prod := 1, cons := 2, st := .running, first := true, oldPrev := 0, chunkPrev := 0
    noMore := false, drawDue := true, units := [], todo := [], window := [⟨0, 0, [⟨0, 0, 0, .acc 0⟩], 1⟩], tops := [], offered := [none, none, none], panes := []
    slots := [0], ups := [], nseq := 1, raise := [], busy := none, stopAt := (0, 0), grace := 0, stall := 0, started := true }

/-- A state whose core 0 runs a walk; the batch's warp serves upcall 0 of it. -/
def wSt (ks : List W64) (e : WalkEng) : State := withDev (withK (memSt 2 []) ks) fun d => { d with
  warps := [{ launchWarp 0 0 1 0 with occ := some 0 }]
  cores := [{ no := 0, shut := [], chans := [], walk := some e, wstat := 0, wstall := 0, rec_ := none }] }

/-- Serving a PA upcall with its pane reserved. -/
def presEng : WalkEng := { eng0 with ups := [up0 0 (.delivered 0)], panes := [pane0 false .reserved] }

/-- Serves and the rest, on such a state. -/
theorem serves_wSt (ks : List W64) (e : WalkEng) (u : Upcall) (h : e.ups = [u]) (hs : u.seq = 0) : Serves (wSt ks e).dev e u := by
  refine ⟨by rfl, by rfl, { launchWarp 0 0 1 0 with occ := some 0 }, 0, by rfl, by rfl, ?_⟩
  simp [h, hs]

theorem wholeWarp_wSt (ks : List W64) (e : WalkEng) : WholeWarp (wSt ks e).dev := by
  refine ⟨?_, ?_⟩
  · have h : ∀ f ∈ (st 2).dev.fibres, (f.slot, f.lane) ∈ (st 2).dev.cur.members := by decide +kernel
    intro f hf _ _
    have hf : f ∈ (stV 2 []).dev.fibres := hf
    obtain ⟨x, hx, rfl⟩ := List.mem_map.mp hf
    exact h x hx
  · have h : ∀ m ∈ (st 2).dev.cur.members, m.1 = 0 := by decide +kernel
    exact h

/-- A template for an MXFP8 pane of 64 by 64 in four granules, at 0x5000. -/
def template : List Byte := leBytes 16 (2 + 64 * 2 ^ 48 + 64 * 2 ^ 32 + 0x1000 * 2 ^ 16)

theorem test_pres_premises : let s := withBytes (wSt [0x5000] presEng) 0x5000 template; let a := s.dev.readK 0
    Ready s (.pres { stl := 0, ka := 0 }) ∧ PaneOf presEng (up0 0 (.delivered 0)) (pane0 false .reserved) ∧ a.toNat % 16 = 0 ∧ (a.setWidth 48).signExtend 64 = a ∧
    (s.dev.translate 0 0 (a.setWidth 48).toNat 1).1 = .ok 0x5000 ∧ (pane0 false .reserved).badTemplate (leVal (MemSys.loadBytes 0 16 0x5000 s.dev.ms).1) = false := by
  refine ⟨by unfold Ready; decide +kernel, by unfold PaneOf; decide +kernel, by decide +kernel, by decide +kernel, by rfl, by decide +kernel⟩

theorem test_prel_premises : let s := wSt [0] presEng
    Ready s (.prel { stl := 0, ka := 0 }) ∧ Ready s (.pscl { stl := 0, kd := 63, ka := 0 }) ∧ HoldsK s.dev 63 ∧ (s.dev.readK 0).toNat % 128 = 0 ∧
    s.dev.copyTouches 0 0 0x200000 0x4000 = false ∧ presEng.panes.find? (fun p => p.base == 0 && p.st != .free) = some (pane0 false .reserved) :=
  ⟨by unfold Ready; decide +kernel, by unfold Ready; decide +kernel, ⟨(wSt [0] presEng).dev.grp, { launchWarp 0 0 1 0 with occ := some 0 }, by rfl, by rfl,
    by decide +kernel⟩, by decide +kernel, by decide +kernel, by decide +kernel⟩

/-- UPRET and UPFAIL while serving each kind of upcall. -/
theorem test_upret_premises : (∀ k < 7, let e := { eng0 with ups := [up0 k (.delivered 0)], panes := [pane0 false .filled] }
      Ready (wSt [0] e) (.upret { stl := 0 }) ∧ Ready (wSt [0] e) (.upfail { stl := 0, ka := 0 }) ∧ NoneLate (wSt [0] e).dev ∧
      (wSt [0] e).dev.upTouched = false ∧ e.noMore = false) ∧
    ∀ k, let e := { eng0 with ups := [up0 k (.delivered 0)], panes := [pane0 false .filled] }
      Serves (wSt [0] e).dev e (up0 k (.delivered 0)) ∧ WholeWarp (wSt [0] e).dev := by
  refine ⟨by unfold Ready NoneLate; decide +kernel, fun k => ⟨serves_wSt _ _ _ rfl rfl, wholeWarp_wSt _ _⟩⟩

/-- A draw with a window, and the first one, of a unit. -/
theorem test_draw_premises : ∀ e ∈ [eng0, { eng0 with window := [] }], let d := (wSt [0] e).dev
    d.ms.wf = true ∧ e.st = .running ∧ e.drawDue = true ∧ d.waits (.walkEng 0 e.lid) = false ∧ d.ms.pendingOf 0 = [] ∧
    isRegAddr 0x7000 = false ∧ isRegAddr 0x7007 = false ∧ okIs (d.translate 0 e.ctx (e.rcd.wctr % 2 ^ 48) 3).1 0x7000 = true ∧
    (e.window ≠ [] ∨ (0 < min e.rcd.cmax (max e.rcd.cmin ((e.rcd.units + 1) / 2)) ∧
      leVal ((List.range 8).map fun i => atomByte d.ms 0 (0x7000 + i)) < e.rcd.units)) := by decide +kernel

theorem test_admit_premises : let e := { eng0 with window := [⟨0, 0, [⟨0, 0, 0, .init⟩], 0⟩] }; let s := wSt [0] e
    (s.dev.core 0).walk = some e ∧ e.raise = [] ∧ e.drained ≠ s.dev.cycle + 1 ∧ e.rcd.look = e.steps + 1 ∧ s.dev.drainReady 0 = false ∧
    e.window.find? (fun s => decide (s.admitted < e.rcd.ks)) = some ⟨0, 0, [⟨0, 0, 0, .init⟩], 0⟩ ∧ Sweep.kdone ⟨0, 0, [⟨0, 0, 0, .init⟩], 0⟩ e.rcd.ks ≤ 0 :=
  ⟨rfl, rfl, by decide +kernel, by decide +kernel, by decide +kernel, by decide +kernel, by decide +kernel⟩

/-- The only sweep of unit 0 is next: of a unit drawn, and of one begun. -/
theorem test_admit_sweep_premises : ∀ e ∈ [{ eng0 with window := [], slots := [], units := [0] }, { eng0 with window := [], slots := [], todo := [0] }], let d := (wSt [0] e).dev
    d.ms.wf = true ∧ e.st = .running ∧ e.raise = [] ∧ e.drained ≠ d.cycle + 1 ∧ e.rcd.look = e.steps + 1 ∧ d.drainReady 0 = false ∧ e.window = [] ∧ e.openSweeps.length ≤ 1 ∧
    ((e.todo = [0] ∧ e.units = []) ∨ (e.todo = [] ∧ e.units = [0] ∧ e.rcd.sweepsOf 0 = [0])) ∧ e.rcd.rowsOf 0 = [0] ∧ e.rcd.colsOf 0 = [0] ∧ 0 < e.rcd.ks := by decide +kernel

/-- A producer warp parked on the walk's producer token, and an upcall queued. -/
def upSt : State := withDev (wSt [0] { eng0 with ups := [up0 0 .queued] }) fun d => { d with
  cycle := 5, warps := [parkedOn (0x40000001_00000000)], fibres := d.fibres.map fun (f : Fibre) => { f with wait := .parked } }

theorem test_delivery_premises : let d := upSt.dev; let w : WalkEng := { eng0 with ups := [up0 0 .queued] }; let x := parkedOn (0x40000001_00000000)
    let mayTake (y : Warp) : Prop := y.core = 0 ∧ y.occ = none ∧ (∃ j, WakesAt d y (up0 0 .queued).token j) ∧ (y.gid = w.prod ∧ d.arg.b ≠ 1 ∨ y.gid = w.cons ∧ d.arg.b ≠ 0)
    (d.core 0).walk = some w ∧ w.st = .running ∧ d.arg.b < 3 ∧ nth w.offered 0 none ≠ some d.cycle ∧ d.arg.b < w.offered.length ∧
    (w.ups.filter fun u => (if u.kind < 3 then 0 else if u.kind = 3 then 2 else 1) == d.arg.b && u.st == .queued).head? = some (up0 0 .queued) ∧
    d.arrivals = [] ∧ (d.warps.map fun w => (w.core, w.slot)).Nodup ∧ x ∈ d.warps ∧ mayTake x ∧ (∀ y ∈ d.warps, mayTake y → x.slot ≤ y.slot) ∧
    WakesAt d x (up0 0 .queued).token 0 := by
  have hw : WakesAt upSt.dev (parkedOn (0x40000001_00000000)) (up0 0 .queued).token 0 := by
    refine ⟨_, _, rfl, rfl, by decide +kernel, fun j hj => absurd hj (Nat.not_lt_zero j), ⟨upSt.dev.grp, by rfl, by rfl⟩, by decide +kernel, ?_⟩
    exact fun k q h => absurd h.1 (none_armed 16 k q)
  refine ⟨rfl, rfl, by decide, by decide, by decide, by decide +kernel, rfl, by decide, List.mem_singleton.mpr rfl, ⟨rfl, rfl, ⟨0, hw⟩, .inl ⟨rfl, by decide⟩⟩, ?_, hw⟩
  intro y hy _
  cases List.mem_singleton.mp (show y ∈ [parkedOn (0x40000001_00000000)] from hy)
  exact Nat.le_refl _

/-- A walk with both panes of its tile filled. -/
def prodEng : WalkEng := { eng0 with panes := [pane0 false .filled, pane0 true .filled] }

theorem test_product_premises : (∃ p, prodEng.busy = none ∧ prodEng.startable = some p ∧ prodEng.rcd.firstRead p = none) ∧
    (∃ p, ({ prodEng with busy := some 0 } : WalkEng).product = some p ∧ 0 ≤ (wSt [0] prodEng).dev.cycle ∧ p.pa.fmt ≤ 4 ∧ p.pb.fmt ≤ 4) ∧
    (({ eng0 with st := .stopping } : WalkEng).busy = none ∧ ({ eng0 with st := .stopping } : WalkEng).startable.isNone = true) := by
  refine ⟨⟨⟨0, 0, ⟨0, 0, 0, .acc 0⟩, pane0 false .filled, pane0 true .filled⟩, rfl, rfl, rfl⟩,
    ⟨⟨0, 0, ⟨0, 0, 0, .acc 0⟩, pane0 false .filled, pane0 true .filled⟩, rfl, Nat.zero_le _, by decide +kernel, by decide +kernel⟩, rfl, by decide +kernel⟩

/-- A launch with every field at rest. -/
def launch0 (k : LKind) : Launch :=
  { lid := 0, kind := k, ctx := 0, qid := 0xFFFF, cls := 1, launchid := 1, set := 0, compl := 0x7000, fixed := true, core0 := 511, ncore := 1, entry := 0x20000
    warps := 1, nfib := 1, win := 1, gpt := 1, teams := 1, spad := 1, aslots := 0, kargs := [], largs := [], recA := 0x8000, centry := 0x30000, cwarps := 1, cwin := 1
    image := [], placed := [], livegroups := 0, status := 0, fail := 0, since := 0, blocking := false, kickOrder := 0, wordDue := false, finished := false }

/-- A state with a launch. -/
def lSt (s : State) (l : Launch) : State := withDev s fun d => { d with hub := { d.hub with launches := [l] } }

theorem test_remote_abort_premises : let s := lSt (wSt [0] eng0) { launch0 .walk with status := 3 }
    (s.dev.core s.dev.arg.a).walk = some eng0 ∧ ∃ l, s.dev.launch? eng0.lid = some l ∧ l.status = 3 := ⟨rfl, _, rfl, rfl⟩

/-- A saved walk of a launch that has failed, with its producer group, and without. -/
theorem test_saved_abort_premises : let d := (withDev (lSt (memSt 1 []) { launch0 .walk with status := 3 }) fun d => { d with walks := [⟨0, 0x100000, eng0, none⟩] }).dev
    (d.core d.arg.a).walk = none ∧ (d.walks.find? fun x => x.core == 0 && x.abrt.isNone && (match d.launch? x.eng.lid with
      | some l => l.status == 3
      | none => false)) = some ⟨0, 0x100000, eng0, none⟩ ∧ d.group? eng0.prod ≠ none ∧ d.group? 7 = none ∧ d.saved? 7 = none := by decide +kernel

/-- A context with a save pool of 1 MiB at IPA 0x100000, of which areas are in use. -/
def poolSt (s : State) (areas : List (Nat × Nat × Nat)) : State :=
  withDev s fun d => { d with hub := d.hub.setCtx { loadCtx 0 with savep := 0x100000, savesz := 0x100000, areas := areas } }

theorem test_grace_premises : let w := { eng0 with st := .grace, slots := [], window := [] }; let d := (poolSt (wSt [0] w) [(0, 3, 2 ^ 32)]).dev
    (d.core 0).walk = some w ∧ w.grace ≤ d.cycle ∧ d.waits (.ring w.ctx) = false ∧ (d.hub.ctxs.map Ctx.no).Nodup ∧
    ∃ a e, d.area? w.ctx (2 ^ 32) w.saveLen = some a ∧ Dev.writePieces 0 a ((0, w.position (d.walkId w) a) :: d.walkImages 0 w) d = .ok e := by
  refine ⟨rfl, Nat.le_refl _, by decide +kernel, by decide +kernel, 0x100000, ?_⟩
  obtain ⟨e, he⟩ := ok_of_isOk (x := Dev.writePieces 0 0x100000 ((0, WalkEng.position { eng0 with st := .grace, slots := [], window := [] } 0 0x100000) ::
    (poolSt (wSt [0] { eng0 with st := .grace, slots := [], window := [] }) [(0, 3, 2 ^ 32)]).dev.walkImages 0 { eng0 with st := .grace, slots := [], window := [] })
    (poolSt (wSt [0] { eng0 with st := .grace, slots := [], window := [] }) [(0, 3, 2 ^ 32)]).dev) (by decide +kernel)
  exact ⟨e, by decide +kernel, he⟩

theorem test_walk_dispatch_premises : let s := withBytes (lSt (memSt 1 []) (launch0 .walk)) 0x8000 walkBytes; let d := s.dev; let l := launch0 .walk
    d.waiting = [l] ∧ l.kind = .walk ∧ l.fixed = true ∧ l.ncore = 1 ∧ l.recA % 64 = 0 ∧ (d.walkOn [] l 0 l.core0).isSome ∧
    (∀ i < 4, okIs (d.translateHub l.ctx ((l.recA % 2 ^ 48 + 64 * i) % 2 ^ 48) 1) (0x8000 + 64 * i) = true) ∧
    badWalk ((List.range 4).flatMap fun i => d.ms.readHub (0x8000 + 64 * i) 64) = false ∧ ∀ g ∈ d.groups, g.gid < d.hub.nextGid :=
  ⟨by decide +kernel, rfl, rfl, rfl, by decide, by decide +kernel, by decide +kernel, by decide +kernel, by decide +kernel⟩

/-! ### Recursions -/

/-- A recursion object: routines at 0x20000, 0x20100 and 0x20200, root argument 9, the least arena for frames of 64 bytes at 0x1000, up to
four children to depth 63, one lane. -/
def recBytes : List Byte :=
  leBytes 8 0x20000 ++ leBytes 8 0x20100 ++ leBytes 8 0x20200 ++ leBytes 8 9 ++ leBytes 4 0x1000 ++ leBytes 4 0x1C0 ++ leBytes 2 64 ++ [4, 63, 1, 1] ++ List.replicate 18 0

/-- A state whose k0 names it at scratchpad offset 0, or whose core runs a recursion. -/
def reSt (n : Nat) (ks : List W64) (r : Option RecEng) : State :=
  withBytes (withDev (withK (memSt n []) ks) fun d => { d with
    cores := [{ no := 0, shut := [], chans := [], walk := none, wstat := 0, wstall := 0, rec_ := r }] }) (slotBase 0) recBytes

theorem test_recur_premises : let d := (reSt 2 [0] none).dev
    Ready (reSt 2 [0] none) (.recur { stl := 0, ka := 0 }) ∧ d.ms.wf = true ∧ d.grp.core = d.cur.core ∧ (d.core d.cur.core).rec_ = none ∧
    ((∀ f ∈ d.fibres, f.core = d.cur.core → f.slot = d.cur.anchor → (f.slot, f.lane) ∈ d.cur.members) ∧ ∀ m ∈ d.cur.members, m.1 = d.cur.anchor) ∧
    d.recurTrap d.grp 0 = none := by
  unfold Ready; decide +kernel

/-- Its engine, with lane 0 running a routine on frame 0; another lane is still at work. -/
def rec0 (stage : Nat) (x : RecLane) : RecEng :=
  { gid := 1, slot := 0, obj := 0, div := 0x20000, bas := 0x20100, comb := 0x20200, abase := 0x1000, asize := 0x800, fsize := 64, cmax := 4, dmax := 63, lanes := 1
    recurPc := 0x10000, stage := stage, level := 0, swlvl := 0xFF, nbr := 1, btop := 0x11C0, stk := 0x300, swfirst := 0, swn := 0, levels := [(0, 1)], staged := 0
    openN := 2, saved := false, ls := [x] }

/-- A lane that runs a routine, or has one to start. -/
def recLane (k : Routine) : RecLane := { run := some k, frame := 0x1140, next := [(.divide, 0x11C0)], top := 0x11C0, pushed := 0 }

/-- The fibres of a restored recursion, back at its RECUR. -/
theorem test_recur_joins : let s := reSt 2 [0] (some { rec0 2 (recLane .base) with away := [0, 1] })
    (s.dev.core s.dev.grp.core).rec_ = some { rec0 2 (recLane .base) with away := [0, 1] } ∧ s.dev.grp.gid = 1 ∧ (∀ m ∈ s.dev.cur.members, m.1 = 0 ∧ m.2 ∈ [0, 1]) ∧
    Ready s (.recur { stl := 0, ka := 0 }) :=
  ⟨rfl, by decide +kernel, by decide +kernel, by unfold Ready; decide +kernel⟩

/-- One of the two fibres of a warp: with no recursion on the core, and as a routine of a live one. -/
theorem test_recur_partial : ∀ r ∈ [none, some (rec0 2 (recLane .base))], let s := withDev (reSt 2 [0] r) fun d => { d with cur := { d.cur with members := [(0, 0)] } }
    Ready s (.recur { stl := 0, ka := 0 }) ∧ (∃ f ∈ s.dev.fibres, f.core = s.dev.cur.core ∧ f.slot = s.dev.cur.anchor ∧ (f.slot, f.lane) ∉ s.dev.cur.members) ∧
    ∀ x, (s.dev.core s.dev.grp.core).rec_ = some x → x.away = [] := by
  intro r hr
  have h : r = none ∨ r = some (rec0 2 (recLane .base)) := by simpa using hr
  rcases h with rfl | rfl
  · exact ⟨by unfold Ready; decide +kernel, by decide +kernel, fun x hx => nomatch (show (none : Option RecEng) = some x from hx)⟩
  · exact ⟨by unfold Ready; decide +kernel, by decide +kernel, fun x hx => by cases (show some (rec0 2 (recLane .base)) = some x from hx); rfl⟩

/-- A fibre at the RECUR whose lane has a divide routine to start. -/
def rsSt : State := withDev (reSt 1 [] (some (rec0 2 { recLane .divide with run := none }))) fun d => { d with
  fibres := d.fibres.map fun (f : Fibre) => { f with wait := .recur } }

theorem test_routine_start_premises : ∃ f, let d := rsSt.dev; let x := { recLane .divide with run := none }
    d.fibres.find? (fun f => f.core == 0 && f.lane == 0 && d.startReady f) = some f ∧ d.fibre? 0 f.slot 0 = some f ∧ d.recOf f = some (rec0 2 x, x) ∧
    x.next = (.divide, 0x11C0) :: [] ∧ 3 ≤ f.win.length :=
  ⟨{ loadFibre 0 with wait := .recur }, by decide +kernel, by decide +kernel, by rfl, rfl, by decide +kernel⟩

theorem runsLane_reSt (ks : List W64) (stage : Nat) (x : RecLane) : RunsLane (reSt 1 ks (some (rec0 stage x))).dev (loadFibre 0) (rec0 stage x) x :=
  ⟨by rfl, rfl, rfl, rfl, rfl, rfl⟩

/-- RCHILD of the last word a frame holds, with and without the last-child bit, in both phases. -/
theorem test_rchild_premises : ∀ stage ∈ [1, 2], let x := recLane .divide; let s := reSt 1 [0x10038] (some (rec0 stage x)); let k := s.dev.readK 0; let r := rec0 stage x
    Ready s (.rchild { stl := 0, ka := 0 }) ∧ s.dev.ms.wf = true ∧ RunsLane s.dev (loadFibre 0) r x ∧ x.run = some .divide ∧ k.toNat % 8 = 0 ∧
    k.toNat % 2 ^ 16 + 8 ≤ r.fsize ∧ r.cmax ≤ 4 ∧ InSpad s.dev 0 (x.frame + 0x18) 1 < r.cmax ∧ InSpad s.dev 0 (x.frame + 0x1A) 1 ≠ r.dmax ∧
    (if r.stage = 1 then r.btop + (r.staged + 1) * (64 + r.fsize) ≤ r.abase + r.asize
      else x.top + (InSpad s.dev 0 (x.frame + 0x18) 1 + 1) * (64 + r.fsize) ≤ r.btop + (0 + 1) * r.stk) := by
  intro stage hs
  have h : stage = 1 ∨ stage = 2 := by simpa using hs
  rcases h with rfl | rfl <;>
    exact ⟨by unfold Ready; decide +kernel, by decide +kernel, runsLane_reSt _ _ _, rfl, by decide +kernel, by decide +kernel, by decide, by decide +kernel,
      by decide +kernel, by decide +kernel⟩

/-- RCHILD with LAST, the last divide of its level: the level is one frame, the lane's own. -/
theorem test_rchild_level_premises : let x := recLane .divide; let r := { rec0 1 x with openN := 1 }; let d := (reSt 1 [0x10038] (some r)).dev
    (d.readK 0).getLsbD 16 = true ∧ r.stage = 1 ∧ r.openN = 1 ∧ (nth r.levels r.level (0, 0)) = (0, 1) ∧ 0 + 1 ≤ r.nbr ∧ x.frame = r.abase + 0x140 + (0 + 0) * (64 + r.fsize) ∧
    InSpad d 0 (x.frame + 0x18) 1 + 1 ≤ 4 ∧ x.frame + 64 ≤ x.top := by decide +kernel

theorem test_rbase_rres_rarg_premises :
    (let x := recLane .divide; let s := reSt 1 [0] (some (rec0 2 x))
     Ready s (.rbase { stl := 0 }) ∧ RunsLane s.dev (loadFibre 0) (rec0 2 x) x ∧ s.dev.ms.wf = true ∧ x.run = some .divide ∧ InSpad s.dev 0 (x.frame + 0x18) 1 = 0) ∧
    (let x := recLane .combine; let s := reSt 1 [0x38] (some (rec0 1 x)); let k := s.dev.readK 0
     Ready s (.rres { stl := 0, ka := 0 }) ∧ RunsLane s.dev (loadFibre 0) (rec0 1 x) x ∧ s.dev.ms.wf = true ∧ x.run = some .combine ∧ k.toNat % 8 = 0 ∧
     k.toNat % 2 ^ 16 + 8 ≤ (rec0 1 x).fsize ∧ 2 ≤ (rec0 1 x).openN ∧ x.next ≠ []) ∧
    let x := recLane .base; let s := reSt 1 [0] (some (rec0 2 x))
    Ready s (.rarg { stl := 0, kd := 63, ka := 0 }) ∧ HoldsK s.dev 63 ∧ (s.dev.core s.dev.cur.core).rec_ = some (rec0 2 x) ∧ (rec0 2 x).gid = s.dev.cur.gid ∧
    (s.dev.readK 0).toNat % 2 ^ 32 < (rec0 2 x).nbr := by
  refine ⟨⟨by unfold Ready; decide +kernel, runsLane_reSt _ _ _, by decide +kernel, rfl, by decide +kernel⟩,
    ⟨by unfold Ready; decide +kernel, runsLane_reSt _ _ _, by decide +kernel, rfl, by decide +kernel, by decide +kernel, by decide, by decide⟩,
    by unfold Ready; decide +kernel, ⟨(reSt 1 [0] none).dev.grp, launchWarp 0 0 1 0, by rfl, by rfl, by decide +kernel⟩, rfl, rfl, by decide +kernel⟩

/-! ### The cache -/

/-- A cache descriptor at 0x8000 with one page per sequence, rows of 8 bytes and one head; the map at 0x9000. -/
def kvBytes : List Byte :=
  leBytes 8 0x9000 ++ leBytes 8 0xA000 ++ leBytes 8 0xB000 ++ leBytes 8 0x6000 ++ leBytes 8 0x6800 ++ leBytes 8 0x7000 ++ [12, 4, 4, 0] ++ leBytes 2 8 ++ leBytes 2 1 ++
  leBytes 4 1 ++ leBytes 4 0x30000000 ++ leBytes 4 0 ++ leBytes 4 1

/-- An entry of a state and a stream count at the head of the map; the fibre's v3 names the descriptor and an operation. -/
def kvSt (state strm op : Nat) : State :=
  withBytes (withBytes (withDev (stV 1 [0, 0, 0, BitVec.ofNat 64 (0x8000 + op)]) fun d => { d with
    groups := [{ loadGroup 1 0 with holds := [⟨0x9000, 0x8000, 0, 1⟩] }] }) 0x8000 kvBytes) 0x9000 (leBytes 8 (state * 2 ^ 62 + strm * 2 ^ 32))

/-- The one fibre's operands name an entry of a state, whose row and free ring can be reached. -/
def kvMeets (s : State) (maxOp acc code state : Nat) : Bool :=
  s.dev.active.length == 1 && s.dev.ms.regLines == [] && s.dev.ms.pendingOf 0 == [] && s.dev.active.all fun f => !f.helper && f.wait == .none && f.late.isNone &&
    match s.dev.kvPlan s.dev.grp maxOp 64 acc code (s.dev.readV f 3) (s.dev.readV f 2) with
    | .ok (k, some t) => (s.dev.kvGet 0 t.pa).state == state && (s.dev.kvPush 0 0 k 1).isOk && (s.dev.kvPop s.dev.grp k).isOk &&
        match s.dev.kvAddr 0 (k.pool1 + BitVec.ofNat 64 ((s.dev.kvGet 0 t.pa).page * 2 ^ k.pgsh + t.row)) 1 0 with
        | .ok p => decide (t.pa + 16 ≤ p ∨ p + 8 ≤ t.pa) && !isRegAddr p && !isRegAddr (p + 7) && (List.range 8).all fun j => (s.dev.ms.ownGet 0 (p + j)).isNone
        | .error _ => false
    | _ => false

/-- Every state of an entry can be met by each operation; the group holds the page it names. -/
theorem test_cache_premises :
    (∀ x ∈ [(0, 0), (2, 0)], kvMeets (kvSt x.1 1 x.2) 2 1 0 x.1 = true) ∧ (∀ x ∈ [(1, 1), (3, 2)], kvMeets (kvSt x.1 1 x.2) 2 3 3 x.1 = true) ∧
    (∀ x ∈ [(0, 0), (2, 2), (3, 4)], kvMeets (kvSt x.1 1 x.2) 4 3 3 x.1 = true) ∧
    Ready (kvSt 1 1 0) (.kvldRead (r3 3)) ∧ Ready (kvSt 0 0 0) (.kvappAppend (r3 3)) ∧ (kvSt 3 1 2).dev.ms.wf = true ∧
    (kvSt 3 1 2).dev.grp.holds = [⟨0x9000, 0x8000, 0, 1⟩] ∧ ∃ g, (kvSt 3 1 2).dev.group? (kvSt 3 1 2).dev.cur.gid = some g := by
  refine ⟨by decide +kernel, by decide +kernel, by decide +kernel, by unfold Ready; decide +kernel, by unfold Ready; decide +kernel, by decide +kernel,
    by decide +kernel, _, rfl⟩

/-- A CLOSE without a hold. -/
def kvNoHold : State := withDev (kvSt 1 1 2) fun d => { d with groups := [loadGroup 1 0] }

theorem test_cache_close_premises : kvMeets kvNoHold 2 3 3 1 = true ∧ kvNoHold.dev.grp.holds = [] ∧ Ready kvNoHold (.kvldClose (r3 3)) := by
  unfold Ready; decide +kernel

/-- A release left by a completed group, the last one of a DRAINING entry. -/
def relSt : State := withDev (kvSt 3 1 0) fun d => { d with hub := { d.hub with releases := [⟨0, 0, ⟨0x9000, 0x8000, 0, 1⟩⟩] } }

theorem test_stream_release_premises : let d := relSt.dev
    d.ms.wf = true ∧ d.ms.regLines = [] ∧ d.hub.releases[d.arg.a]? = some ⟨0, 0, ⟨0x9000, 0x8000, 0, 1⟩⟩ ∧ (d.hub.ctx? 0).isSome ∧ d.waits (.stream 0) = false ∧
    (∃ kp, d.kvAddr 0 0x8000 3 3 = .ok kp) ∧ (∃ ep, d.kvAddr 0 0x9000 3 3 = .ok ep) ∧
    (∃ q, d.kvPush 0 512 (kvDesc 0x8000 0x8000 (d.ms.readDevice 0x8000 256)) 1 = .ok q) :=
  ⟨by decide +kernel, by decide +kernel, rfl, by decide +kernel, by decide +kernel, ok_of_isOk (by decide +kernel), ok_of_isOk (by decide +kernel), ok_of_isOk (by decide +kernel)⟩

/-! ### Corgon -/

/-- Corgon core 0 with x5 = a and x6 = b. -/
def corSt (a b : W64) : State :=
  let s := qSt { queue0 with h := 1 }
  { s with fw := { s.fw with corgons := putBy Corgon.no { Corgon.reset 0 with x := (List.replicate 31 0 |>.set 4 a).set 5 b } s.fw.corgons } }

theorem test_corgon_premises : (corSt 0 0).cor.x.length = 31 ∧ (corSt 0 0xFC0).cor.get 6 = 0xFC0 ∧
    -- the widest field that lies inside its word
    (0xFC0 : W64).toNat < 2 ^ 12 ∧ (0xFC0 : W64).toNat % 64 + ((0xFC0 : W64).toNat / 64 % 64 + 1) ≤ 64 := by decide +kernel

theorem test_swait_wake_premises : let s := corSt 0 0
    let s := { s with fw := { s.fw with corgons := putBy Corgon.no { Corgon.reset 0 with waiting := some (1, 5) } s.fw.corgons } }
    ∃ c m rd, getBy Corgon.no s.dev.arg.a s.fw.corgons = some c ∧ c.x.length = 31 ∧ c.waiting = some (m, rd) := ⟨_, _, _, rfl, rfl, rfl⟩

/-- A fetch by hub SRAM slot 255: the queue is one behind, its ring translates, and its packet is marked. -/
def rfSt : State := withBytes (corSt 255 0x1000) (0x9000 + 127) [1]

theorem test_rfetch_premises : let d := rfSt.dev; let q := { queue0 with h := 1 }
    d.hub.queues.find? (fun q => q.hw == some ((rfSt.cor.get 5).toNat % 256)) = some q ∧ q.stopped = false ∧ q.h ≠ q.f ∧ (q.h - q.f).toNat < 2 ^ 31 ∧ q.half = [] ∧
    (∃ half1, d.hubHalf q.ctx (q.slotVa q.f + 64) = .ok half1 ∧ fieldOf half1 63 1 = markOf q.f q.size) ∧ (∃ half0, d.hubHalf q.ctx (q.slotVa q.f) = .ok half0) ∧
    (∃ a, d.translateHub q.ctx q.ridx 2 = .ok a) ∧ d.hub.sram.wf = true := by
  refine ⟨by decide +kernel, rfl, by decide, by decide, rfl, ?_, ok_of_isOk (by decide +kernel), ok_of_isOk (by decide +kernel), by decide +kernel⟩
  obtain ⟨b, hb⟩ := ok_of_isOk (x := rfSt.dev.hubHalf 0 (Queue.slotVa { queue0 with h := 1 } 0 + 64)) (by decide +kernel)
  refine ⟨b, hb, ?_⟩
  have h : (match rfSt.dev.hubHalf 0 (Queue.slotVa { queue0 with h := 1 } 0 + 64) with | .ok b => fieldOf b 63 1 | .error _ => 2) = 1 := by decide +kernel
  rw [hb] at h
  exact h

/-- A DISP record of a new group, or of the saved group in an area. -/
def dispBytes (area : Nat) : List Byte :=
  leBytes 8 0x20000 ++ leBytes 8 0 ++ leBytes 8 area ++ leBytes 4 1 ++ [0, 3] ++ leBytes 2 0 ++ [15, 1, 32, 1, 0, 0, 0, 0] ++ List.replicate 24 0

/-- Corgon with that record at SRAM address 0 and core 511 named. -/
def diSt (area : Nat) (sv : List Saved) : State :=
  withDev (corSt 0 511) fun d => { d with hub := d.hub.sramPut 0 (dispBytes area), saved := sv }

/-- A saved group of one warp and no fibre. -/
def saved0 : Saved :=
  { group := { loadGroup 9 0 with core := 511, lid := 77 }, warps := [launchWarp 511 0 9 0], fibres := [], area := 0x100000, partial_ := false, replay := false, halted := false
    walkArea := 0, recLive := false }

theorem test_disp_premises :
    (let d := (diSt 0 []).dev; let b := d.hub.sram.read 0 64
     ((diSt 0 []).cor.get 6).toNat ≤ 511 ∧ badDisp d.hub b = false ∧ fieldOf b 0x10 8 = 0 ∧ (∀ g ∈ d.groups, g.gid < d.hub.nextGid) ∧ (d.dispNew b 511).isSome) ∧
    let d := (diSt 0x100000 [saved0]).dev; let b := d.hub.sram.read 0 64
    badDisp d.hub b = false ∧ fieldOf b 0x10 8 ≠ 0 ∧ d.dispSaved b = some saved0 ∧ saved0.warps.length = fieldOf b 0x21 1 ∧ d.mayRestore saved0 511 = true := by
  decide +kernel

/-! ### Faults, translation and pre-emption -/

/-- A group on the fault path whose one fibre has trapped with a cause. -/
def ftSt (cause : Nat) (units : List FaultUnit) : State := withDev (withArg (memSt 1 []) { a := 1 }) fun d => { d with
  groups := [{ loadGroup 1 0 with stat := .faulting }]
  fibres := d.fibres.map fun (f : Fibre) => { f with trapped := true, trapcause := BitVec.ofNat 64 cause, units := units } }

/-- A unit that a request can resolve. -/
def unit0 : FaultUnit := { stage := 1, page := 5, va := 0x5000, acc := 1, kind := 0, level := 0 }

theorem test_fault_path_premises : ∀ x ∈ [(1, []), (5, [unit0])], let d := (ftSt x.1 x.2).dev
    (∃ g, OneWarpTrapped d g 0) ∧ (x.1 = 1 → ∀ f ∈ d.fibres, f.trapcause.toNat % 256 ≠ 5) ∧
    (x.1 = 5 → (∀ f ∈ d.fibres, f.trapcause.toNat % 256 = 5 ∧ f.units ≠ [] ∧ ∀ u ∈ f.units, u.stage ≠ 0) ∧ (d.hub.fn (d.vfOf 0)).priOff = false) := by
  intro x hx
  have hx : x = (1, []) ∨ x = (5, [unit0]) := by simpa using hx
  have hg : ∀ c us, ∃ g, OneWarpTrapped (ftSt c us).dev g 0 := fun c us =>
    ⟨{ loadGroup 1 0 with stat := .faulting }, rfl, by decide, rfl, fun v hv => (nomatch hv),
      fun f hf _ => by
        have hf : f ∈ [{ loadFibre 0 with trapped := true, trapcause := BitVec.ofNat 64 c, units := us }] := hf
        rw [List.mem_singleton.mp hf]
        exact ⟨rfl, show Wait.none ≠ .atomic by decide, fun _ => rfl⟩,
      ⟨{ loadFibre 0 with trapped := true, trapcause := BitVec.ofNat 64 c, units := us }, List.mem_singleton.mpr rfl, by rfl, rfl⟩⟩
  rcases hx with rfl | rfl
  · exact ⟨hg _ _, by decide +kernel, by decide⟩
  · exact ⟨hg _ _, by decide, by decide +kernel⟩

/-- Requests of slots 0 to 30 are out; one more is raised. -/
theorem test_request_issue_premises :
    let h := { (memSt 1 []).dev.hub with fns := [{ Hub.reset.fn 0 with raised := [⟨32, 0, unit0⟩], reqs := (List.range 31).map fun i => ⟨i + 1, i, 0, 1, 0, i, 1⟩ }] }
    (h.fn 0).raised = ⟨32, 0, unit0⟩ :: [] ∧ 31 < 32 ∧ (∀ q ∈ (h.fn 0).reqs, q.slot ≠ 31) ∧ ∀ j < 31, ∃ q ∈ (h.fn 0).reqs, q.slot = j := by
  decide +kernel

theorem test_stage2_record_premises : ∀ n ∈ [4, 12], let h := { (memSt 1 []).dev.hub with s2recs := [⟨0, 0, unit0, 0⟩], s2size := n, s2wr := BitVec.ofNat 24 (2 ^ n - 1) }
    h.s2recs = ⟨0, 0, unit0, 0⟩ :: [] ∧ 4 ≤ h.s2size ∧ h.s2size ≤ 12 ∧ (h.s2wr - h.s2rd).toNat < 2 ^ h.s2size := by decide +kernel

/-- A record waits for the fault ring of context 0, of 16 slots: with nothing written, and with all 16 written and none read. -/
def rrSt (wr : BitVec 32) : State := withDev (memSt 1 []) fun d => { d with
  hub := { d.hub.setCtx { loadCtx 0 with desc := 0x8000, fring := 0x9000, frsz := 16, frwr := wr } with frecs := [bareRec 0 14 0x40 0] } }

theorem test_fault_record_premises : ∀ wr ∈ [0, 16], let d := (rrSt wr).dev
    d.hub.frecs[d.arg.a]? = some (bareRec 0 14 0x40 0) ∧ d.waits (.ring 0) = false ∧ ∃ c, d.hub.ctx? 0 = some c ∧ c.frwr = wr ∧
      okIs (d.translateIpa c.vf (c.desc + 0x2C) 1) 0x802C = true ∧ okIs (d.translateIpa c.vf (c.desc + 0x30) 2) 0x8030 = true ∧
      okIs (d.translateIpa c.vf (c.fring + c.frwr.toNat % c.frsz * 64) 2) 0x9000 = true := by
  intro wr h
  have h : wr = 0 ∨ wr = 16 := by simpa using h
  rcases h with rfl | rfl <;> exact ⟨by rfl, by decide +kernel, _, rfl, rfl, by decide +kernel, by decide +kernel, by decide +kernel⟩

/-- The one request of a descheduled group, and what waits for it. -/
def req31 : PageReq := ⟨7, 31, 0, 1, 0, 5, 1⟩
def case0 : Case := { who := .group 1, vf := 0, ctx := 0, waiting := [7], failed := false, units := [unit0], lost := [], addr := 0 }

/-- A descheduled group waits for one request. -/
def rpSt : State := withDev (withArg (memSt 1 []) { a := 0, b := 31, v := 31 }) fun d => { d with
  groups := [{ loadGroup 1 0 with stat := .descheduled }]
  fibres := d.fibres.map fun (f : Fibre) => { f with trapped := true, trapcause := 5, units := [unit0] }
  hub := { d.hub with fns := [{ Hub.reset.fn 0 with s2root := 0x1000, reqs := [req31] }], cases := [case0] } }

theorem test_reply_premises : let d := rpSt.dev; let h := d.hub; let fn := h.fn 0
    d.arg.b = 31 ∧ d.arg.v.toNat % 512 = 31 ∧ fn.reqs.find? (fun r => r.gen % 16 * 32 + r.slot == 31) = some req31 ∧ h.cases = [case0] ∧ case0.waiting = [req31.id] ∧
    (∀ u ∈ case0.units, u.stage ≠ 0) ∧ case0.failed = false ∧ case0.who = .group 1 ∧ (∃ g, d.group? 1 = some g ∧ g.stat = .descheduled) ∧
    (∀ x ∈ h.frecs, x.gid ≠ some 1) ∧ (∀ x ∈ h.ctxs, ∀ y ∈ x.frecs, y.2 ≠ 1) ∧ (∀ v ∈ d.saved, v.group.gid ≠ 1) ∧
    ∃ f ∈ d.fibres, d.gidOf f = 1 ∧ f.trapped = true ∧ f.warpid = case0.addr := by
  refine ⟨by decide, by decide, by decide +kernel, rfl, rfl, by decide, rfl, rfl, ⟨_, rfl, rfl⟩, by decide +kernel, by decide +kernel, by decide +kernel, by decide +kernel⟩

/-- Tag 30 answers no request of that function. -/
theorem test_reply_unknown : ∀ r ∈ (rpSt.dev.hub.fn 0).reqs, (r.gen % 16 * 32 + r.slot == 30) = false := by decide +kernel

/-- A fault reply to the record that group 1 wrote at index 0: RESUME and TERMINATE. -/
theorem test_fault_reply_premises : ∀ op ∈ [1, 2], let s := withDev (withArg rpSt { v := BitVec.ofNat 64 (op * 2 ^ 62) }) fun d => { d with
      hub := { d.hub with ctxs := [{ loadCtx 0 with frecs := [(0, 1)] }], cases := [] } }
    s.dev.hub.frecs = [] ∧ s.dev.arg.v.toNat / 2 ^ 62 = op ∧ ∃ c g, s.dev.hub.ctx? (s.dev.arg.v.toNat / 2 ^ 32 % 64) = some c ∧ c.vf = s.dev.arg.a ∧ (0, 1) ∈ c.frecs ∧
      (∀ x ∈ c.frecs, x.1 = 0 → x = (0, 1)) ∧ s.dev.arg.v.extractLsb' 0 32 = 0 ∧ g.gid = 1 ∧ g.ctx = c.no ∧ s.dev.group? 1 = some g ∧ g.stat = .descheduled ∧
      (∀ x ∈ s.dev.hub.cases, x.who ≠ .group 1) ∧ (∃ f ∈ s.dev.fibres, s.dev.gidOf f = 1) ∧ (s.dev.groups.map Group.gid).Nodup := by
  intro op h
  have h : op = 1 ∨ op = 2 := by simpa using h
  rcases h with rfl | rfl <;>
    exact ⟨rfl, by decide, _, _, rfl, rfl, List.mem_singleton.mpr rfl, fun x hx _ => List.mem_singleton.mp hx, by decide, rfl, rfl, rfl, rfl, fun x hx => (nomatch hx),
      by decide +kernel, by decide +kernel⟩

theorem test_translation_premises : let s := withArg (memSt 1 []) { a := 511, b := 0, c := 0x3FFFFFFF, d := 7 }
    s.dev.arg.a < 512 ∧ (∃ c, s.dev.hub.ctx? s.dev.arg.b = some c) ∧ s.dev.tlbs = [] ∧
    -- a range of one page and one of the whole space
    (∀ l ∈ [12, 48], ¬(l < 12 ∨ 48 < l ∨ 0 % 2 ^ (l - 12) ≠ 0)) ∧
    (let d := withDev s fun d => { d with hub := { d.hub with invals := [⟨0, none, none⟩] }, arg := {} }
     d.dev.hub.invals[d.dev.arg.a]? = some ⟨0, none, none⟩) ∧
    let m := { s.dev.ms with compat := [⟨0, 0, 0, 0x100, [1], []⟩] }
    (m.compat.filter fun c => c.core == 0)[0]? = some ⟨0, 0, 0, 0x100, [1], []⟩ := by
  refine ⟨by decide, ⟨_, rfl⟩, by decide +kernel, by decide, rfl, rfl⟩

theorem test_mask_budget_premises : let s := withDev (memSt 1 []) fun d => { d with warps := [{ launchWarp 0 0 1 0 with masked := true, stopping := true }] }
    ∃ w, s.dev.warp? s.dev.arg.a s.dev.arg.b = some w ∧ w.masked = true ∧ w.budget = 0 ∧ w.stopping = true := ⟨_, rfl, rfl, rfl, rfl⟩

/-- A stopped group with a save area. -/
def svSt : State := withDev (poolSt (memSt 1 []) [(0, 4, 1)]) fun d => { d with
  arg := { a := 1 }, warps := [{ launchWarp 0 0 1 0 with stopping := true }], groups := [loadGroup 1 0] }

theorem test_group_save_premises : let d := svSt.dev; let g := loadGroup 1 0; let l := (d.landGroup 1).release 0 6
    let v0 := l.savedOf ((l.group? 1).getD g) (l.leaving 1) none false; let sv := { v0 with area := 0x100000 }
    d.group? d.arg.a = some g ∧ (∀ w ∈ d.warps, w.gid = 1 → w.core = 0 ∧ w.stopping = true) ∧ (d.warps.map fun w => (w.core, w.slot)).Nodup ∧ g.gid ≠ 0 ∧ d.saveReady g = true ∧
    (d.core 0).rec_ = none ∧ (∀ v ∈ d.saved, v.group.gid ≠ 1) ∧ (∀ f ∈ d.fibres, f.late = none ∧ (d.warp? f.core f.slot).isSome) ∧ d.ms.regLines = [] ∧
    sv.halted = (match (d.hub.ctx? g.ctx).bind Ctx.stopBy with | some m => m != g.gid | none => false) ∧
    d.area? 0 1 (saveLen v0.warps v0.fibres) = some 0x100000 ∧ ∃ ps, l.ipaPages (d.vfOf 0) 0x100000 sv.bytes.length 2 = .ok ps := by
  refine ⟨by rfl, by decide +kernel, by decide +kernel, by decide, by decide +kernel, by decide +kernel, fun v hv => (nomatch hv), by decide +kernel, by rfl, by decide +kernel,
    by decide +kernel, ok_of_isOk (by decide +kernel)⟩

/-- A saved group of one warp without fibres, its area written back by nobody. -/
def rsvSt : State := withDev (withArg (memSt 1 []) { a := 9, b := 511 }) fun d => { d with saved := [saved0] }

theorem test_group_restore_premises : let d := rsvSt.dev
    d.arg.flag = false ∧ d.group? d.arg.a = none ∧ d.saved.find? (fun x => x.group.gid == d.arg.a && x.partial_ == false) = some saved0 ∧ d.walks = [] ∧
    d.eligible saved0 = true ∧ d.mayRestore saved0 d.arg.b = true ∧ saved0.replay = false ∧
    ∃ v, d.readSaved saved0 = .ok v ∧ (d.putBack v d.arg.b).isSome := by
  refine ⟨rfl, by rfl, by decide +kernel, rfl, by decide +kernel, by decide +kernel, rfl, ?_⟩
  have h : (match rsvSt.dev.readSaved saved0 with | .ok v => (rsvSt.dev.putBack v 511).isSome | .error _ => false) = true := by decide +kernel
  cases hx : rsvSt.dev.readSaved saved0 with
  | ok v => rw [hx] at h; exact ⟨v, rfl, h⟩
  | error e => rw [hx] at h; cases h

/-- A class-0 launch passed over for 20 microseconds, and a group of class 3 that holds what it needs of core 0. -/
def pvSt : State := withDev (withArg (memSt 1 []) { a := 0, b := 0 }) fun d => { d with
  cycle := 21000, groups := [{ loadGroup 1 0 with cls := 3, spad := [⟨0, 128⟩] }]
  hub := { d.hub with launches := [{ launch0 .launch with cls := 0, core0 := 0 }] } }

theorem test_partial_eviction_premises : let d := pvSt.dev; let l : Launch := { launch0 .launch with cls := 0, core0 := 0 }
    let fits (e : Dev) : Bool := (e.placeOn [] l (l.shape 0 0) 0).isSome
    d.launch? d.arg.a = some l ∧ l.cls ≤ 1 ∧ l.passed d.cycle 21000 = true ∧ (∃ p ∈ d.evictPlan l, p.1 = d.arg.b) ∧ (∀ w ∈ d.warps, w.stopping = false) ∧ d.waiting = [l] ∧
    fits d = false ∧ d.evictees 0 l.cls fits = some d.warps :=
  ⟨rfl, by decide, by decide +kernel, by decide +kernel, by decide +kernel, by decide +kernel, by decide +kernel, by decide +kernel⟩

theorem test_quota_premises : ∃ c, (memSt 1 []).dev.hub.ctx? (memSt 1 []).dev.arg.a = some c := ⟨_, rfl⟩

/-! ### Queues, launches and the host -/

/-- A queue descriptor at 0x8000: the largest ring, class 3. -/
def queueBytes : List Byte := leBytes 8 0x9000 ++ [16, 3, 0, 0] ++ leBytes 2 0xFFFF ++ leBytes 2 0 ++ leBytes 8 0x8800

theorem test_queue_descriptor : let s := withBytes (withArg (memSt 1 []) { a := 0x8000 }) 0x8000 queueBytes
    GoodQueue s.dev.hub (s.dev.ms.readHub s.dev.arg.a 64) ∧ ¬GoodQueue s.dev.hub ((s.dev.ms.readHub s.dev.arg.a 64).set 8 3) := by
  refine ⟨?_, ?_⟩
  · have h : ∀ b ∈ [(withBytes (withArg (memSt 1 []) { a := 0x8000 }) 0x8000 queueBytes).dev.ms.readHub 0x8000 64], let f (o n : Nat) : Nat := fieldOf b o n
        f 0xB 1 = 0 ∧ f 0xE 2 = 0 ∧ f 0x18 40 = 0 ∧ (f 0 8 % 128 = 0 ∧ f 0 8 < 2 ^ 47) ∧ 4 ≤ f 8 1 ∧ f 8 1 ≤ 16 ∧ f 9 1 ≤ 3 ∧
        (f 0x10 8 % 4 = 0 ∧ f 0x10 8 < 2 ^ 47) ∧ f 0xA 1 = 0 := by decide +kernel
    obtain ⟨h1, h2, h3, h4, h5, h6, h7, h8, h9⟩ := h _ (List.mem_singleton.mpr rfl)
    exact ⟨h1, h2, h3, ⟨h4.1, .inl h4.2⟩, h5, h6, h7, ⟨h8.1, .inl h8.2⟩, loadCtx 0, (congrArg (Hub.ctx? _) h9).trans (by rfl), rfl, Nat.zero_le _⟩
  · intro h
    have h5 : (4 : Nat) ≤ 3 := h.2.2.2.2.1
    exact absurd h5 (by decide)

/-- A driver reset of a queue not known before, and of one that is. -/
theorem test_queue_reset_premises : (memSt 1 []).dev.hub.queue? 0xFFFF = none ∧ (qSt queue0).dev.hub.queue? 0xFFFF = some queue0 := ⟨rfl, rfl⟩

/-- A mapped queue one behind, and one as far behind as can be. -/
theorem test_fetch_premises : ∀ h ∈ [(1 : BitVec 32), 0x7FFFFFFF], let s := withArg (qSt { queue0 with h := h }) { a := 0xFFFF }
    ∃ q, s.dev.hub.queue? s.dev.arg.a = some q ∧ q.hw ≠ none ∧ q.stopped = false ∧ AheadOf q.h q.f := by
  intro h hh
  have hh : h = 1 ∨ h = 0x7FFFFFFF := by simpa using hh
  rcases hh with rfl | rfl <;> exact ⟨_, rfl, by decide, rfl, by unfold AheadOf; decide⟩

theorem test_fetcher_retry_premises : let s := withArg (qSt { queue0 with h := 1, paused := true }) { a := 0xFFFF }
    ∃ q, s.dev.hub.queue? s.dev.arg.a = some q ∧ q.hw ≠ none ∧ q.stopped = false ∧ AheadOf q.h q.f ∧ q.paused = true :=
  ⟨_, rfl, by decide, rfl, by unfold AheadOf; decide, rfl⟩

/-- One queue waiting and none mapped; or every slot past the reserve, here the last one, held by a queue that an overdue one displaces. -/
def mtSt (rsv : Nat) (l : List Queue) : Hub := { (memSt 1 []).dev.hub with queues := l, rsv0 := rsv }

theorem test_mapping_premises : let w := { queue0 with hw := none, h := 1 }
    let h := mtSt 0 [w]
    (h.queues.map Queue.qid).Nodup ∧ (∀ q ∈ h.queues, q.qid < 2 ^ 16 ∧ q.wait < 2 ^ 30 ∧ q.ticks < 2 ^ 30 ∧ q.cls < 4 ∧ ∀ n, q.hw = some n → n < 256) ∧
    (∀ n < 4, nth h.ceil n 0 ≤ 15) ∧ WantsSlot h w ∧ ∀ m, h.rsv0 ≤ m → m < 256 → SlotOpen h.queues m := by
  refine ⟨by decide, ?_, by decide +kernel, ⟨rfl, .inl ⟨rfl, by decide⟩, rfl, loadCtx 0, rfl, rfl, rfl⟩, ?_⟩
  · intro q hq
    rw [List.mem_singleton.mp hq]
    exact ⟨by decide, by decide, by decide, by decide, fun n hn => (nomatch hn)⟩
  · intro m _ _ q hq
    rw [List.mem_singleton.mp hq]
    exact fun hn => (nomatch hn)

theorem test_displacement_premises : let w := { queue0 with hw := none, h := 1, wait := 400000 }; let v := { queue0 with qid := 1, ticks := 1 }
    let h := mtSt 255 [v, w]
    WantsSlot h w ∧ (∀ y ∈ h.queues, WantsSlot h y → y = w) ∧ 400000 ≤ w.wait ∧ (∀ m, h.rsv0 ≤ m → m < 256 → ¬SlotOpen h.queues m) ∧ v.hw = some 255 ∧ h.rsv0 ≤ 255 ∧ 1 ≤ v.ticks ∧
    ∀ z ∈ h.queues, z ≠ v → ∀ m, z.hw = some m → False := by
  refine ⟨⟨rfl, .inl ⟨rfl, by decide⟩, rfl, loadCtx 0, rfl, rfl, rfl⟩, ?_, by decide, ?_, rfl, by decide, by decide, ?_⟩
  · intro y hy hw
    rcases List.mem_cons.mp hy with rfl | hy
    · exact nomatch hw.1
    · exact List.mem_singleton.mp hy
  · intro m h1 h2 ho
    have hm : m = 255 := by have h1 : 255 ≤ m := h1; omega
    exact ho { queue0 with qid := 1, ticks := 1 } (List.mem_cons_self ..) (by rw [hm]; rfl)
  · intro z hz hne m hm
    rcases List.mem_cons.mp hz with rfl | hz
    · exact hne rfl
    · rw [List.mem_singleton.mp hz] at hm
      exact nomatch hm

/-- A packet of a type, with a body. -/
def packet (type : Nat) (body : List Byte) : List Byte :=
  BitVec.ofNat 8 type :: (List.replicate 95 0 ++ body ++ List.replicate (32 - body.length) 0)

/-- A good packet of each type: LAUNCH with the largest shape, WALK with the least, RECUR, EVENT; and one of no type. -/
def packets : List (List Byte) :=
  [packet 1 (leBytes 8 0x20000 ++ [32, 32, 16, 16] ++ leBytes 2 4096 ++ [128, 16]), packet 2 (leBytes 8 0x8000 ++ leBytes 8 0x20000 ++ leBytes 8 0x30000 ++ [1, 1, 1, 1, 0]),
   packet 3 (leBytes 8 0x20000 ++ leBytes 8 0x8000 ++ [32, 16, 1]), packet 4 (leBytes 8 0 ++ [8])]

theorem test_good_packets : ∀ b ∈ packets, GoodPacket b := by
  intro b hb
  have h : ∀ b ∈ packets, let f (o n : Nat) : Nat := fieldOf b o n
      f 1 1 < 4 ∧ f 2 1 ≤ 16 ∧ f 3 1 ≤ 8 ∧ f 4 4 = 0 ∧ (f 8 8 % 8 = 0 ∧ f 8 8 < 2 ^ 47) ∧ (f 0x10 8 % 8 = 0 ∧ f 0x10 8 < 2 ^ 47) ∧ f 0x18 8 = 0 ∧
      ((f 0 1 = 1 ∧ (f 0x60 8 % 4 = 0 ∧ f 0x60 8 < 2 ^ 47) ∧ (1 ≤ f 0x68 1 ∧ f 0x68 1 ≤ 32) ∧ (1 ≤ f 0x69 1 ∧ f 0x69 1 ≤ 32) ∧ (1 ≤ f 0x6A 1 ∧ f 0x6A 1 ≤ 16) ∧
          (1 ≤ f 0x6B 1 ∧ f 0x6B 1 ≤ 16) ∧ (1 ≤ f 0x6C 2 ∧ f 0x6C 2 ≤ 4096) ∧ f 0x6E 1 ≤ 128 ∧ f 0x6F 1 ≤ 16 ∧ f 0x70 15 = 0) ∨
       (f 0 1 = 2 ∧ (f 0x60 8 % 1 = 0 ∧ f 0x60 8 < 2 ^ 47) ∧ (f 0x68 8 % 4 = 0 ∧ f 0x68 8 < 2 ^ 47) ∧ (f 0x70 8 % 4 = 0 ∧ f 0x70 8 < 2 ^ 47) ∧
          (1 ≤ f 0x78 1 ∧ f 0x78 1 ≤ 32) ∧ (1 ≤ f 0x79 1 ∧ f 0x79 1 ≤ 16) ∧ (1 ≤ f 0x7A 1 ∧ f 0x7A 1 ≤ 32) ∧ (1 ≤ f 0x7B 1 ∧ f 0x7B 1 ≤ 16) ∧ f 0x7C 1 ≤ 128 ∧ f 0x7D 2 = 0) ∨
       (f 0 1 = 3 ∧ (f 0x60 8 % 4 = 0 ∧ f 0x60 8 < 2 ^ 47) ∧ (f 0x68 8 % 64 = 0 ∧ f 0x68 8 < 2 ^ 47) ∧ (1 ≤ f 0x70 1 ∧ f 0x70 1 ≤ 32) ∧ (1 ≤ f 0x71 1 ∧ f 0x71 1 ≤ 16) ∧
          f 0x72 1 ≤ 128 ∧ f 0x73 12 = 0) ∨
       (f 0 1 = 4 ∧ f 0x68 1 ≤ 8 ∧ f 0x69 22 = 0)) := by decide +kernel
  obtain ⟨h1, h2, h3, h4, h5, h6, h7, h8⟩ := h b hb
  have h7 : fieldOf b 0x18 8 = 0 := h7
  have nf : ¬2 ^ 63 ≤ fieldOf b 0x18 8 := by rw [h7]; decide
  refine ⟨h1, h2, h3, h4, ⟨h5.1, .inl h5.2⟩, ⟨h6.1, .inl h6.2⟩, (congrArg (· / 2 ^ 9 % 2 ^ 7) h7).trans (by decide), (congrArg (· / 2 ^ 25 % 2 ^ 38) h7).trans (by decide), ?_⟩
  rcases h8 with h | h | h | h
  · exact .inl ⟨h.1, ⟨h.2.1.1, .inl h.2.1.2⟩, h.2.2.1, h.2.2.2.1, h.2.2.2.2.1, h.2.2.2.2.2.1, h.2.2.2.2.2.2.1, h.2.2.2.2.2.2.2.1, h.2.2.2.2.2.2.2.2.1,
      h.2.2.2.2.2.2.2.2.2, fun hf => absurd hf nf⟩
  · exact .inr (.inl ⟨h.1, ⟨h.2.1.1, .inl h.2.1.2⟩, ⟨h.2.2.1.1, .inl h.2.2.1.2⟩, ⟨h.2.2.2.1.1, .inl h.2.2.2.1.2⟩, h.2.2.2.2.1, h.2.2.2.2.2.1, h.2.2.2.2.2.2.1,
      h.2.2.2.2.2.2.2.1, h.2.2.2.2.2.2.2.2.1, h.2.2.2.2.2.2.2.2.2, fun hf => absurd hf nf⟩)
  · exact .inr (.inr (.inl ⟨h.1, ⟨h.2.1.1, .inl h.2.1.2⟩, ⟨h.2.2.1.1, .inl h.2.2.1.2⟩, h.2.2.2.1, h.2.2.2.2.1, h.2.2.2.2.2.1, h.2.2.2.2.2.2⟩))
  · exact .inr (.inr (.inr h))

/-- A queue whose head is a packet. -/
def pkSt (b : List Byte) : State := withArg (qSt { queue0 with pend := [⟨0, 0, b⟩] }) { a := 0xFFFF }

/-- Taken, whatever the packet, where it waits for nothing. -/
theorem takes_pkSt (b : List Byte) (hw : ∀ i < 256, (maskAt b 0x20).getLsbD i = false) :
    ∃ q c, Takes (pkSt b).dev q c ⟨0, 0, b⟩ [] ∧ q.live = [] := by
  refine ⟨{ queue0 with pend := [⟨0, 0, b⟩] }, loadCtx 0, ⟨rfl, rfl, fun h => (nomatch h), rfl, rfl, rfl, fun i hi h => ?_, fun _ => rfl, fun l hl => (nomatch hl)⟩, rfl⟩
  rw [hw i hi] at h
  cases h

theorem test_taken_packets : (∀ b ∈ packets, ∀ i < 256, (maskAt b 0x20).getLsbD i = false) ∧
    (∀ n ∈ [0, 5], ∀ i < 256, (maskAt (packet n []) 0x20).getLsbD i = false) ∧ ∀ n ∈ [0, 5], fieldOf (packet n []) 0 1 = n := by decide +kernel

theorem test_placement_premises : let s := lSt (memSt 1 []) (launch0 .launch); let d := s.dev; let l := launch0 .launch
    d.waiting = [l] ∧ l.kind = .launch ∧ l.gpt = 1 ∧ l.fixed = true ∧ l.teams = 1 ∧ l.placed = [] ∧ l ∈ d.hub.launches ∧ (∀ x ∈ d.hub.launches, x.lid = l.lid → x = l) ∧
    l.image = [] ∧ (d.placeGroup l.core0 l.cls l (l.shape 0 0)).isSome := by
  refine ⟨by decide +kernel, rfl, rfl, rfl, rfl, rfl, List.mem_singleton.mpr rfl, fun x hx _ => List.mem_singleton.mp hx, rfl, by decide +kernel⟩

theorem test_completion_premises : let s := lSt (memSt 1 []) { launch0 .launch with finished := true, wordDue := true }; let d := s.dev
    ∃ l, d.launch? d.arg.a = some l ∧ l.finished = true ∧ l.wordDue = true ∧ d.waits (.compl l.lid) = false ∧ okIs (d.translateHub l.ctx l.compl 2) 0x7000 = true :=
  ⟨_, rfl, rfl, rfl, by decide +kernel, by decide +kernel⟩

/-- A context descriptor at 0x8000, with every bounded field at its largest. -/
def ctxBytes : List Byte :=
  leBytes 8 0x3000 ++ leBytes 4 0xFFFFF ++ [0, 3, 0, 0] ++ leBytes 4 1048576 ++ leBytes 4 1 ++ leBytes 8 1 ++ leBytes 8 0x9000 ++ leBytes 4 4096 ++ leBytes 4 0 ++
  leBytes 4 0 ++ leBytes 4 0 ++ leBytes 8 0xA000 ++ leBytes 8 0x100000 ++ leBytes 8 0x1000

/-- A state in which function 0 may use context 63, and the CTXCMD names the descriptor. -/
def cxSt (op no : Nat) : State := withBytes (withDev (memSt 1 []) fun d => { d with
  arg := { v := BitVec.ofNat 64 (0x8000 + op * 64 + no) }
  hub := { d.hub with fns := [{ Hub.reset.fn 0 with s2root := 0x1000, allot := BitVec.allOnes 64 }] } }) 0x8000 ctxBytes

theorem goodContext_cxSt (op no : Nat) : ∀ b, b = (cxSt op no).dev.ms.readSystem 0x8000 256 → GoodContext b 0 := by
  intro b hb
  have h : ∀ b ∈ [(cxSt op no).dev.ms.readSystem 0x8000 256], let f (o n : Nat) : Nat := fieldOf b o n
      f 8 4 < 2 ^ 20 ∧ f 0xE 2 = 0 ∧ f 0x34 4 = 0 ∧ f 0x50 176 = 0 ∧ (f 0 8 % 4096 = 0 ∧ f 0 8 < 2 ^ 47) ∧ (f 0x40 8 % 4096 = 0 ∧ f 0x40 8 < 2 ^ 47) ∧
      (f 0x20 8 % 64 = 0 ∧ f 0x20 8 < 2 ^ 47) ∧ (f 0x38 8 % 32 = 0 ∧ f 0x38 8 < 2 ^ 47) ∧ f 0x48 8 ≠ 0 ∧ f 0x48 8 % 4096 = 0 ∧ f 0xD 1 ≤ 3 ∧
      (1024 ≤ f 0x10 4 ∧ f 0x10 4 ≤ 1048576) ∧ f 0x28 4 = 2 ^ 12 ∧ f 0x18 8 ≠ 0 ∧ f 0xC 1 = 0 := by
    have hm : (cxSt op no).dev.ms = (cxSt 1 63).dev.ms := rfl
    rw [hm]
    decide +kernel
  obtain ⟨h1, h2, h3, h4, h5, h6, h7, h8, h9, h10, h11, h12, h13, h14, h15⟩ := h b (List.mem_singleton.mpr hb)
  exact ⟨h1, h2, h3, h4, ⟨h5.1, .inl h5.2⟩, ⟨h6.1, .inl h6.2⟩, ⟨h7.1, .inl h7.2⟩, ⟨h8.1, .inl h8.2⟩, h9, h10, h11, .inr h12, ⟨12, ⟨by decide, by decide⟩, h13⟩, .inr h14, h15⟩

theorem test_context_command_premises : ∀ x ∈ [(1, 63), (2, 0), (3, 0)], let s := cxSt x.1 x.2; let v := s.dev.arg.v
    v.toNat / 64 % 4 = x.1 ∧ v.toNat % 64 = x.2 ∧ (s.dev.hub.fn 0).allot.getLsbD x.2 = true ∧ v.toNat / 256 * 256 = 0x8000 ∧ okIs (s.dev.translateIpa 0 0x8000 1) 0x8000 = true ∧
    (x.1 = 1 → s.dev.hub.ctx? 63 = none) ∧ (x.1 ≠ 1 → (s.dev.hub.ctx? 0).isSome ∧ ((s.dev.hub.ctx? 0).map Ctx.dying) = some false ∧ ((s.dev.hub.ctx? 0).map Ctx.vf) = some 0) := by
  decide +kernel

theorem test_destroy_done_premises : let d := (withDev (memSt 1 []) fun d => { d with groups := [], hub := { d.hub with ctxs := [{ loadCtx 0 with dying := true }] } }).dev
    ∃ c, d.hub.ctx? d.arg.a = some c ∧ c.dying = true ∧ d.cores = [] ∧ d.hub.releases = [] ∧ d.groups = [] ∧ d.saved = [] ∧ ∀ f ∈ d.hub.fns, f.reqs = [] :=
  ⟨_, rfl, rfl, rfl, rfl, rfl, rfl, by decide +kernel⟩

/-- A context is destroyed while a copy of it waits for a page request. -/
theorem test_destroy_copies_premises : let d := (withDev (cxSt 3 0) fun d => { d with groups := [], hub := { d.hub with
      fns := [{ d.hub.fn 0 with raised := [⟨7, 0, unit0⟩] }], cases := [{ case0 with who := .chan 0 0 0 }] } }).dev
    (∃ c, d.hub.ctx? 0 = some c ∧ c.dying = false ∧ c.vf = 0) ∧ (d.hub.fn 0).allot.getLsbD 0 = true ∧ (∀ g ∈ d.groups, g.ctx ≠ 0) ∧ d.saved = [] ∧ d.cores = [] ∧ d.walks = [] ∧
    ∃ x ∈ d.hub.cases, x.who = .chan 0 0 0 ∧ x.ctx = 0 ∧ ∃ r ∈ (d.hub.fn 0).raised, r.id ∈ x.waiting :=
  ⟨⟨_, rfl, rfl, rfl⟩, by decide +kernel, fun g hg => (nomatch hg), rfl, rfl, rfl, _, List.mem_singleton.mpr rfl, rfl, rfl, _, List.mem_singleton.mpr rfl, by decide⟩

/-- Transactions at the ends of device memory and of host memory. -/
theorem test_host_write_premises : let h := (memSt 1 []).dev.hub
    (OneTransaction 0x7FFFFFFFC0 64 ∧ InDevice h 0x7FFFFFFFC0 64) ∧ (OneTransaction 0x7FFFFFFFFFFF 1 ∧ 0x400000000000 ≤ 0x7FFFFFFFFFFF ∧ 0x7FFFFFFFFFFF < 0x800000000000) ∧
    ¬OneTransaction 0 128 := by
  refine ⟨⟨⟨⟨6, by decide, rfl⟩, by decide⟩, .inl (by decide)⟩, ⟨⟨⟨0, by decide, rfl⟩, by decide⟩, by decide, by decide⟩, ?_⟩
  rintro ⟨⟨k, hk, h⟩, _⟩
  have h2 : (2 : Nat) ^ k ≤ 2 ^ 6 := Nat.pow_le_pow_right (by decide) hk
  omega

/-! ### Firmware, resets and the step -/

/-- Corgon answering a command of the management mailbox. -/
def mbSt (n : Nat) : State := withDev (memSt 1 []) fun d => { d with
  hub := { d.hub with cmdBusy := true, cmdmb := (List.replicate 128 0).set 0 (BitVec.ofNat 8 n) } }

theorem test_management_premises : (∀ n ∈ [1, 2, 3, 4, 5, 6], HasCommand (mbSt n) n) ∧ (mbSt 1).dev.hub.cmdmb.length = 128 ∧ (mbSt 1).fw.digests.length = 256 ∧ (mbSt 5).dev.hub.lastev.length ≤ 4096 := by
  unfold HasCommand; decide +kernel

/-- A monitor, group 1 of function 0, with a debug command to answer. -/
def dbSt (n : Nat) : State := withBytes (withDev (withArg (memSt 1 []) { a := 0, b := 1 }) fun d => { d with
  hub := { d.hub with fns := [{ Hub.reset.fn 0 with s2root := 0x1000, dbgBusy := true }] } }) (0xFE0101000000 + 0x100) [BitVec.ofNat 8 n, 7, 48, 0]

theorem test_debug_premises : ∀ n ∈ [1, 2, 3, 4, 5, 6], ∃ m c, Monitors (dbSt n).dev n m c ∧ m.g.ctx = 0 := by
  intro n hn
  have h : ((dbSt n).dev.monitorOf 0 1 n).isSome = true := by
    have hn : n = 1 ∨ n = 2 ∨ n = 3 ∨ n = 4 ∨ n = 5 ∨ n = 6 := by simpa using hn
    rcases hn with rfl | rfl | rfl | rfl | rfl | rfl <;> decide +kernel
  obtain ⟨m, hm⟩ := Option.isSome_iff_exists.mp h
  refine ⟨m, _, ⟨hm, rfl⟩, ?_⟩
  have hg : (((dbSt n).dev.monitorOf 0 1 n).map fun m => m.g.ctx) = some 0 := by
    have hn : n = 1 ∨ n = 2 ∨ n = 3 ∨ n = 4 ∨ n = 5 ∨ n = 6 := by simpa using hn
    rcases hn with rfl | rfl | rfl | rfl | rfl | rfl <;> decide +kernel
  rw [hm] at hg
  exact Option.some.inj hg

/-- A read of a save pool that holds 48 bytes, and of one that does not. -/
theorem test_read_save_premises : let s := poolSt (dbSt 5) []; ∃ m c, Monitors s.dev 5 m c ∧ m.g.ctx = 0 ∧ ∃ x, s.dev.hub.ctx? 0 = some x ∧ fieldOf c 8 8 + 48 ≤ x.savesz ∧
    (∃ b, s.dev.readIpa m.vf (x.savep + fieldOf c 8 8) 48 = .ok b) ∧ ∃ x, (dbSt 5).dev.hub.ctx? 0 = some x ∧ x.savesz < 48 := by
  have h : (match (poolSt (dbSt 5) []).dev.monitorOf 0 1 5 with
    | some m => m.g.ctx == 0 && m.vf == 0 && ((poolSt (dbSt 5) []).dev.readIpa 0 0x100000 48).isOk
    | none => false) = true := by decide +kernel
  cases hm : (poolSt (dbSt 5) []).dev.monitorOf 0 1 5 with
  | none => rw [hm] at h; cases h
  | some m =>
    simp only [hm, Bool.and_eq_true, beq_iff_eq] at h
    obtain ⟨⟨hg, hv⟩, hr⟩ := h
    have hc : fieldOf ((poolSt (dbSt 5) []).dev.ms.readSystem (0xFE0101000000 + 0 * 0x1000 + 0x100) 64) 8 8 = 0 := by decide +kernel
    refine ⟨m, _, ⟨hm, rfl⟩, hg, _, rfl, ?_, ?_, _, rfl, by decide⟩
    · rw [hv, hc]; decide
    · rw [hv, hc]; exact ok_of_isOk hr

/-- Reads and writes by the monitor, each where the access succeeds and where it traps. -/
theorem test_monitor_access_premises : ∃ m, (dbSt 3).dev.monitorOf 0 1 3 = some m ∧
    ((dbSt 3).dev.monRead m false 48 0x10000).1.isOk = true ∧ ((dbSt 3).dev.monRead m false 48 0x800000000000).1.isOk = false ∧
    ((dbSt 3).dev.monWrite m false [1] 0x10000).1.isNone = true ∧ ((dbSt 3).dev.monWrite m false [1] 0x800000000000).1.isSome = true := by
  have h : (match (dbSt 3).dev.monitorOf 0 1 3 with
    | some m => ((dbSt 3).dev.monRead m false 48 0x10000).1.isOk && !((dbSt 3).dev.monRead m false 48 0x800000000000).1.isOk &&
        ((dbSt 3).dev.monWrite m false [1] 0x10000).1.isNone && ((dbSt 3).dev.monWrite m false [1] 0x800000000000).1.isSome
    | none => false) = true := by decide +kernel
  cases hm : (dbSt 3).dev.monitorOf 0 1 3 with
  | none => rw [hm] at h; cases h
  | some m =>
    simp only [hm, Bool.and_eq_true, Bool.not_eq_true'] at h
    exact ⟨m, rfl, h.1.1.1, h.1.1.2, h.1.2, h.2⟩

/-- GO with another group of the context descheduled at a HALT. -/
def goSt : State := withDev (dbSt 2) fun d => { d with
  groups := d.groups ++ [{ loadGroup 2 0 with slots := [1], stat := .descheduled }]
  warps := d.warps ++ [launchWarp 0 1 2 0]
  fibres := d.fibres ++ [{ loadFibre 0 with slot := 1, trapped := true, trapcause := 18 }] }

theorem test_go_premises : (∃ m, goSt.dev.monitorOf 0 1 2 = some m) ∧ goSt.dev.saved = [] ∧ goSt.dev.hub.cases = [] ∧ goSt.dev.hub.frecs = [] ∧
    ∃ g, goSt.dev.group? 2 = some g ∧ g.gid = 2 ∧ g.ctx = 0 ∧ g.stat = .descheduled ∧
      (∃ f ∈ goSt.dev.fibres, goSt.dev.gidOf f = 2 ∧ f.trapped = true ∧ f.trapcause.toNat % 256 = 18) ∧
      ∀ x ∈ goSt.dev.groups, x.ctx = 0 → x.gid ≠ 2 → ∀ f ∈ goSt.dev.fibres, goSt.dev.gidOf f = x.gid → f.trapped = false ∨ f.trapcause.toNat % 256 ≠ 18 :=
  ⟨Option.isSome_iff_exists.mp (by decide +kernel), rfl, rfl, rfl, _, rfl, rfl, rfl, rfl, by decide +kernel, by decide +kernel⟩

theorem test_boot_record_short : State.reset.fw.bootrec.length ≤ 64 := by decide

/-- The batches of a pipe of core 0. -/
def onPipe (s : State) (n : Nat) : List Cand := s.dev.cands.filter fun c => c.pipe == n

theorem chosen_of {d : Dev} {cs : List Cand} {ok : Cand → Bool} (h : (match d.choice cs with | some c => ok c | none => false) = true) :
    ∃ c, d.choice cs = some c ∧ ok c = true := by
  cases hb : d.choice cs with
  | none => rw [hb] at h; cases h
  | some c => rw [hb] at h; exact ⟨c, rfl, h⟩

/-- A loaded word: its batch is chosen on its pipe, its address translates, and it decodes; without tables the fetch faults. A loaded word of
Corgon is one of the four instructions, or one that neither they nor the base instructions have. -/
theorem test_step_premises : (let s := State.reset.loadNeroz 0x09975DF7
      ChoosesFrom s (onPipe s 0) [] ∧ ∃ c, s.dev.choice (onPipe s 0) = some c ∧ ∃ a, (s.dev.translate c.core c.ctx c.pc.toNat 4).1 = .ok a) ∧
    (let s := withDev (State.reset.loadNeroz 0) fun d => { d with ms := MemSys.empty }
     ChoosesFrom s (onPipe s 0) [] ∧ ∃ c, s.dev.choice (onPipe s 0) = some c ∧ ∃ x, (s.dev.translate c.core c.ctx c.pc.toNat 4).1 = .error x) ∧
    (∀ w ∈ [(0x00C5850B : BitVec 32), 0], let s := State.reset.loadCorgon w.toNat
      s.fw.bootFail = none ∧ s.agenda = .corgon 0 :: [] ∧ ∃ c, getBy Corgon.no 0 s.fw.corgons = some c ∧ c.waiting = none ∧
        BitVec.ofNat 32 (leVal (s.dev.hub.sram.read c.pc.toNat 4)) = w) ∧
    decodeCorgon 0x00C5850B = some (.rfetch { rs2 := 12, rs1 := 11, rd := 10 }) ∧ decodeCorgon 0 = none ∧ (fetchRv 0).1 = none := by
  refine ⟨⟨⟨rfl, .inl ⟨0, 0, rfl, rfl⟩⟩, ?_⟩, ⟨⟨rfl, .inl ⟨0, 0, rfl, rfl⟩⟩, ?_⟩, ?_, by decide +kernel, by decide +kernel, by decide +kernel⟩
  · obtain ⟨c, hc, h⟩ := chosen_of (d := (State.reset.loadNeroz 0x09975DF7).dev) (cs := onPipe (State.reset.loadNeroz 0x09975DF7) 0)
      (ok := fun c => ((State.reset.loadNeroz 0x09975DF7).dev.translate c.core c.ctx c.pc.toNat 4).1.isOk) (by decide +kernel)
    exact ⟨c, hc, ok_of_isOk h⟩
  · obtain ⟨c, hc, h⟩ := chosen_of (d := (withDev (State.reset.loadNeroz 0) fun d => { d with ms := MemSys.empty }).dev)
      (cs := onPipe (withDev (State.reset.loadNeroz 0) fun d => { d with ms := MemSys.empty }) 0)
      (ok := fun c => !((withDev (State.reset.loadNeroz 0) fun d => { d with ms := MemSys.empty }).dev.translate c.core c.ctx c.pc.toNat 4).1.isOk) (by decide +kernel)
    refine ⟨c, hc, ?_⟩
    cases ht : ((withDev (State.reset.loadNeroz 0) fun d => { d with ms := MemSys.empty }).dev.translate c.core c.ctx c.pc.toNat 4).1 with
    | ok a => simp only [ht] at h; cases h
    | error u => exact ⟨u, rfl⟩
  · intro w hw
    have hw : w = 0x00C5850B ∨ w = 0 := by simpa using hw
    rcases hw with rfl | rfl <;> exact ⟨rfl, rfl, _, rfl, rfl, by decide +kernel⟩

/-- An event at the head of the agenda. -/
theorem test_event_step_premises : let s := { State.reset with agenda := [.event .linkUp {}] }
    s.fw.bootFail = none ∧ s.agenda = .event .linkUp {} :: [] ∧ encode .linkUp = none ∧ ∀ w, Instr.linkUp ≠ .illegalWord w :=
  ⟨rfl, rfl, rfl, fun _ h => (nomatch h)⟩

theorem test_batch_selection_premises : let d := (State.reset.loadNeroz 0x09975DF7).dev
    ((d.fibres.map fun f => (f.core, f.slot, f.lane)).Nodup ∧ (∀ v ∈ d.saved, v.partial_ = false) ∧
      (∀ f ∈ d.fibres, ∀ g ∈ d.groups, g.gid = d.gidOf f → f.core = g.core) ∧
      ∀ f ∈ d.fibres, ∀ x ∈ d.fibres, d.gidOf f = d.gidOf x → f.warpid = x.warpid → f.lane = x.lane → f = x) ∧ d.cands ≠ [] := by
  decide +kernel

/-- A batch of core 0: age, anchor slot, home lane, and how often it was passed over. -/
def cand (age slot lane passed : Nat) : Cand :=
  { core := 0, gid := 1, ctx := 0, pc := 0x10000, word := none, members := [(slot, lane)], anchor := slot, key := [1, 1, age, slot, lane], takes := true
    passed := passed }

/-- Fibres of slot 0 at one PC or at two. -/
theorem distinct_one : DistinctPcs (st 2).dev 0 0 1 :=
  ⟨[0x10000], by decide, rfl, fun p => ⟨fun h => by
    rw [List.mem_singleton.mp h]; exact ⟨{ loadFibre 0 with lane := 0 }, by decide +kernel, rfl, rfl, by decide, rfl⟩, fun ⟨f, hf, _, _, _, hp⟩ => by
    have h : ∀ f ∈ (st 2).dev.fibres, f.pc = 0x10000 := by decide +kernel
    rw [← hp, h f hf]; exact List.mem_singleton.mpr rfl⟩⟩

/-- Within a slot: the older of two batches that can both wait; one passed over once at one PC, which cannot. Between slots: the older. -/
theorem test_choice_premises : (∀ x ∈ [cand 5 0 0 0, cand 9 0 1 1], x.key.length = 5) ∧ DistinctPcs (st 2).dev 0 0 1 ∧
    -- no batch is as late as that: one passed over never, the other waits with it
    ((st 2).dev.choice [cand 5 0 0 0] = some (cand 5 0 0 0) ∧
      ∀ k, ([cand 5 0 0 0].filter fun y => decide (SameSlot y (cand 5 0 0 0) ∧ 2 * 1 ≤ y.passed + 1 + k)).length ≤ k) ∧
    -- 2 n = 2 opportunities: the younger one goes now
    (2 * 1 ≤ (cand 9 0 1 1).passed + 1 ∧ (∀ y ∈ [cand 5 0 0 0, cand 9 0 1 1], SameSlot y (cand 9 0 1 1) → y ≠ cand 9 0 1 1 → y.passed + 1 < 2 * 1) ∧
      (st 2).dev.choice [cand 5 0 0 0, cand 9 0 1 1] = some (cand 9 0 1 1)) ∧
    -- two slots of one pipe
    ((st 2).dev.choice [cand 9 4 1 0, cand 5 0 0 0] = some (cand 5 0 0 0) ∧ ¬SameSlot (cand 9 4 1 0) (cand 5 0 0 0)) := by
  refine ⟨by decide, distinct_one, ⟨by decide +kernel, fun k => ?_⟩, ⟨by decide, by unfold SameSlot; decide +kernel, by decide +kernel⟩, by decide +kernel, by unfold SameSlot; decide⟩
  cases k with
  | zero => decide
  | succ n => exact Nat.le_trans (List.length_filter_le _ _) (Nat.succ_le_succ (Nat.zero_le n))

/-- A saved group of one warp, with a token armed and one latched, and one fibre of 128 registers. -/
def storable0 : Saved := { saved0 with
  warps := [{ launchWarp 511 0 9 0 with pend := ((List.replicate 16 none).set 0 (some ⟨0x1000, none, 0⟩)).set 15 (some ⟨0x2000, some 7, 5⟩) }]
  fibres := [{ loadFibre 0 with helper := true }] }

theorem test_save_area_premises : Storable storable0 ∧ Storable saved0 ∧ (loadFibre 0).win.length < 2 ^ 64 ∧ (loadFibre 0).pc.toNat % 4 = 0 ∧
    (loadFibre 0).lp0.start.toNat % 4 = 0 ∧ (loadFibre 0).lp0.last.toNat % 4 = 0 := by
  unfold Storable; decide +kernel

/-- The invariants hold at reset and at a state in use. -/
theorem test_invariant_premises : MemoryInv State.reset ∧ MemoryInv (memSt 2 []) ∧ State.reset.pwr.floors.sum ≤ State.reset.pwr.cap ∧ State.reset.pwr.cap ≤ 2200 ∧
    State.reset.pwr.code ≤ 2 ∧ State.reset.pwr.floors.length = 64 ∧ State.reset.pwr.plceil.length = 64 ∧ ∀ x ∈ State.reset.pwr.plceil, x ≤ 7 := by
  refine ⟨by unfold MemoryInv; decide +kernel, by unfold MemoryInv; decide +kernel, by decide, by decide, by decide, by decide, by decide, by decide⟩

/-! ## Ill-formed instructions -/

/-- One for each check: conditions, address formation of a narrow type, shift counts, special functions of `.f64`, conversion types, number and transform
formats, transform lengths, quad exchanges, narrow ballots and matches, reductions, branches, forks past v63, empty loops, scopes, atomic operations, the pair of a
64-bit compare-and-swap, orders, prefetch levels, register pairs, uniform shift counts, bindings past k63, uniform numbers of SRD and SWR. -/
def illFormed : List Instr :=
  ([[.cmpI (cmp 6), .cmpN (cmp 7), .lea (r3 1), .shli { stl := 0, vd := 0, va := 0, cnt := 8, ty := 0 }, .shri { stl := 0, vd := 0, va := 0, cnt := 16, ty := 1 },
   .sari { stl := 0, vd := 0, va := 0, cnt := 32, ty := 2 }, .roti { stl := 0, vd := 0, va := 0, cnt := 63, ty := 0 }, .rcp (un 3), .rsq (un 3), .sqrt (un 3), .ex2 (un 3),
   .lg2 (un 3), .sinp (un 3), .cosp (un 3), .tanh (un 3), .cvt { stl := 0, vd := 0, va := 0, td := 12, ts := 0, rnd := 0 },
   .cvt { stl := 0, vd := 0, va := 0, td := 0, ts := 15, rnd := 0 }, .cvtnb { stl := 0, vd := 0, va := 0, g := 0, nf := 3, bl := 0, hf := 0 },
   .cvtnb { stl := 0, vd := 0, va := 0, g := 0, nf := 0, bl := 0, hf := 2 }, .cvtnbx { stl := 0, vd := 0, va := 0, g := 0, nf := 0, bl := 1, hf := 3 }],
  [.had { stl := 0, vd := 0, va := 0, imm := 8 }, .qxch (im8 3), .vote { stl := 0, vd := 0, va := 0, form := 3, hv := 0, ty := 1 }, .matchLanes (un 1),
   .wred { stl := 0, vd := 0, va := 0, op := 5, hv := 0, ty := 2 }, .wscan { stl := 0, vd := 0, va := 0, op := 11, hv := 0, ty := 2 },
   .br { stl := 0, va := 0, hv := 0, cc := 6, off := 0 }, .fork { stl := 0, va := 63, cnt := 1, off := 1 }, .loopImm { stl := 0, cnt := 0, off := 1 },
   .loopImm { stl := 0, cnt := 1, off := 0 }, .loopUniform { stl := 0, kc := 0, off := 0 }, .ldStrong { stl := 0, vd := 0, va := 0, msk := 0, scope := 7, sp := 0, sz := 0, hv := 0 },
   .stStrong { stl := 0, vd := 0, va := 0, msk := 0, scope := 7, sp := 0, sz := 0, hv := 0 }, .atomG32 (atm 12), .atomW32 { atm 0 with scope := 7 }, .atomG64 { atm 9 with vd := 63 },
   .atomW64 (atm 12), .atomS32 (atmS 12), .atomS64 { atmS 9 with vd := 63 }, .fence { stl := 0, ord := 0, scope := 0 }, .phase { stl := 0, ord := 1, scope := 7 },
   .pref { stl := 0, lvl := 2, va := 0, msk := 0, off := 0, sz := 0, hv := 0 }, .kvldRead { r3 3 with vd := 63 }, .kvappAppend { r3 3 with va := 63 }],
  [.kshlImm { kim with imm := 64 }, .kshrImm { kim with imm := 0x3FF }, .kcmp { stl := 0, kd := 0, ka := 0, kb := 0, cc := 10 },
   .kbr { stl := 0, ka := 0, cc := 7, off := 0 }, .waitany { stl := 0, ka := 57, n := 7 }, .srd (sr 1 64 0), .swr (sr 1 127 0x18)]] : List (List Instr)).flatten

theorem test_ill_formed_refused : ∀ i ∈ illFormed, i.wf = false := by decide +kernel

/-- A word of ones, and a word with an opcode that the map leaves free. -/
theorem test_decode_refuses : (decode 0xFFFFFFFF).isOk = false ∧ (decode 0x1F800000).isOk = false := ⟨rfl, rfl⟩

/-! ## Words that the spec writes out -/

theorem test_words_lane : decode 0x000A5447 = .ok (.add { stl := 0, vd := 10, va := 21, vb := 4, hv := 0, ty := 3, kb := 1 }) ∧
    decode 0x73461020 = .ok (.shflXorConst { stl := 3, vd := 6, va := 4, imm := 8, ty := 0 }) ∧
    decode 0x07870D04 = .ok (.sel { stl := 0, vd := 7, va := 3, ms := 2, hv := 0, ty := 2 }) ∧ decode 0x0C892014 = .ok (.rsq { stl := 0, vd := 9, va := 8, hv := 0, ty := 2 }) ∧
    decode 0x50440DD0 = .ok (.cvtnb { stl := 2, vd := 4, va := 3, g := 3, nf := 2, bl := 1, hf := 0 }) ∧
    decode 0x10890A84 = .ok (.cvtnbx { stl := 0, vd := 9, va := 2, g := 5, nf := 0, bl := 0, hf := 1 }) ∧
    decode 0x11021050 = .ok (.pack { stl := 0, vd := 2, va := 4, vb := 5, hv := 0, ty := 0, kb := 0 }) ∧ decode 0x70C30C82 = .ok (.had { stl := 3, vd := 3, va := 3, imm := 32 }) ∧
    decode 0x14881C84 = .ok (.wred { stl := 0, vd := 8, va := 7, op := 8, hv := 0, ty := 2 }) := ⟨rfl, rfl, rfl, rfl, rfl, rfl, rfl, rfl, rfl⟩

theorem test_words_control : decode 0x150D4FFA = .ok (.br { stl := 0, va := 13, hv := 0, cc := 4, off := 0xFFA }) ∧
    decode 0x16C00031 = .ok (.rejoin { stl := 0, vb := 3, hv := 0, kb := 1 }) ∧ decode 0x17400002 = .ok (.endFibre { stl := 0 }) := ⟨rfl, rfl, rfl⟩

theorem test_words_memory : decode 0x1A072C80 = .ok (.stO { stl := 0, vd := 7, va := 11, msk := 1, off := 0, sz := 0, hv := 0 }) ∧
    decode 0x1AC10864 = .ok (.stStrong { stl := 0, vd := 1, va := 2, msk := 0, scope := 6, sp := 0, sz := 2, hv := 0 }) ∧
    decode 0x1A831054 = .ok (.ldStrong { stl := 0, vd := 3, va := 4, msk := 0, scope := 5, sp := 0, sz := 2, hv := 0 }) ∧
    decode 0x1B051A28 = .ok (.atomG32 { stl := 0, vd := 5, va := 6, aop := 8, ord := 2, scope := 4, hv := 0 }) ∧
    decode 0x1C800068 = .ok (.fence { stl := 0, ord := 1, scope := 5 }) ∧ decode 0x1C8001A8 = .ok (.phase { stl := 0, ord := 2, scope := 5 }) ∧
    decode 0x1D040877 = .ok (.kvldRead { r3 3 with vd := 4, vb := 7, kb := 1 }) ∧ decode 0x1D460877 = .ok (.kvappAppend { r3 3 with vd := 6, vb := 7, kb := 1 }) :=
  ⟨rfl, rfl, rfl, rfl, rfl, rfl, rfl, rfl⟩

theorem test_words_uniform : decode 0x8300003C = .ok (.movkH0 { stl := 0, kd := 0, imm := 60 }) ∧ decode 0x8186180E = .ok (.kshlImm { stl := 0, kd := 6, ka := 6, imm := 14 }) ∧
    decode 0x8804F400 = .ok (.kldG { stl := 0, kd := 4, ka := 61, imm := 0 }) ∧ decode 0x8C000180 = .ok (.bar { stl := 0, n := 3 }) ∧
    decode 0x8CC00000 = .ok (.arm { stl := 0, ka := 0 }) ∧ decode 0x8D4F4000 = .ok (.post { stl := 0, kd := 15, ka := 16 }) ∧ decode 0x8E000800 = .ok (.cpyk { stl := 0, ka := 2 }) ∧
    decode 0x8E8A5000 = .ok (.qpull { stl := 0, kd := 10, ka := 20 }) := ⟨rfl, rfl, rfl, rfl, rfl, rfl, rfl, rfl⟩

theorem test_words_engines : decode 0x90002400 = .ok (.pres { stl := 0, ka := 9 }) ∧ decode 0x90400C00 = .ok (.prel { stl := 0, ka := 3 }) ∧
    decode 0x908A0C00 = .ok (.pscl { stl := 0, kd := 10, ka := 3 }) ∧ decode 0x90C00000 = .ok (.upret { stl := 0 }) ∧ decode 0x91001400 = .ok (.upfail { stl := 0, ka := 5 }) ∧
    decode 0x94000800 = .ok (.recur { stl := 0, ka := 2 }) ∧ decode 0x94400C00 = .ok (.rchild { stl := 0, ka := 3 }) ∧ decode 0x94800000 = .ok (.rbase { stl := 0 }) ∧
    decode 0x94C01000 = .ok (.rres { stl := 0, ka := 4 }) ∧ decode 0x95051800 = .ok (.rarg { stl := 0, kd := 5, ka := 6 }) := ⟨rfl, rfl, rfl, rfl, rfl, rfl, rfl, rfl, rfl, rfl⟩

theorem test_words_system : decode 0x96050010 = .ok (.srd (sr 0 20 1)) ∧ decode 0x9660C390 = .ok (.swr (sr 1 3 0x39)) ∧ decode 0x96800005 = .ok (.trap { stl := 0, imm := 5 }) ∧
    decode 0x96C00000 = .ok (.tret { stl := 0 }) ∧ decode 0x97000000 = .ok (.tmask { stl := 0 }) ∧ decode 0x97800000 = .ok (.rgn { stl := 0 }) ∧
    decode 0x98000000 = .ok (.bkpt { stl := 0 }) ∧ decode 0x98400000 = .ok (.halt { stl := 0 }) := ⟨rfl, rfl, rfl, rfl, rfl, rfl, rfl, rfl⟩

/-! ## Values from the spec's tables and from hand calculation -/

/-- v2 and v3 of one fibre as given, v7 before the instruction 0, and FPCTL. -/
def fp (a b ctl : W64) : State := withDev (stV 1 [0, 0, a, b]) fun d => { d with fibres := d.fibres.map fun (f : Fibre) => { f with fpctl := ctl } }

/-- v7 after an instruction. -/
def v7 (i : Instr) (s : State) : W64 := lane (run i s) 0 7

/-- R93: 1.0 + 2^-24 lies halfway: RM nearest-even, toward zero, up and down. -/
theorem test_fadd_rounding : (([0, 1, 2, 3] : List W64).map fun rm => v7 (.fadd (r3 2)) (fp 0x3F800000 0x33800000 rm)) = [0x3F800000, 0x3F800000, 0x3F800001, 0x3F800000] := by
  decide +kernel

theorem test_fsub_negative_zero : (v7 (.fsub (r3 2)) (fp 0x3F800000 0x3F800000 3)).setWidth 32 = (0x80000000 : BitVec 32) := by decide +kernel

theorem test_fmul_flush : v7 (.fmul (r3 2)) (fp 0x00800000 0x3F000000 0) = 0x00400000 ∧ v7 (.fmul (r3 2)) (fp 0x00800000 0x3F000000 4) = 0 := by decide +kernel

theorem test_fmin_nan : v7 (.fmin (r3 2)) (fp 0x7FA00000 0x40000000 0) = 0x40000000 := by decide +kernel

/-- +Inf times +0 plus a NaN. -/
theorem test_fma_invalid : (v7 (.fma (r3 2)) (stV 1 [0, 0, 0x7F800000, 0, 0, 0, 0, 0x7FC12345])).setWidth 32 = (0x7FC00000 : BitVec 32) := by decide +kernel

theorem test_fcmp_nan : ((run (.fcmp { cmp 1 with md := 1 }) (fp 0x7FC00000 0x7FC00000 0)).dev.fibre? 0 0 0).map (fun f => (f.mask 1).getLsbD 0) = some true := by decide +kernel

/-- R107's example: 2^32 saturates, -7.5 goes toward zero. -/
theorem test_cvt_saturates : v7 (.cvt { stl := 0, vd := 7, va := 2, td := 2, ts := 10, rnd := 1 }) (fp 0xC0F0_0000_4F80_0000 0 0) = 0xFFFF_FFF9_7FFF_FFFF := by decide +kernel

/-- A unary operand of binary16. -/
def uh : UnOp := { stl := 0, vd := 7, va := 2, hv := 0, ty := 1 }

/-- R98: EX2 of 1.0, RSQ of +Inf and SQRT of -1.0 in binary16 (the results are outstanding). -/
theorem test_special_f16 : (([(.ex2 uh, 0x3C00), (.rsq uh, 0x7C00), (.sqrt uh, 0xBC00)] : List (Instr × W64)).map fun x =>
      (((run x.1 (fp x.2 0 0)).dev.fibre? 0 0 0).bind fun f => f.outst.getLast?).map fun o => o.value.setWidth 16) =
    [some (0x4000 : BitVec 16), some 0x0000, some 0x7E00] := by
  decide +kernel

/-- R265's PACK and UNPACK of the low half. -/
theorem test_pack_unpack : v7 (.pack (r3 0)) (fp 0x0B 0 0) = 0x0B ∧ (v7 (.unpack (r3 0)) (fp 0x0B 0 0)).setWidth 8 = (0x0B : Byte) := by decide +kernel

/-- Wraps and sign changes of `.n8` and `.i8`, by hand. -/
theorem test_integer_corners : v7 (.add (r3 0)) (fp 0xFF 0x01 0) = 0 ∧ v7 (.addsatI (r3 0)) (fp 0x7F 0x01 0) = 0x7F ∧ v7 (.subsatN (r3 0)) (fp 0x01 0x02 0) = 0 ∧
    v7 (.mulhiI (r3 0)) (fp 0x80 0x80 0) = 0x40 ∧ v7 (.avgN (r3 0)) (fp 0xFF 0xFE 0) = 0xFF ∧ v7 (.sar (r3 0)) (fp 0x80 0x09 0) = 0xFF ∧ v7 (.shl (r3 0)) (fp 0x81 0x08 0) = 0 ∧
    v7 (.rot (r3 0)) (fp 0x81 0x09 0) = 0x03 := by decide +kernel

/-- A BALLOT of two lanes, one nonzero; a shuffle that swaps them. -/
theorem test_cross_lane :
    let s := withDev (st 2) fun d => { d with fibres := d.fibres.map fun (f : Fibre) => { f with win := f.win.set 2 (if f.lane = 1 then 5 else 0) } }
    lane (run (.vote { stl := 0, vd := 7, va := 2, form := 3, hv := 0, ty := 3 }) s) 0 7 = 2 ∧ lane (run (.shflXorConst { stl := 0, vd := 7, va := 2, imm := 8, ty := 3 }) s) 0 7 = 5 := by
  decide +kernel

/-- TRAP saves the PC, the cause and the code, and goes to UHV where it is set (R246, R248). -/
theorem test_trap_entry :
    let s := withDev (st 1) fun d => { d with groups := [{ loadGroup 1 0 with uhv := 0x20000 }] }
    ((run (.trap { stl := 0, imm := 5 }) s).dev.fibre? 0 0 0).map (fun f => (f.pc, f.trappc, f.trapcause.toNat % 256)) = some (0x20000, 0x10000, 16) := by decide +kernel

/-- The first step of a loaded word runs it: SHRI.n64 v23, v23, 61 leaves the PC past it. -/
theorem test_loaded_word_steps : (match step (State.reset.withFetchWord 32 0x09975DF7) with | .next t => (t.dev.fibre? 0 0 0).map Fibre.pc | _ => none) = some 0x10004 := by
  decide +kernel

/-- The writes of FLOOR and CAP in the table of R401: the sum 450 rejects a cap of 400; 320 becomes the idle floor 348; the floor stays 100. -/
theorem test_cap_table :
    let p := ({ Power.reset with idlefl := 348 }.writeFloor 1 200).writeFloor 2 250
    let q := ((p.writeCap false 400).writeFloor 2 100).writeCap false 320
    (p.writeCap false 400).capst = 0x08980002 ∧ q.capst = 0x015C0001 ∧ (q.writeFloor 2 200).capst = 0x015C0002 ∧ (q.writeFloor 2 200).floorSum = 300 := by
  decide +kernel

/-- The capability list at reset: the first entry's ID, VER and LEN, then NEXT and BODY; the last entry ends the chain (R402). -/
theorem test_capability_chain : let s : State := { State.reset with pwr := { Power.reset with idlefl := 348 } }
    s.regRead 3 0x800 8 = 0xE00 ∧ s.regRead 3 0xE00 8 = 0x00000008_0001_0001 ∧ s.regRead 3 0xE08 8 = 0x00000E10_00000E18 ∧
    s.regRead 3 0xEA0 8 = 0x00000EA8_00000000 ∧ s.regRead 3 0x700 8 = 0 ∧ s.regRead 0 0x700 8 = 2200 ∧ s.regRead 0 0x700 4 = 0 := by
  decide +kernel

end Sys2Proof.Tests
end

section
/-! SUPPORT. The reasoning rule of each form of a lane instruction: what it writes, what it leaves, and where its fibres go on. -/

namespace Sys2Proof.Machine

/-! ## Registers by number -/

/-- Without HV a lane-register field is the register's number. -/
theorem laneNo_zero (f : BitVec 6) : laneNo 0 f = f.toNat := by simp [laneNo]

/-! ## A fixed-latency write of a mask register -/

theorem Fibre.putM_zero (f : Fibre) (x : Byte) (r : Nat) : f.putM 0 x r = f := rfl

/-- What a write of a mask register other than m0 makes of the predicate word. -/
theorem Fibre.putM_pred (f : Fibre) {n : Nat} (x : Byte) (r : Nat) (h : n ≠ 0) :
    (f.putM n x r).pred = (f.pred &&& ~~~((0xFF : W64) <<< (8 * n))) ||| (x.setWidth 64 <<< (8 * n)) := by
  simp [Fibre.putM, h]

/-- A bit of a mask register in the predicate word. -/
theorem Fibre.mask_getLsbD (f : Fibre) {n i : Nat} (h : n ≠ 0) (hi : i < 8) : (f.mask n).getLsbD i = f.pred.getLsbD (8 * n + i) := by
  simp [Fibre.mask, h, hi]

/-- A bit of the predicate word after a write of mask register `n`: of the value in the register's byte, the old one elsewhere. -/
theorem Fibre.putM_pred_getLsbD (f : Fibre) {n : Nat} (x : Byte) (r k : Nat) (h : n ≠ 0) (hk : k < 64) :
    (f.putM n x r).pred.getLsbD k = if 8 * n ≤ k ∧ k < 8 * n + 8 then x.getLsbD (k - 8 * n) else f.pred.getLsbD k := by
  have hff (i : Nat) : BitVec.getLsbD (0xFF : W64) i = decide (i < 8) := by
    change Nat.testBit (2 ^ 8 - 1) i = decide (i < 8)
    exact Nat.testBit_two_pow_sub_one 8 i
  simp only [Fibre.putM_pred f x r h, BitVec.getLsbD_or, BitVec.getLsbD_and, BitVec.getLsbD_not, BitVec.getLsbD_shiftLeft,
    BitVec.getLsbD_setWidth, hff, hk, decide_true, Bool.true_and]
  by_cases h1 : 8 * n ≤ k
  · by_cases h2 : k < 8 * n + 8
    · have : k - 8 * n < 64 := by omega
      simp [h1, h2, this, show ¬ k < 8 * n by omega, show k - 8 * n < 8 by omega]
    · have : x.getLsbD (k - 8 * n) = false := BitVec.getLsbD_of_ge _ _ (by omega)
      simp [h2, this, show ¬ k - 8 * n < 8 by omega]
  · simp [h1, show k < 8 * n by omega]

/-- A write of a mask register other than m0 is read back. -/
theorem Fibre.putM_mask_same (f : Fibre) {n : Nat} (x : Byte) (r : Nat) (h : n ≠ 0) (hn : n < 8) : (f.putM n x r).mask n = x := by
  apply BitVec.eq_of_getLsbD_eq
  intro i hi
  rw [Fibre.mask_getLsbD _ h hi, Fibre.putM_pred_getLsbD f x r _ h (by omega), if_pos (by omega)]
  congr 1
  omega

/-- A write of a mask register leaves the others. -/
theorem Fibre.putM_mask_other (f : Fibre) {n m : Nat} (x : Byte) (r : Nat) (h : n ≠ 0) (hm : m ≠ n) :
    (f.putM n x r).mask m = f.mask m := by
  by_cases h0 : m = 0
  · simp [Fibre.mask, h0]
  · apply BitVec.eq_of_getLsbD_eq
    intro i hi
    rw [Fibre.mask_getLsbD _ h0 hi, Fibre.mask_getLsbD _ h0 hi]
    by_cases hk : 8 * m + i < 64
    · rw [Fibre.putM_pred_getLsbD f x r _ h hk, if_neg (by omega)]
    · rw [BitVec.getLsbD_of_ge _ _ (by omega), BitVec.getLsbD_of_ge _ _ (by omega)]

/-- A write of a mask register leaves what is in flight to the others. -/
theorem Fibre.putM_infl_but (f : Fibre) (n : Nat) (x : Byte) (r : Nat) :
    ((f.putM n x r).infl.filter fun e => !(e.reg == .m n)) = f.infl.filter fun e => !(e.reg == .m n) := by
  unfold Fibre.putM
  split <;> simp

/-! ## Registers of a fibre that has gone on -/

@[simp] theorem Fibre.vreg_goOn_issued (f : Fibre) (now pass : Nat) (l : Bool) (stl free n : Nat) :
    (f.goOn.issued now pass l stl free).vreg n = f.vreg n := by simp [Fibre.vreg]

@[simp] theorem Fibre.mask_goOn_issued (f : Fibre) (now pass : Nat) (l : Bool) (stl free n : Nat) :
    (f.goOn.issued now pass l stl free).mask n = f.mask n := by simp [Fibre.mask]

end Sys2Proof.Machine

namespace Sys2Proof.Stmt

open Machine

/-! ## Updates of the active fibres after which they go on -/

/-- A fibre whose registers a change `h` has touched goes on to where it would have gone without it. -/
theorem goOn_issued_wentOn {f h : Fibre} (hp : h.pc = f.pc) (h0 : h.lp0 = f.lp0) (h1 : h.lp1 = f.lp1) (h2 : h.lp2 = f.lp2)
    (now pass : Nat) (l : Bool) (n free : Nat) : WentOn f (h.goOn.issued now pass l n free) := by
  obtain ⟨g1, g2, g3, g4⟩ := Fibre.goOn_congr hp h0 h1 h2
  exact ⟨g1, g2, g3, g4⟩

/-- A change of lane and mask registers followed by going on leaves the rest of a fibre. -/
theorem goOn_issued_keepsRest {f h : Fibre} (hk : { h with win := f.win, pred := f.pred, infl := f.infl, outst := f.outst } = f)
    (now pass : Nat) (l : Bool) (n free : Nat) : KeepsRest f (h.goOn.issued now pass l n free) := by
  rw [KeepsRest, Fibre.goOn_issued_rest, ← hk]

/-- The rule of an instruction that changes its active fibres by `g` and goes on: it completes, nothing else of the machine changes, and
each active fibre is found changed at its next place. -/
theorem run_updActive_advLane {i : Instr} {s : State} (hs : Ready s i) (stl : BitVec 2) (g : Dev → Fibre → Fibre)
    (hg : ∀ f, (g s.dev f).core = f.core ∧ (g s.dev f).slot = f.slot ∧ (g s.dev f).lane = f.lane)
    (ht : ∀ f, (g s.dev f).trapped = f.trapped) :
    ∃ t, (s.run i fun d => (d.updActive (g d)).advLane stl) = .next t ∧ OnlyFibres s t ∧ OthersKept s.dev t.dev ∧
      ∀ f ∈ s.dev.active, t.dev.fibre? f.core f.slot f.lane =
        some ((g s.dev f).goOn.issued s.dev.cycle (s.dev.pass s.dev.cur.core) true (stall stl) s.dev.free) := by
  obtain ⟨hp, hn⟩ := hs
  refine ⟨_, State.run_of_passes hp _, ⟨rfl, rfl, rfl, rfl⟩, ?_, ?_⟩
  · intro c n l ho
    exact Dev.fibre?_advance_other hg stl true ho
  · intro f hf
    exact Dev.fibre?_advance_mem hg stl true hf ((ht f).trans (hn f hf))

/-! ## A write of a lane register -/

/-- The rule of every lane instruction that computes a lane register from what stood before (R76). -/
theorem laneResult_of_run {i : Instr} {vd lat : Nat} {stl : BitVec 2} {g : Dev → Fibre → W64} {val : Dev → Fibre → W64 → Prop}
    (hexec : ∀ s, exec i s = s.run i fun d => (d.writeV vd lat (g d)).advLane stl)
    (huse : ∃ u ∈ usesOf i, u.reg = .v vd) (hval : ∀ d f, val d f (g d f)) : LaneResult i vd val := by
  intro s hs
  obtain ⟨u, hu, hr⟩ := huse
  obtain ⟨t, hrun, honly, hothers, hfound⟩ := run_updActive_advLane hs stl
    (fun d f => f.putV vd (g d f) (d.slotOf f + lat)) (fun _ => ⟨rfl, rfl, rfl⟩) (fun _ => rfl)
  refine ⟨t, (hexec s).trans hrun, honly, hothers, fun f hf => ⟨_, hfound f hf, ?_, ⟨?_, ?_, ?_⟩, ⟨?_, ?_⟩, ?_, ?_⟩⟩
  · rw [Fibre.vreg_goOn_issued, Fibre.putV_vreg_same _ _ _ _ (Dev.passes_window hs.1 hf hu hr)]
    exact hval s.dev f
  · simp [Fibre.putV_win_length]
  · simp
  · intro n hn
    rw [Fibre.vreg_goOn_issued, Fibre.putV_vreg_other _ _ _ _ _ hn]
  · simp [Fibre.putV, landV, outstBut]
  · simp [Fibre.putV, landV, inflBut]
  · apply goOn_issued_wentOn <;> rfl
  · apply goOn_issued_keepsRest; rfl

/-! ## A write of a mask register -/

/-- The rule of every lane instruction that computes a mask register (R89, R95). -/
theorem maskResult_of_run {i : Instr} {md : BitVec 3} {lat : Nat} {stl : BitVec 2} {g : Dev → Fibre → Byte}
    {val : Dev → Fibre → Byte → Prop} (hexec : ∀ s, exec i s = s.run i fun d => (d.writeM md.toNat lat (g d)).advLane stl)
    (hval : ∀ d f, val d f (g d f)) : MaskResult i md.toNat val := by
  intro s hs
  obtain ⟨t, hrun, honly, hothers, hfound⟩ := run_updActive_advLane hs stl
    (fun d f => f.putM md.toNat (g d f) (d.slotOf f + lat)) (fun _ => by simp) (fun _ => by simp)
  refine ⟨t, (hexec s).trans hrun, honly, hothers, fun f hf => ⟨_, hfound f hf, ?_, ?_, ?_, ?_, ?_, ?_, ?_⟩⟩
  · split
    next h0 => simp [h0, Fibre.putM_zero]
    next h0 =>
      rw [Fibre.mask_goOn_issued, Fibre.putM_mask_same _ _ _ h0 md.isLt]
      exact hval s.dev f
  · intro n hn
    by_cases h0 : md.toNat = 0
    · simp [h0, Fibre.putM_zero]
    · rw [Fibre.mask_goOn_issued, Fibre.putM_mask_other _ _ _ h0 hn]
  · simp
  · simp
  · simpa [inflBut] using Fibre.putM_infl_but f md.toNat (g s.dev f) (s.dev.slotOf f + lat)
  · apply goOn_issued_wentOn <;> simp
  · apply goOn_issued_keepsRest; simp

end Sys2Proof.Stmt
end

section
/-! SUPPORT. The operations on one sub-element as exact values and as bits (R81 to R85). -/

namespace Sys2Proof.Machine

/-! ## Widths -/

/-- The four values of a type field. -/
theorem ty_cases (ty : BitVec 2) : ty.toNat = 0 ∨ ty.toNat = 1 ∨ ty.toNat = 2 ∨ ty.toNat = 3 := by
  have : ty.toNat < 4 := ty.isLt
  omega

/-- The four widths of a sub-element. -/
theorem widthOf_cases (ty : BitVec 2) : widthOf ty = 8 ∨ widthOf ty = 16 ∨ widthOf ty = 32 ∨ widthOf ty = 64 := by
  unfold widthOf
  rcases ty_cases ty with h | h | h | h <;> rw [h] <;> omega

theorem widthOf_le (ty : BitVec 2) : widthOf ty ≤ 64 := by
  rcases widthOf_cases ty with h | h | h | h <;> omega

/-! ## Exact values -/

section Exact
variable {w : Nat}

/-- A difference of exact values, cut to the width. -/
theorem ofInt_sub_toInt (a b : BitVec w) : BitVec.ofInt w (a.toInt - b.toInt) = a - b := by
  rw [Int.sub_eq_add_neg, BitVec.ofInt_add, BitVec.ofInt_neg, BitVec.ofInt_toInt, BitVec.ofInt_toInt, BitVec.sub_eq_add_neg]

/-- The lesser of two signed sub-elements. -/
theorem ite_sle_eq_ofInt_min (a b : BitVec w) : (if a.sle b then a else b) = BitVec.ofInt w (min a.toInt b.toInt) := by
  simp only [BitVec.sle_iff_toInt_le]
  split
  next h => rw [Int.min_eq_left h, BitVec.ofInt_toInt]
  next h => rw [Int.min_eq_right (by omega), BitVec.ofInt_toInt]

/-- The greater of two signed sub-elements. -/
theorem ite_sle_eq_ofInt_max (a b : BitVec w) : (if a.sle b then b else a) = BitVec.ofInt w (max a.toInt b.toInt) := by
  simp only [BitVec.sle_iff_toInt_le]
  split
  next h => rw [Int.max_eq_right h, BitVec.ofInt_toInt]
  next h => rw [Int.max_eq_left (by omega), BitVec.ofInt_toInt]

/-- A sub-element as the low bits of its unsigned value. -/
theorem ofInt_toNat (a : BitVec w) : BitVec.ofInt w (a.toNat : Int) = a := by
  rw [BitVec.ofInt_natCast, BitVec.ofNat_toNat, BitVec.setWidth_eq]

/-- The lesser of two unsigned sub-elements. -/
theorem ite_ule_eq_ofInt_min (a b : BitVec w) : (if a.ule b then a else b) = BitVec.ofInt w (min a.toNat b.toNat : Nat) := by
  simp only [BitVec.ule_iff_le, BitVec.le_def]
  split
  next h => rw [Nat.min_eq_left h, ofInt_toNat]
  next h => rw [Nat.min_eq_right (by omega), ofInt_toNat]

/-- The greater of two unsigned sub-elements. -/
theorem ite_ule_eq_ofInt_max (a b : BitVec w) : (if a.ule b then b else a) = BitVec.ofInt w (max a.toNat b.toNat : Nat) := by
  simp only [BitVec.ule_iff_le, BitVec.le_def]
  split
  next h => rw [Nat.max_eq_right h, ofInt_toNat]
  next h => rw [Nat.max_eq_left (by omega), ofInt_toNat]

/-- A saturated sum of unsigned values has no lower end. -/
theorem satN_add (x y : Nat) : satN w ((x : Int) + y) = BitVec.ofInt w (min (x + y) (2 ^ w - 1) : Nat) := by
  have h1 : (1 : Nat) ≤ 2 ^ w := Nat.one_le_two_pow
  have h2 : ((2 ^ w : Nat) : Int) = 2 ^ w := by push_cast; rfl
  unfold satN
  congr 1
  rw [← h2]
  omega

/-- A saturated difference of unsigned values has no upper end. -/
theorem satN_sub (a b : BitVec w) : satN w ((a.toNat : Int) - b.toNat) = BitVec.ofInt w (a.toNat - b.toNat : Nat) := by
  have h1 : ((2 ^ w : Nat) : Int) = 2 ^ w := by push_cast; rfl
  have ha := a.isLt
  unfold satN
  congr 1
  rw [← h1]
  omega

/-- SAD adds the exact difference (R81). -/
theorem sad_eq_ofInt (d : BitVec w) (x y : Int) : sad d x y = BitVec.ofInt w (d.toInt + (x - y).natAbs) := by
  rw [sad, BitVec.ofInt_add, BitVec.ofInt_toInt]

/-- ABS is the absolute value, cut to the width (R84). -/
theorem absE_eq_ofInt (a : BitVec w) : absE a = BitVec.ofInt w a.toInt.natAbs := by
  unfold absE
  rw [BitVec.msb_eq_toInt]
  split
  next h =>
    have h : a.toInt < 0 := by simpa using h
    rw [show (a.toInt.natAbs : Int) = -a.toInt by omega, BitVec.ofInt_neg, BitVec.ofInt_toInt]
    exact BitVec.zero_sub a
  next h =>
    have h : ¬ a.toInt < 0 := by simpa using h
    rw [show (a.toInt.natAbs : Int) = a.toInt by omega, BitVec.ofInt_toInt]

/-- The low bits of a longer word are those of its signed value. -/
theorem setWidth_eq_ofInt_toInt {v : Nat} (x : BitVec v) (h : w ≤ v) : x.setWidth w = BitVec.ofInt w x.toInt := by
  rw [← BitVec.signExtend_eq_setWidth_of_le _ h]
  rfl

/-- An immediate, sign-extended and cut to the width. -/
theorem setWidth_simm {n : Nat} (x : BitVec n) (hn : n ≤ 64) (hw : w ≤ 64) : (simm x).setWidth w = BitVec.ofInt w x.toInt := by
  rw [setWidth_eq_ofInt_toInt _ hw, simm, BitVec.toInt_signExtend_of_le hn]

end Exact

/-! ## Bits -/

section Bits
variable {w : Nat}

theorem shlE_getLsbD (a : BitVec w) (c : Nat) {i : Nat} (hi : i < w) :
    (shlE a c).getLsbD i = (decide (c < w ∧ c ≤ i) && a.getLsbD (i - c)) := by
  unfold shlE
  split
  next h =>
    rw [BitVec.getLsbD_shiftLeft]
    by_cases hc : c ≤ i
    · simp [h, hi, hc, Nat.not_lt.2 hc]
    · simp [hc, Nat.lt_of_not_le hc]
  next h => simp [h]

theorem shrE_getLsbD (a : BitVec w) (c i : Nat) : (shrE a c).getLsbD i = (decide (c < w) && a.getLsbD (i + c)) := by
  unfold shrE
  split
  next h => simp [h, Nat.add_comm]
  next h => simp [h]

theorem sarE_getLsbD (a : BitVec w) (c : Nat) {i : Nat} (hi : i < w) :
    (sarE a c).getLsbD i = if c < w ∧ i + c < w then a.getLsbD (i + c) else a.msb := by
  unfold sarE
  rw [BitVec.getLsbD_sshiftRight]
  by_cases h : c < w
  · simp [h, hi, Nat.add_comm]
  · -- a shift by w - 1 leaves copies of the sign
    have hm : a.msb = a.getLsbD (w - 1) := BitVec.msb_eq_getLsbD_last a
    by_cases h0 : i = 0
    · simp [h, h0, hm, show ¬ w = 0 by omega]
    · simp [h, hi, show ¬ w - 1 + i < w by omega]

theorem rotE_getLsbD (a : BitVec w) (c : Nat) {i : Nat} (hi : i < w) :
    (rotE a c).getLsbD i = a.getLsbD ((i + w - c % w) % w) := by
  have hr : c % w < w := Nat.mod_lt _ (by omega)
  unfold rotE
  rw [BitVec.getLsbD_rotateLeft, Nat.mod_mod]
  generalize c % w = r at hr
  by_cases h : i < r
  · rw [decide_eq_true h, cond_true, Nat.mod_eq_of_lt (by omega)]
    congr 1
    omega
  · rw [decide_eq_false h, cond_false, decide_eq_true hi, Bool.true_and, show i + w - r = i - r + w by omega, Nat.add_mod_right,
      Nat.mod_eq_of_lt (by omega)]

/-- A bit of the field that BFX extracts (R85). -/
theorem bfxE_getLsbD (a b : BitVec w) {i : Nat} (hi : i < w) :
    (bfxE a b).getLsbD i = (decide (i < (bitField b).2) && a.getLsbD ((bitField b).1 + i)) := by
  simp [bfxE, bitsOf, hi, Nat.testBit_mod_two_pow, Nat.testBit_div_two_pow, BitVec.getLsbD, Nat.add_comm]

/-- A bit of the value in which BFI replaces a field (R85). -/
theorem bfiE_getLsbD (a b d : BitVec w) {i : Nat} (hi : i < w) :
    (bfiE a b d).getLsbD i =
      if (bitField b).1 ≤ i ∧ i < (bitField b).1 + (bitField b).2 then a.getLsbD (i - (bitField b).1) else d.getLsbD i := by
  have hm : (BitVec.ofNat w ((2 ^ (bitField b).2 - 1) * 2 ^ (bitField b).1)).getLsbD i =
      decide ((bitField b).1 ≤ i ∧ i < (bitField b).1 + (bitField b).2) := by
    rw [BitVec.getLsbD_ofNat, Nat.testBit_mul_two_pow, Nat.testBit_two_pow_sub_one, decide_eq_true hi, Bool.true_and, ← Bool.decide_and]
    congr 1
    apply propext
    omega
  simp only [bfiE, BitVec.getLsbD_or, BitVec.getLsbD_and, BitVec.getLsbD_not, BitVec.getLsbD_shiftLeft, hm, hi, decide_true, Bool.true_and]
  split
  next h => simp [h, show ¬ i < (bitField b).1 by omega]
  next h => simp [h]

/-- A word whose bits are set one after the other. -/
theorem foldl_setBit_getLsbD (p : Nat → Bool) (n : Nat) {i : Nat} (hi : i < w) :
    ((List.range n).foldl (fun r k => if p k then r ||| ((1 <<< k : Nat) : BitVec w) else r) 0).getLsbD i = (decide (i < n) && p i) := by
  induction n with
  | zero => simp
  | succ n ih =>
    rw [List.range_succ, List.foldl_append, List.foldl_cons, List.foldl_nil]
    have hbit : ((1 <<< n : Nat) : BitVec w).getLsbD i = decide (i = n) := by
      rw [BitVec.natCast_eq_ofNat, BitVec.getLsbD_ofNat, Nat.one_shiftLeft, Nat.testBit_two_pow]
      simp [hi, eq_comm]
    by_cases hp : p n = true
    · rw [if_pos hp, BitVec.getLsbD_or, ih, hbit]
      by_cases h : i = n
      · simp [h, hp]
      · simp [h, show i < n + 1 ↔ i < n by omega]
    · rw [if_neg hp, ih]
      by_cases h : i = n
      · simp [h, hp]
      · simp [show i < n + 1 ↔ i < n by omega]

theorem brevE_getLsbD (a : BitVec w) {i : Nat} (hi : i < w) : (brevE a).getLsbD i = a.getLsbD (w - 1 - i) := by
  unfold brevE
  rw [foldl_setBit_getLsbD _ _ hi, BitVec.getMsbD_eq_getLsbD]
  simp [hi]

/-- Bit `j` of a comparison's mask (R89). -/
theorem maskOf_getLsbD (n : Nat) (p : Nat → Bool) (hn : n ≤ 8) (j : Nat) : (maskOf n p).getLsbD j = true ↔ j < n ∧ p j = true := by
  by_cases hj : j < 8
  · unfold maskOf
    rw [foldl_setBit_getLsbD p n hj]
    simp
  · rw [BitVec.getLsbD_of_ge _ _ (by omega)]
    simp
    omega

/-- The number of places before the first at which `p` holds, or `n`. -/
theorem find?_range_getD (p : Nat → Bool) (n : Nat) :
    ((List.range n).find? p).getD n ≤ n ∧ (∀ i < ((List.range n).find? p).getD n, p i = false) ∧
      (((List.range n).find? p).getD n < n → p (((List.range n).find? p).getD n) = true) := by
  cases h : (List.range n).find? p with
  | none =>
    have h := List.find?_range_eq_none.1 h
    refine ⟨Nat.le_refl n, fun i hi => by simpa using h i hi, fun hn => absurd hn (Nat.lt_irrefl n)⟩
  | some k =>
    obtain ⟨hp, hk, hlt⟩ := List.find?_range_eq_some.1 h
    exact ⟨Nat.le_of_lt (List.mem_range.1 hk), fun i hi => by simpa using hlt i hi, fun _ => hp⟩

/-- A count of at most the width is represented. -/
theorem toNat_ofNat_of_le {n : Nat} (h : n ≤ w) : (BitVec.ofNat w n).toNat = n :=
  (BitVec.toNat_ofNat n w).trans (Nat.mod_eq_of_lt (Nat.lt_of_le_of_lt h Nat.lt_two_pow_self))

theorem clzE_spec (a : BitVec w) : (clzE a).toNat ≤ w ∧ (∀ i < (clzE a).toNat, a.getMsbD i = false) ∧
    ((clzE a).toNat < w → a.getMsbD (clzE a).toNat = true) := by
  have h := find?_range_getD (fun i => a.getMsbD i) w
  unfold clzE
  rw [toNat_ofNat_of_le h.1]
  exact h

theorem ctzE_spec (a : BitVec w) : (ctzE a).toNat ≤ w ∧ (∀ i < (ctzE a).toNat, a.getLsbD i = false) ∧
    ((ctzE a).toNat < w → a.getLsbD (ctzE a).toNat = true) := by
  have h := find?_range_getD (fun i => a.getLsbD i) w
  unfold ctzE
  rw [toNat_ofNat_of_le h.1]
  exact h

end Bits

/-! ## Bytes and addresses (R86 to R88) -/

/-- A byte of a sub-element of 32 bits. -/
theorem extractLsb'_elem (x : W64) (j i : Nat) (hi : i < 4) : (elem 32 x j).extractLsb' (8 * i) 8 = elem 8 x (4 * j + i) := by
  apply BitVec.eq_of_getLsbD_eq
  intro k hk
  simp only [elem, BitVec.getLsbD_extractLsb', hk, show 8 * i + k < 32 by omega, decide_true, Bool.true_and]
  rw [show 32 * j + (8 * i + k) = 8 * (4 * j + i) + k by omega]

/-- DOT4 of sub-element `j` adds the four products of its bytes (R87). -/
theorem dot4_elem (rd : Byte → Int) (a b d : W64) (j : Nat) :
    dot4 rd (elem 32 a j) (elem 32 b j) (elem 32 d j) = BitVec.ofInt 32 ((elem 32 d j).toInt +
      (rd (elem 8 a (4 * j + 0)) * rd (elem 8 b (4 * j + 0)) + rd (elem 8 a (4 * j + 1)) * rd (elem 8 b (4 * j + 1)) +
       rd (elem 8 a (4 * j + 2)) * rd (elem 8 b (4 * j + 2)) + rd (elem 8 a (4 * j + 3)) * rd (elem 8 b (4 * j + 3)))) := by
  simp only [dot4, extractLsb'_elem, BitVec.ofInt_add _ _, BitVec.ofInt_toInt, show (0 : Nat) < 4 by omega, show (1 : Nat) < 4 by omega,
    show (2 : Nat) < 4 by omega, show (3 : Nat) < 4 by omega]

/-- LEA is the canonical form of the exact sum (R88). -/
theorem lea_eq (ty : BitVec 2) (a b : W64) :
    lea ty a b = (BitVec.ofInt 48 (a.toInt + if ty = 2 then (b.setWidth 32).toInt else b.toInt)).signExtend 64 := by
  have hlow (x : W64) : x.setWidth 48 = BitVec.ofInt 48 x.toInt := setWidth_eq_ofInt_toInt x (by omega)
  unfold lea
  by_cases h : ty = 2
  · simp only [h, beq_self_eq_true, if_true, BitVec.setWidth_add _ _ (show 48 ≤ 64 by omega), hlow, BitVec.ofInt_add,
      BitVec.toInt_signExtend_of_le (show 32 ≤ 64 by omega)]
  · simp only [beq_iff_eq, h, if_false, BitVec.setWidth_add _ _ (show 48 ≤ 64 by omega), hlow, BitVec.ofInt_add]

end Sys2Proof.Machine
end

section
/-! The integer lane instructions (04: R81 to R88, R90, R91). -/

namespace Sys2Proof.Stmt

open Machine

/-! ## The forms -/

/-- What an integer form writes into each sub-element. -/
theorem laneResult_intOp {i : Instr} {o : R3Op} {lat : Nat} {f : (w : Nat) → BitVec w → BitVec w → BitVec w → BitVec w}
    {val : Dev → Fibre → W64 → Prop} (hexec : ∀ s, exec i s = intOp i o lat f s)
    (huse : ∃ m l, usesOf i = Use.lane o.hv o.vd 16 m :: l)
    (hval : ∀ d x v, (∀ j < 64 / widthOf o.ty,
      elem (widthOf o.ty) v j = f _ (elem _ (ArgA d x o) j) (elem _ (ArgB d x o) j) (elem _ (ArgD d x o) j)) → val d x v) :
    LaneResult i (laneNo o.hv o.vd) val := by
  obtain ⟨m, l, huse⟩ := huse
  refine laneResult_of_run hexec ⟨_, by rw [huse]; exact List.mem_cons_self, rfl⟩ fun d x => hval d x _ fun j hj => ?_
  exact elem_perElem _ j hj

/-- An integer form whose operation is the low bits of an exact value. -/
theorem laneResult_exact {i : Instr} {o : R3Op} {lat : Nat} {f : (w : Nat) → BitVec w → BitVec w → BitVec w → BitVec w}
    {rule : (w : Nat) → (a b d : BitVec w) → Int} (hexec : ∀ s, exec i s = intOp i o lat f s)
    (huse : ∃ m l, usesOf i = Use.lane o.hv o.vd 16 m :: l) (hf : ∀ w a b d, f w a b d = BitVec.ofInt w (rule w a b d)) :
    LaneResult i (laneNo o.hv o.vd) (Exact o rule) :=
  laneResult_intOp hexec huse fun _ _ _ hv j hj => (hv j hj).trans (hf _ _ _ _)

/-- An integer form whose operation is given bit by bit. -/
theorem laneResult_bits {i : Instr} {o : R3Op} {lat : Nat} {f : (w : Nat) → BitVec w → BitVec w → BitVec w → BitVec w}
    {rule : (w : Nat) → (a b d : BitVec w) → Nat → Bool} (hexec : ∀ s, exec i s = intOp i o lat f s)
    (huse : ∃ m l, usesOf i = Use.lane o.hv o.vd 16 m :: l)
    (hf : ∀ w a b d, ∀ k < w, (f w a b d).getLsbD k = rule w a b d k) : LaneResult i (laneNo o.hv o.vd) (Bits o rule) :=
  laneResult_intOp hexec huse fun _ _ _ hv j hj k hk => by rw [hv j hj, hf _ _ _ _ k hk]

/-- What a unary form writes into each sub-element. -/
theorem laneResult_unaryOp {i : Instr} {o : UnOp} {f : (w : Nat) → BitVec w → BitVec w}
    {val : Dev → Fibre → W64 → Prop} (hexec : ∀ s, exec i s = unaryOp i o f s)
    (huse : ∃ m l, usesOf i = Use.lane o.hv o.vd 16 m :: l)
    (hval : ∀ d x v, (∀ j < 64 / widthOf o.ty,
      elem (widthOf o.ty) v j = f _ (elem _ (d.readV x (laneNo o.hv o.va)) j)) → val d x v) :
    LaneResult i (laneNo o.hv o.vd) val := by
  obtain ⟨m, l, huse⟩ := huse
  refine laneResult_of_run hexec ⟨_, by rw [huse]; exact List.mem_cons_self, rfl⟩ fun d x => hval d x _ fun j hj => ?_
  exact elem_perElem _ j hj

/-- A unary form whose operand and result stand in a relation. -/
theorem laneResult_eachU {i : Instr} {o : UnOp} {f : (w : Nat) → BitVec w → BitVec w} {rule : (w : Nat) → (a r : BitVec w) → Prop}
    (hexec : ∀ s, exec i s = unaryOp i o f s) (huse : ∃ m l, usesOf i = Use.lane o.hv o.vd 16 m :: l)
    (hf : ∀ w a, rule w a (f w a)) : LaneResult i (laneNo o.hv o.vd) (EachU o rule) :=
  laneResult_unaryOp hexec huse fun _ _ _ hv j hj => by rw [hv j hj]; exact hf _ _

/-- A unary form whose operation is given bit by bit. -/
theorem laneResult_bitsU {i : Instr} {o : UnOp} {f : (w : Nat) → BitVec w → BitVec w}
    {rule : (w : Nat) → (a : BitVec w) → Nat → Bool}
    (hexec : ∀ s, exec i s = unaryOp i o f s) (huse : ∃ m l, usesOf i = Use.lane o.hv o.vd 16 m :: l)
    (hf : ∀ w a, ∀ k < w, (f w a).getLsbD k = rule w a k) : LaneResult i (laneNo o.hv o.vd) (BitsU o rule) :=
  laneResult_unaryOp hexec huse fun _ _ _ hv j hj k hk => by rw [hv j hj, hf _ _ k hk]

/-- What an immediate form writes into each sub-element. -/
theorem laneResult_immOp {i : Instr} {stl : BitVec 2} {vd va : BitVec 6} {w : Nat} {f : BitVec w → BitVec w}
    {val : Dev → Fibre → W64 → Prop} (hexec : ∀ s, exec i s = immOp i stl vd va (fun a => perElem w fun j => f (elem w a j)) s)
    (huse : ∃ m l, usesOf i = Use.lane 0 vd 16 m :: l)
    (hval : ∀ d x v, (∀ j < 64 / w, elem w v j = f (elem w (d.readV x va.toNat) j)) → val d x v) : LaneResult i vd.toNat val := by
  obtain ⟨m, l, huse⟩ := huse
  refine laneResult_of_run hexec ⟨_, by rw [huse]; exact List.mem_cons_self, by rw [← laneNo_zero]; rfl⟩
    fun d x => hval d x _ fun j hj => ?_
  exact elem_perElem _ j hj

/-! ## The obligations -/

/-- Settles O1: each operation on a sub-element is the low bits of the exact value, or the operation on each bit. -/
theorem integerArithmeticAndLogic : Obligations.IntegerArithmeticAndLogic := by
  unfold Obligations.IntegerArithmeticAndLogic
  intro o
  refine ⟨?add, ?sub, ?mul, ?mulhiI, ?mulhiN, ?mad, ?and, ?or, ?xor, ?andn, ?minI, ?minN, ?maxI, ?maxN, ?addsatI, ?addsatN, ?subsatI,
    ?subsatN, ?avgI, ?avgN, ?sadI, ?sadN⟩
  case add => exact laneResult_exact (fun _ => exec_add) ⟨_, _, rfl⟩ fun w a b _ => by simp [BitVec.ofInt_add]
  case sub => exact laneResult_exact (fun _ => exec_sub) ⟨_, _, rfl⟩ fun w a b _ => (ofInt_sub_toInt a b).symm
  case mul => exact laneResult_exact (fun _ => exec_mul) ⟨_, _, rfl⟩ fun w a b _ => by simp [BitVec.ofInt_mul]
  case mulhiI => exact laneResult_exact (fun _ => exec_mulhiI) ⟨_, _, rfl⟩ fun w a b _ => rfl
  case mulhiN => exact laneResult_exact (fun _ => exec_mulhiN) ⟨_, _, rfl⟩ fun w a b _ => by simp [highHalf]
  case mad => exact laneResult_exact (fun _ => exec_mad) ⟨_, _, rfl⟩ fun w a b d => by simp [BitVec.ofInt_add, BitVec.ofInt_mul]
  case and => exact laneResult_bits (fun _ => exec_and) ⟨_, _, rfl⟩ fun w a b _ k _ => BitVec.getLsbD_and
  case or => exact laneResult_bits (fun _ => exec_or) ⟨_, _, rfl⟩ fun w a b _ k _ => BitVec.getLsbD_or
  case xor => exact laneResult_bits (fun _ => exec_xor) ⟨_, _, rfl⟩ fun w a b _ k _ => by simp
  case andn => exact laneResult_bits (fun _ => exec_andn) ⟨_, _, rfl⟩ fun w a b _ k hk => by simp [hk]
  case minI => exact laneResult_exact (fun _ => exec_minI) ⟨_, _, rfl⟩ fun w a b _ => ite_sle_eq_ofInt_min a b
  case minN => exact laneResult_exact (fun _ => exec_minN) ⟨_, _, rfl⟩ fun w a b _ => ite_ule_eq_ofInt_min a b
  case maxI => exact laneResult_exact (fun _ => exec_maxI) ⟨_, _, rfl⟩ fun w a b _ => ite_sle_eq_ofInt_max a b
  case maxN => exact laneResult_exact (fun _ => exec_maxN) ⟨_, _, rfl⟩ fun w a b _ => ite_ule_eq_ofInt_max a b
  case addsatI => exact laneResult_exact (fun _ => exec_addsatI) ⟨_, _, rfl⟩ fun w a b _ => rfl
  case addsatN => exact laneResult_exact (fun _ => exec_addsatN) ⟨_, _, rfl⟩ fun w a b _ => satN_add a.toNat b.toNat
  case subsatI => exact laneResult_exact (fun _ => exec_subsatI) ⟨_, _, rfl⟩ fun w a b _ => rfl
  case subsatN => exact laneResult_exact (fun _ => exec_subsatN) ⟨_, _, rfl⟩ fun w a b _ => satN_sub a b
  case avgI => exact laneResult_exact (fun _ => exec_avgI) ⟨_, _, rfl⟩ fun w a b _ => rfl
  case avgN => exact laneResult_exact (fun _ => exec_avgN) ⟨_, _, rfl⟩ fun w a b _ => by simp [avg]
  case sadI => exact laneResult_exact (fun _ => exec_sadI) ⟨_, _, rfl⟩ fun w a b d => sad_eq_ofInt d a.toInt b.toInt
  case sadN => exact laneResult_exact (fun _ => exec_sadN) ⟨_, _, rfl⟩ fun w a b d => sad_eq_ofInt d a.toNat b.toNat

/-- Settles O2: each bit of a shift or rotation, by the bits of the operation on a sub-element. -/
theorem integerShifts : Obligations.IntegerShifts := by
  unfold Obligations.IntegerShifts
  refine ⟨fun o => ⟨?shl, ?shr, ?sar, ?rot⟩, fun o hc => ⟨?shli, ?shri, ?sari, ?roti⟩⟩
  case shl => exact laneResult_bits (fun _ => exec_shl) ⟨_, _, rfl⟩ fun w a b _ k hk => shlE_getLsbD a b.toNat hk
  case shr => exact laneResult_bits (fun _ => exec_shr) ⟨_, _, rfl⟩ fun w a b _ k _ => shrE_getLsbD a b.toNat k
  case sar => exact laneResult_bits (fun _ => exec_sar) ⟨_, _, rfl⟩ fun w a b _ k hk => sarE_getLsbD a b.toNat hk
  case rot => exact laneResult_bits (fun _ => exec_rot) ⟨_, _, rfl⟩ fun w a b _ k hk => rotE_getLsbD a b.toNat hk
  case shli =>
    exact laneResult_immOp (f := fun x => shlE x o.cnt.toNat) (fun _ => exec_shli) ⟨_, _, rfl⟩ fun d f v hv j hj k hk => by
      rw [hv j hj, shlE_getLsbD _ _ hk]
      simp [hc]
  case shri =>
    exact laneResult_immOp (f := fun x => shrE x o.cnt.toNat) (fun _ => exec_shri) ⟨_, _, rfl⟩ fun d f v hv j hj k hk => by
      rw [hv j hj, shrE_getLsbD]
      simp [hc]
  case sari =>
    exact laneResult_immOp (f := fun x => sarE x o.cnt.toNat) (fun _ => exec_sari) ⟨_, _, rfl⟩ fun d f v hv j hj k hk => by
      rw [hv j hj, sarE_getLsbD _ _ hk]
      simp [hc]
  case roti =>
    exact laneResult_immOp (f := fun x => rotE x o.cnt.toNat) (fun _ => exec_roti) ⟨_, _, rfl⟩ fun d f v hv j hj k hk => by
      rw [hv j hj, rotE_getLsbD _ _ hk, Nat.mod_eq_of_lt hc]

/-- Settles O3: the unary operations, the bit fields of BFX and BFI, and the immediates. -/
theorem integerUnaryAndFields : Obligations.IntegerUnaryAndFields := by
  unfold Obligations.IntegerUnaryAndFields
  refine ⟨fun o => ⟨?neg, ?abs, ?not, ?popc, ?clz, ?ctz, ?brev⟩, fun o => ⟨?bfx, ?bfi⟩, fun o => ?addi, fun o => ?movi⟩
  case neg => exact laneResult_eachU (fun _ => exec_neg) ⟨_, _, rfl⟩ fun w a => by simp [BitVec.ofInt_neg]
  case abs => exact laneResult_eachU (fun _ => exec_abs) ⟨_, _, rfl⟩ fun w a => absE_eq_ofInt a
  case not => exact laneResult_bitsU (fun _ => exec_not) ⟨_, _, rfl⟩ fun w a k hk => by simp [hk]
  case popc => exact laneResult_eachU (fun _ => exec_popc) ⟨_, _, rfl⟩ fun w a => rfl
  case clz => exact laneResult_eachU (fun _ => exec_clz) ⟨_, _, rfl⟩ fun w a => clzE_spec a
  case ctz => exact laneResult_eachU (fun _ => exec_ctz) ⟨_, _, rfl⟩ fun w a => ctzE_spec a
  case brev => exact laneResult_bitsU (fun _ => exec_brev) ⟨_, _, rfl⟩ fun w a k hk => brevE_getLsbD a hk
  case bfx =>
    exact laneResult_bits (fun _ => exec_bfx) ⟨_, _, rfl⟩ fun w a b _ k hk => by
      rw [bfxE_getLsbD a b hk]
      simp [bitField, bitsOf]
  case bfi =>
    exact laneResult_bits (fun _ => exec_bfi) ⟨_, _, rfl⟩ fun w a b d k hk => by
      rw [bfiE_getLsbD a b d hk]
      simp [bitField, bitsOf]
  case addi =>
    have hw : widthOf o.ty ≤ 64 := widthOf_le o.ty
    exact laneResult_immOp (f := fun x => x + (simm o.imm).setWidth _) (fun _ => exec_addi) ⟨_, _, rfl⟩ fun d f v hv j hj => by
      rw [hv j hj, setWidth_simm _ (by omega) hw, BitVec.ofInt_add, BitVec.ofInt_toInt]
  case movi =>
    refine laneResult_of_run (fun _ => exec_movi) ⟨_, List.mem_cons_self, by rw [← laneNo_zero]; rfl⟩ fun d f j hj => ?_
    rw [elem_perElem _ j hj, setWidth_simm _ (by omega) (widthOf_le o.ty)]

/-- Settles O4: PERMB by bytes, DOT4 by the exact sum of four products, LEA by its exact sum, and the moves. -/
theorem integerWideAndMoves : Obligations.IntegerWideAndMoves := by
  unfold Obligations.IntegerWideAndMoves
  refine ⟨fun o => ⟨?permb, ?dot4I, ?dot4N⟩, fun o _ => ?lea, fun o => ?sel, fun o => ?movReg, fun o => ?movUniform⟩
  case permb =>
    refine laneResult_of_run (fun _ => exec_permb) ⟨_, List.mem_cons_self, rfl⟩ fun d f i hi => ?_
    exact (elem_perElem _ i hi).trans rfl
  case dot4I =>
    refine laneResult_of_run (fun _ => exec_dot4I) ⟨_, List.mem_cons_self, rfl⟩ fun d f j hj => ?_
    rw [elem_perElem _ j hj, dot4_elem]
  case dot4N =>
    refine laneResult_of_run (fun _ => exec_dot4N) ⟨_, List.mem_cons_self, rfl⟩ fun d f j hj => ?_
    rw [elem_perElem _ j hj, dot4_elem]
  case lea =>
    refine laneResult_of_run (fun _ => exec_lea) ⟨_, List.mem_cons_self, rfl⟩ fun d f => ?_
    exact lea_eq o.ty _ _
  case sel =>
    refine laneResult_of_run (fun _ => exec_sel) ⟨_, List.mem_cons_self, rfl⟩ fun d f j hj => ?_
    rw [elem_perElem _ j hj]
  case movReg => exact laneResult_of_run (fun _ => exec_movReg) ⟨_, List.mem_cons_self, rfl⟩ fun d f => rfl
  case movUniform => exact laneResult_of_run (fun _ => exec_movUniform) ⟨_, List.mem_cons_self, rfl⟩ fun d f => rfl

end Sys2Proof.Stmt
end

section
/-! SUPPORT. Floating-point codes: the magnitudes they stand for, and the rounding of an exact value to a code (R92, R101, R102). -/

namespace Sys2Proof.Stmt

open Machine

/-! ## The lane formats -/

/-- What the four lane formats have in common: at least two exponent bits and a fraction bit, an exponent range that reaches the whole
numbers of a fraction's length, values that lie well within the counts to which FSCALE cuts its exponent, and 16 bits or more. -/
structure LaneFmt (f : FFmt) : Prop where
  eb_ge : 2 ≤ f.eb
  fb_pos : 1 ≤ f.fb
  fb_lt : f.fb < 2 ^ (f.eb - 1)
  range_le : f.fb + 2 ^ f.eb ≤ 6000
  width_ge : 16 ≤ f.width

/-- The four lane formats. -/
theorem ofTy_cases (ty : BitVec 2) : (ty.toNat = 0 ∧ FFmt.ofTy ty = .bf16) ∨ (ty.toNat = 1 ∧ FFmt.ofTy ty = .f16) ∨
    (ty.toNat = 2 ∧ FFmt.ofTy ty = .f32) ∨ (ty.toNat = 3 ∧ FFmt.ofTy ty = .f64) := by
  unfold FFmt.ofTy
  rcases ty_cases ty with h | h | h | h
  · exact Or.inl ⟨h, by simp only [h]⟩
  · exact Or.inr (Or.inl ⟨h, by simp only [h]⟩)
  · exact Or.inr (Or.inr (Or.inl ⟨h, by simp only [h]⟩))
  · exact Or.inr (Or.inr (Or.inr ⟨h, by simp only [h]⟩))

theorem laneFmt_ofTy (ty : BitVec 2) : LaneFmt (FFmt.ofTy ty) := by
  rcases ofTy_cases ty with ⟨-, h⟩ | ⟨-, h⟩ | ⟨-, h⟩ | ⟨-, h⟩ <;> rw [h] <;> constructor <;> decide

theorem width_ofTy (ty : BitVec 2) : (FFmt.ofTy ty).width = fwidthOf ty := by
  unfold fwidthOf
  rcases ofTy_cases ty with ⟨ht, h⟩ | ⟨ht, h⟩ | ⟨ht, h⟩ | ⟨ht, h⟩ <;> rw [h, ht] <;> decide

theorem signBit_eq_mul (f : FFmt) : f.signBit = 2 ^ f.eb * 2 ^ f.fb := Nat.pow_add 2 f.eb f.fb

theorem two_pow_width (f : FFmt) : 2 ^ f.width = 2 * f.signBit := by
  rw [FFmt.width, FFmt.signBit, Nat.add_assoc, Nat.pow_add, Nat.pow_one]

theorem signBit_pos (f : FFmt) : 0 < f.signBit := Nat.two_pow_pos _

theorem infCode_add (f : FFmt) : f.infCode + 2 ^ f.fb = f.signBit := by
  have : 1 ≤ 2 ^ f.eb := Nat.one_le_two_pow
  rw [signBit_eq_mul, FFmt.infCode, ← Nat.succ_mul]
  congr 1
  omega

theorem infCode_lt (f : FFmt) : f.infCode < f.signBit := by
  have := infCode_add f
  have : 0 < 2 ^ f.fb := Nat.two_pow_pos _
  omega

section Format
variable {f : FFmt} (hf : LaneFmt f)
include hf

theorem LaneFmt.nan_lt : f.nan < f.signBit := by
  have h1 := infCode_add f
  have h2 : 2 ^ (f.fb - 1) < 2 ^ f.fb := Nat.pow_lt_pow_right (by omega) (by have := hf.fb_pos; omega)
  unfold FFmt.nan
  omega

/-- The smallest normal code is finite. -/
theorem LaneFmt.two_pow_fb_lt : 2 ^ f.fb < f.infCode := by
  have h : 2 ^ 2 ≤ 2 ^ f.eb := Nat.pow_le_pow_right (by omega) hf.eb_ge
  calc 2 ^ f.fb = 1 * 2 ^ f.fb := (Nat.one_mul _).symm
    _ < (2 ^ f.eb - 1) * 2 ^ f.fb := Nat.mul_lt_mul_of_pos_right (by omega) (Nat.two_pow_pos _)

theorem LaneFmt.even_two_pow_fb : 2 ^ f.fb % 2 = 0 := by
  obtain ⟨k, hk⟩ := Nat.exists_eq_add_of_le hf.fb_pos
  rw [hk, Nat.pow_add, Nat.pow_one, Nat.mul_mod_right]

theorem LaneFmt.even_infCode : f.infCode % 2 = 0 := by
  rw [FFmt.infCode, Nat.mul_mod, hf.even_two_pow_fb, Nat.mul_zero, Nat.zero_mod]

/-- The least subnormal is 2 to minus `lowest`. -/
theorem LaneFmt.emin_eq : f.emin = -(lowest f : Int) := by
  have h : 2 ≤ 2 ^ (f.eb - 1) := by
    calc 2 = 2 ^ 1 := rfl
      _ ≤ 2 ^ (f.eb - 1) := Nat.pow_le_pow_right (by omega) (by have := hf.eb_ge; omega)
  have h2 : ((2 ^ (f.eb - 1) : Nat) : Int) = 2 ^ (f.eb - 1) := by push_cast; rfl
  rw [FFmt.emin, lowest, ← h2]
  omega

end Format

/-! ## Magnitudes -/

/-- The magnitude of a code with exponent field `n` and fraction `r`. -/
theorem mag_mul_add (f : FFmt) (n : Nat) {r : Nat} (hr : r < 2 ^ f.fb) :
    mag f (n * 2 ^ f.fb + r) = if n = 0 then r else (2 ^ f.fb + r) * 2 ^ (n - 1) := by
  unfold mag
  by_cases hn : n = 0
  · rw [hn, Nat.zero_mul, Nat.zero_add, if_pos hr, if_pos rfl]
  · have h1 : 2 ^ f.fb ≤ n * 2 ^ f.fb := Nat.le_mul_of_pos_left _ (by omega)
    rw [if_neg (by omega), if_neg hn, Nat.add_comm (n * 2 ^ f.fb), Nat.add_mul_mod_self_right, Nat.mod_eq_of_lt hr,
      Nat.add_mul_div_right _ _ (Nat.two_pow_pos _), Nat.div_eq_of_lt hr, Nat.zero_add]

theorem mag_of_lt {f : FFmt} {q : Nat} (h : q < 2 ^ f.fb) : mag f q = q := if_pos h

theorem mag_zero (f : FFmt) : mag f 0 = 0 := mag_of_lt (Nat.two_pow_pos _)

/-- A significand `c` of full length, or any below it at the lowest exponent, `k` places up; also the one that follows the longest. -/
theorem mag_shift (f : FFmt) {k c : Nat} (hlo : 2 ^ f.fb ≤ c ∨ k = 0) (hhi : c ≤ 2 * 2 ^ f.fb) :
    mag f (k * 2 ^ f.fb + c) = c * 2 ^ k := by
  have hp : 0 < 2 ^ f.fb := Nat.two_pow_pos _
  by_cases h0 : c < 2 ^ f.fb
  · have hk : k = 0 := by omega
    rw [hk, Nat.zero_mul, Nat.zero_add, mag_of_lt h0, Nat.pow_zero, Nat.mul_one]
  · by_cases h1 : c < 2 * 2 ^ f.fb
    · rw [show k * 2 ^ f.fb + c = (k + 1) * 2 ^ f.fb + (c - 2 ^ f.fb) by rw [Nat.succ_mul]; omega, mag_mul_add f _ (by omega),
        if_neg (by omega), Nat.add_sub_cancel, Nat.add_sub_cancel' (by omega)]
    · have hc : c = 2 * 2 ^ f.fb := by omega
      rw [show k * 2 ^ f.fb + c = (k + 2) * 2 ^ f.fb + 0 by rw [hc, Nat.add_mul, Nat.add_zero], mag_mul_add f _ hp, if_neg (by omega), hc,
        Nat.add_zero, show k + 2 - 1 = k + 1 by omega, Nat.pow_succ, ← Nat.mul_assoc, Nat.mul_comm (2 ^ f.fb * 2 ^ k) 2, Nat.mul_assoc]

theorem mag_lt_succ (f : FFmt) (q : Nat) : mag f q < mag f (q + 1) := by
  have hp : 0 < 2 ^ f.fb := Nat.two_pow_pos _
  have hq : q = q / 2 ^ f.fb * 2 ^ f.fb + q % 2 ^ f.fb := (Nat.div_add_mod' q _).symm
  have hr : q % 2 ^ f.fb < 2 ^ f.fb := Nat.mod_lt _ hp
  generalize q / 2 ^ f.fb = n at hq
  generalize q % 2 ^ f.fb = r at hq hr
  subst hq
  have h2 : 0 < 2 ^ (n - 1) := Nat.two_pow_pos _
  by_cases hl : r + 1 < 2 ^ f.fb
  · rw [Nat.add_assoc, mag_mul_add f n hr, mag_mul_add f n hl]
    by_cases hn : n = 0
    · rw [if_pos hn, if_pos hn]; omega
    · rw [if_neg hn, if_neg hn]
      exact Nat.mul_lt_mul_of_pos_right (by omega) h2
  · -- the last fraction of an exponent is followed by the first of the next
    rw [show n * 2 ^ f.fb + r + 1 = (n + 1) * 2 ^ f.fb + 0 by rw [Nat.succ_mul]; omega, mag_mul_add f n hr, mag_mul_add f (n + 1) hp,
      if_neg (Nat.succ_ne_zero n), Nat.add_zero, Nat.add_sub_cancel]
    by_cases hn : n = 0
    · rw [if_pos hn, hn, Nat.pow_zero]; omega
    · rw [if_neg hn, show (2 : Nat) ^ n = 2 ^ (n - 1) * 2 by rw [← Nat.pow_succ]; congr 1; omega, ← Nat.mul_assoc, Nat.mul_right_comm]
      exact Nat.mul_lt_mul_of_pos_right (by omega) h2

/-- A larger code stands for a larger magnitude. -/
theorem mag_lt (f : FFmt) {p q : Nat} (h : p < q) : mag f p < mag f q := by
  induction h with
  | refl => exact mag_lt_succ f p
  | step _ ih => exact Nat.lt_trans ih (mag_lt_succ f _)

theorem mag_le (f : FFmt) {p q : Nat} (h : p ≤ q) : mag f p ≤ mag f q := by
  rcases Nat.lt_or_eq_of_le h with h | h
  · exact Nat.le_of_lt (mag_lt f h)
  · exact Nat.le_of_eq (congrArg (mag f) h)

theorem mag_lt_iff (f : FFmt) {p q : Nat} : mag f p < mag f q ↔ p < q :=
  ⟨fun h => Nat.lt_of_not_le fun hle => Nat.not_lt.2 (mag_le f hle) h, mag_lt f⟩

/-- Every magnitude whose significand fits is that of a code. -/
theorem exists_mag_eq (f : FFmt) {c : Nat} (k : Nat) (hc : c < 2 * 2 ^ f.fb) : ∃ p, mag f p = c * 2 ^ k := by
  induction k generalizing c with
  | zero => exact ⟨_, mag_shift f (k := 0) (Or.inr rfl) (Nat.le_of_lt hc)⟩
  | succ k ih =>
    by_cases h : 2 ^ f.fb ≤ c
    · exact ⟨_, mag_shift f (Or.inl h) (Nat.le_of_lt hc)⟩
    · obtain ⟨p, hp⟩ := ih (c := 2 * c) (by omega)
      exact ⟨p, by rw [hp, Nat.pow_succ', Nat.mul_comm 2 c, Nat.mul_assoc]⟩

theorem mag_infCode (f : FFmt) (h : 2 ≤ f.eb) : mag f f.infCode = 2 ^ (f.fb + (2 ^ f.eb - 2)) := by
  have h2 : 2 ^ 2 ≤ 2 ^ f.eb := Nat.pow_le_pow_right (by omega) h
  have := mag_mul_add f (2 ^ f.eb - 1) (Nat.two_pow_pos f.fb)
  rw [Nat.add_zero, Nat.add_zero, if_neg (by omega), ← Nat.pow_add] at this
  exact this

/-! ## The code to which a fraction rounds -/

/-- A rounding mode that takes magnitudes of this sign away from zero. -/
abbrev Away (rm : Nat) (neg : Bool) : Prop := (rm = 2 ∧ !neg) ∨ (rm = 3 ∧ neg)

/-- `RoundsTo` of the fraction `l / d`, in units of the least subnormal. -/
def RoundsFrac (f : FFmt) (rm : Nat) (neg : Bool) (l d q : Nat) : Prop :=
  q ≤ f.infCode ∧
  if rm = 0 then
    (q = 0 ∨ mag f (q - 1) * d + mag f q * d < 2 * l ∨ (mag f (q - 1) * d + mag f q * d = 2 * l ∧ q % 2 = 0)) ∧
    (q = f.infCode ∨ 2 * l < mag f q * d + mag f (q + 1) * d ∨ (2 * l = mag f q * d + mag f (q + 1) * d ∧ q % 2 = 0))
  else if Away rm neg then (q = 0 ∨ mag f (q - 1) * d < l) ∧ (q = f.infCode ∨ l ≤ mag f q * d)
  else q < f.infCode ∧ mag f q * d ≤ l ∧ (q + 1 = f.infCode ∨ l < mag f (q + 1) * d)

theorem roundsTo_iff_frac (f : FFmt) (rm : Nat) (neg : Bool) (x : Nat) (e : Int) (q : Nat) :
    RoundsTo f rm neg x e q ↔ RoundsFrac f rm neg (x * 2 ^ e.toNat) (2 ^ (-e).toNat) q := Iff.rfl

/-- A common factor of the fraction plays no part. -/
theorem roundsFrac_mul {f : FFmt} {rm : Nat} {neg : Bool} {l d q c : Nat} (hc : 0 < c) :
    RoundsFrac f rm neg (l * c) (d * c) q ↔ RoundsFrac f rm neg l d q := by
  simp only [RoundsFrac, ← Nat.mul_assoc, ← Nat.add_mul, Nat.mul_lt_mul_right hc, Nat.mul_le_mul_right_iff hc,
    Nat.mul_left_inj (Nat.ne_of_gt hc)]

/-- Equal fractions round to the same codes. -/
theorem roundsFrac_congr {f : FFmt} {rm : Nat} {neg : Bool} {l d l' d' q : Nat} (hd : 0 < d) (hd' : 0 < d') (h : l * d' = l' * d) :
    RoundsFrac f rm neg l d q ↔ RoundsFrac f rm neg l' d' q := by
  rw [← roundsFrac_mul hd', h, Nat.mul_comm d d', roundsFrac_mul hd]

/-- Whether a value `l` with the neighbours `a` (number `t`) and `b` above it goes to `b`. -/
def goesUp (rm : Nat) (neg : Bool) (t a b l : Nat) : Bool :=
  if rm = 0 then decide (a + b < 2 * l ∨ (a + b = 2 * l ∧ t % 2 = 1)) else decide (Away rm neg ∧ a ≠ l)

theorem goesUp_mul (rm : Nat) (neg : Bool) (t a b l : Nat) {c : Nat} (hc : 0 < c) :
    goesUp rm neg t (a * c) (b * c) (l * c) = goesUp rm neg t a b l := by
  simp only [goesUp, ← Nat.mul_assoc, ← Nat.add_mul, Nat.mul_lt_mul_right hc, Nat.mul_left_inj (Nat.ne_of_gt hc), ne_eq]

/-- The code given for a magnitude code that may lie past the largest finite one (R92). -/
def clipped (f : FFmt) (rm : Nat) (neg : Bool) (c : Nat) : Nat :=
  if c < f.infCode then c else if rm = 0 ∨ Away rm neg then f.infCode else f.infCode - 1

/-- The rounding of a fraction between the magnitudes of two neighbouring codes. -/
theorem roundsFrac_clipped {f : FFmt} (hf : LaneFmt f) (rm : Nat) (neg : Bool) {l d t : Nat} (hd : 0 < d) (hlo : mag f t * d ≤ l)
    (hhi : l < mag f (t + 1) * d) :
    RoundsFrac f rm neg l d (clipped f rm neg (if goesUp rm neg t (mag f t * d) (mag f (t + 1) * d) l then t + 1 else t)) := by
  have hmono {p q : Nat} (h : p < q) : mag f p * d < mag f q * d := Nat.mul_lt_mul_of_pos_right (mag_lt f h) hd
  have heven := hf.even_infCode
  have hinf : 0 < f.infCode := Nat.lt_trans (Nat.two_pow_pos _) hf.two_pow_fb_lt
  have hlast := hmono (show f.infCode - 1 < f.infCode by omega)
  by_cases hover : f.infCode ≤ t
  · -- past the largest finite code
    have hle : mag f f.infCode * d ≤ mag f t * d := Nat.mul_le_mul_right d (mag_le f hover)
    have hc : ¬ (if goesUp rm neg t (mag f t * d) (mag f (t + 1) * d) l then t + 1 else t) < f.infCode := by split <;> omega
    rw [clipped, if_neg hc]
    unfold RoundsFrac
    by_cases h0 : rm = 0
    · rw [if_pos (Or.inl h0), if_pos h0]
      exact ⟨Nat.le_refl _, Or.inr (Or.inl (by omega)), Or.inl rfl⟩
    · by_cases hup : Away rm neg
      · rw [if_pos (Or.inr hup), if_neg h0, if_pos hup]
        exact ⟨Nat.le_refl _, Or.inr (by omega), Or.inl rfl⟩
      · rw [if_neg (by simp only [h0, hup]; simp), if_neg h0, if_neg hup]
        exact ⟨by omega, by omega, by omega, Or.inl (by omega)⟩
  · have hbelow : t = 0 ∨ mag f (t - 1) * d < mag f t * d := by
      by_cases h : t = 0
      · exact Or.inl h
      · exact Or.inr (hmono (by omega))
    have habove := hmono (show t + 1 < t + 1 + 1 by omega)
    unfold RoundsFrac clipped goesUp
    by_cases h0 : rm = 0
    · simp only [h0, true_or, if_true]
      split
      next hup =>
        have hup := of_decide_eq_true hup
        rw [show (if t + 1 < f.infCode then t + 1 else f.infCode) = t + 1 by split <;> omega, Nat.add_sub_cancel]
        refine ⟨by omega, Or.inr (by omega), Or.inr (Or.inl (by omega))⟩
      next hup =>
        have hup : ¬ _ := fun h => hup (decide_eq_true h)
        rw [if_pos (by omega)]
        refine ⟨by omega, by omega, Or.inr (by omega)⟩
    · by_cases haway : Away rm neg
      · simp only [h0, haway, if_false, if_true, true_and, or_true]
        split
        next hup =>
          have hup := of_decide_eq_true hup
          rw [show (if t + 1 < f.infCode then t + 1 else f.infCode) = t + 1 by split <;> omega, Nat.add_sub_cancel]
          exact ⟨by omega, Or.inr (by omega), Or.inr (by omega)⟩
        next hup =>
          have hup : ¬ _ := fun h => hup (decide_eq_true h)
          rw [if_pos (by omega)]
          exact ⟨by omega, by omega, Or.inr (by omega)⟩
      · simp only [h0, haway, if_false, false_and, decide_false, Bool.false_eq_true]
        rw [if_pos (by omega)]
        exact ⟨by omega, by omega, hlo, Or.inr hhi⟩

/-- A magnitude that a finite code has rounds to that code alone. -/
theorem eq_of_roundsFrac_mag {f : FFmt} {rm : Nat} {neg : Bool} {d p q : Nat} (hd : 0 < d) (hp : p < f.infCode)
    (h : RoundsFrac f rm neg (mag f p * d) d q) : q = p := by
  have hmono {a b : Nat} (h : a < b) : mag f a * d < mag f b * d := Nat.mul_lt_mul_of_pos_right (mag_lt f h) hd
  have hmono' {a b : Nat} (h : a ≤ b) : mag f a * d ≤ mag f b * d := Nat.mul_le_mul_right d (mag_le f h)
  obtain ⟨_, h⟩ := h
  rcases Nat.lt_trichotomy q p with hlt | heq | hgt
  · have h1 := hmono hlt
    have h2 := hmono' (show q + 1 ≤ p from hlt)
    split at h
    · omega
    · split at h <;> omega
  · exact heq
  · have h1 := hmono hgt
    have h2 := hmono' (show p ≤ q - 1 by omega)
    split at h
    · omega
    · split at h <;> omega

/-- A magnitude past every finite one overflows (R92). -/
theorem roundsFrac_overflow {f : FFmt} {rm : Nat} {neg : Bool} {l d q : Nat} (hd : 0 < d) (hinf : 0 < f.infCode)
    (h : mag f f.infCode * d ≤ l) :
    RoundsFrac f rm neg l d q ↔ q = if rm = 0 ∨ Away rm neg then f.infCode else f.infCode - 1 := by
  have hmono {a b : Nat} (h : a < b) : mag f a * d < mag f b * d := Nat.mul_lt_mul_of_pos_right (mag_lt f h) hd
  have hmono' {a b : Nat} (h : a ≤ b) : mag f a * d ≤ mag f b * d := Nat.mul_le_mul_right d (mag_le f h)
  have h1 := hmono (show f.infCode - 1 < f.infCode by omega)
  unfold RoundsFrac
  by_cases h0 : rm = 0
  · rw [if_pos h0, if_pos (Or.inl h0)]
    constructor
    · rintro ⟨hq, -, hr⟩
      refine Classical.byContradiction fun hne => ?_
      have h2 := hmono (show q < f.infCode by omega)
      have h3 := hmono' (show q + 1 ≤ f.infCode by omega)
      omega
    · rintro rfl
      exact ⟨Nat.le_refl _, Or.inr (Or.inl (by omega)), Or.inl rfl⟩
  · by_cases haway : Away rm neg
    · rw [if_neg h0, if_pos haway, if_pos (Or.inr haway)]
      constructor
      · rintro ⟨hq, -, hr⟩
        refine Classical.byContradiction fun hne => ?_
        have h2 := hmono (show q < f.infCode by omega)
        omega
      · rintro rfl
        exact ⟨Nat.le_refl _, Or.inr (by omega), Or.inl rfl⟩
    · rw [if_neg h0, if_neg haway, if_neg (by simp only [h0, haway]; simp)]
      constructor
      · rintro ⟨hq, hlt, -, hr⟩
        refine Classical.byContradiction fun hne => ?_
        have h3 := hmono' (show q + 1 ≤ f.infCode by omega)
        omega
      · rintro rfl
        exact ⟨by omega, by omega, by omega, Or.inl (by omega)⟩

/-- A nonzero magnitude below half the least subnormal goes to zero or, away from zero, to the least subnormal (R92). -/
theorem roundsFrac_underflow {f : FFmt} {rm : Nat} {neg : Bool} {l d q : Nat} (hf : LaneFmt f) (h0 : 0 < l) (h1 : 2 * l < d) :
    RoundsFrac f rm neg l d q ↔ q = if rm ≠ 0 ∧ Away rm neg then 1 else 0 := by
  have hmono {a b : Nat} (h : a < b) : mag f a * d < mag f b * d := Nat.mul_lt_mul_of_pos_right (mag_lt f h) (by omega)
  have hmono' {a b : Nat} (h : a ≤ b) : mag f a * d ≤ mag f b * d := Nat.mul_le_mul_right d (mag_le f h)
  have hz : mag f 0 * d = 0 := by rw [mag_zero, Nat.zero_mul]
  have hfb : 2 ^ 1 ≤ 2 ^ f.fb := Nat.pow_le_pow_right (by omega) hf.fb_pos
  have hone : mag f 1 * d = d := by rw [mag_of_lt (by omega), Nat.one_mul]
  have hz' : mag f (1 - 1) * d = 0 := hz
  have hone' : mag f (0 + 1) * d = d := hone
  have hinf := hf.two_pow_fb_lt
  have key (hq : 2 ≤ q) : d ≤ mag f (q - 1) * d := Nat.le_trans (Nat.le_of_eq hone.symm) (hmono' (show 1 ≤ q - 1 by omega))
  have key' (hq : 1 ≤ q) : d ≤ mag f q * d := Nat.le_trans (Nat.le_of_eq hone.symm) (hmono' hq)
  unfold RoundsFrac
  by_cases hrm : rm = 0
  · rw [if_pos hrm, if_neg (by simp [hrm])]
    constructor
    · rintro ⟨hq, hl, -⟩
      refine Classical.byContradiction fun hne => ?_
      have := key' (by omega)
      omega
    · rintro rfl
      exact ⟨by omega, Or.inl rfl, Or.inr (Or.inl (by omega))⟩
  · by_cases haway : Away rm neg
    · rw [if_neg hrm, if_pos haway, if_pos ⟨hrm, haway⟩]
      constructor
      · rintro ⟨hq, hl, hr⟩
        refine Classical.byContradiction fun hne => ?_
        rcases Nat.eq_zero_or_pos q with h | h
        · subst h; omega
        · have := key (by omega)
          omega
      · rintro rfl
        exact ⟨by omega, Or.inr (by omega), Or.inr (by omega)⟩
    · rw [if_neg hrm, if_neg haway, if_neg (fun h => haway h.2)]
      constructor
      · rintro ⟨hq, hlt, hl, -⟩
        refine Classical.byContradiction fun hne => ?_
        have := key' (by omega)
        omega
      · rintro rfl
        exact ⟨by omega, by omega, by omega, Or.inr (by omega)⟩

end Sys2Proof.Stmt
end

section
/-! SUPPORT. What the machine's floating-point operations read from codes, and the code each result is given (R92, R102). -/

namespace Sys2Proof.Stmt

open Machine

/-! ## Cutting a magnitude to a multiple of a power of two -/

/-- `roundsUp` in terms of the multiple's two neighbours. -/
theorem roundsUp_eq_goesUp {rm : Nat} (hrm : rm < 4) (neg : Bool) {t r s : Nat} :
    roundsUp rm neg (t % 2 == 1) r s = goesUp rm neg t (t * 2 ^ s) ((t + 1) * 2 ^ s) (t * 2 ^ s + r) := by
  have h1 : (t + 1) * 2 ^ s = t * 2 ^ s + 2 ^ s := Nat.succ_mul _ _
  rw [Bool.eq_iff_iff, h1]
  unfold roundsUp goesUp
  obtain rfl | rfl | rfl | rfl : rm = 0 ∨ rm = 1 ∨ rm = 2 ∨ rm = 3 := by omega
  · simp only [Bool.or_eq_true, decide_eq_true_eq, Bool.and_eq_true, beq_iff_eq, if_true]
    omega
  · simp [Away]
  · cases neg <;> simp [Away]
  · cases neg <;> simp [Away]

/-- The multiple to which a magnitude is cut: `l / s` is the magnitude as a multiple of 2 to the `q`, with `l / s` its whole part. -/
theorem cutTo_eq {rm : Nat} (hrm : rm < 4) (neg : Bool) {m l s : Nat} {e q : Int} (hl : l = m * 2 ^ (e - q).toNat)
    (hs : s = 2 ^ (q - e).toNat) :
    cutTo rm neg m e q = if goesUp rm neg (l / s) (l / s * s) ((l / s + 1) * s) l then l / s + 1 else l / s := by
  unfold cutTo
  split
  next h =>
    -- the magnitude is a whole multiple
    rw [show (q - e).toNat = 0 by omega, Nat.pow_zero] at hs
    subst hs
    rw [Nat.div_one, Nat.mul_one, Nat.mul_one, if_neg, hl]
    simp only [goesUp]
    split <;> simp
    omega
  next h =>
    rw [show (e - q).toNat = 0 by omega, Nat.pow_zero, Nat.mul_one] at hl
    subst hl hs
    simp only [roundsUp_eq_goesUp hrm, Nat.div_add_mod']

/-- A common factor plays no part in rounding to a whole number. -/
theorem whole_mul {rm : Nat} {neg : Bool} {u d n c : Nat} (hc : 0 < c) : Whole rm neg (u * c) (d * c) n ↔ Whole rm neg u d n := by
  simp only [Whole, ← Nat.mul_assoc, ← Nat.add_mul, Nat.mul_lt_mul_right hc, Nat.mul_le_mul_right_iff hc,
    Nat.mul_left_inj (Nat.ne_of_gt hc)]

/-- A fraction rounded to a whole number by its neighbours. -/
theorem whole_goesUp (rm : Nat) (neg : Bool) (l : Nat) {s : Nat} (hs : 0 < s) :
    Whole rm neg l s (if goesUp rm neg (l / s) (l / s * s) ((l / s + 1) * s) l then l / s + 1 else l / s) := by
  have hlo : l / s * s ≤ l := Nat.div_mul_le_self l s
  have hhi : l < l / s * s + s := Nat.lt_div_mul_add hs
  generalize l / s = t at hlo hhi
  have h1 : (t + 1) * s = t * s + s := Nat.succ_mul t s
  have h2 : (t + 1 + 1) * s = t * s + s + s := by rw [Nat.succ_mul, h1]
  have h3 (k : Nat) : (2 * k + 1) * s = 2 * (k * s) + s := by rw [Nat.succ_mul, Nat.mul_assoc]
  have h4 (k : Nat) : 2 * k * s = 2 * (k * s) := Nat.mul_assoc 2 k s
  unfold Whole goesUp
  by_cases h0 : rm = 0
  · simp only [h0, if_true, h3, h4]
    split
    next h =>
      have h := of_decide_eq_true h
      omega
    next h =>
      have h : ¬ _ := fun k => h (decide_eq_true k)
      omega
  · by_cases haway : Away rm neg
    · simp only [h0, if_false, haway, if_true, true_and]
      split
      next h =>
        have h := of_decide_eq_true h
        omega
      next h =>
        have h : ¬ _ := fun k => h (decide_eq_true k)
        omega
    · simp only [h0, haway, if_false, false_and, decide_false, Bool.false_eq_true]
      omega

/-- A magnitude cut to a whole number (R97): `u / d` is the magnitude. -/
theorem whole_cutTo {rm : Nat} (hrm : rm < 4) (neg : Bool) (m : Nat) (e : Int) {u d : Nat} (hd : 0 < d)
    (h : u * 2 ^ (-e).toNat = m * 2 ^ e.toNat * d) : Whole rm neg u d (cutTo rm neg m e 0) := by
  have hs : 0 < 2 ^ (-e).toNat := Nat.two_pow_pos _
  rw [cutTo_eq hrm neg (l := m * 2 ^ e.toNat) (s := 2 ^ (-e).toNat) (by rw [Int.sub_zero]) (by rw [Int.zero_sub]), ← whole_mul hs, h,
    Nat.mul_comm d, whole_mul hd]
  exact whole_goesUp rm neg _ hs

/-! ## The code of a rounded value -/

/-- A value between two neighbouring multiples of 2^k units, with the lower one `t` in the range of a significand, lies between the
magnitudes of neighbouring codes and rounds to the one of them to which the multiple rounds. -/
theorem roundsFrac_of_multiple {f : FFmt} (hf : LaneFmt f) (rm : Nat) (neg : Bool) {l s k : Nat} (hs : 0 < s)
    (hlo : 2 ^ f.fb ≤ l / s ∨ k = 0) (hhi : l / s < 2 * 2 ^ f.fb) :
    RoundsFrac f rm neg (l * 2 ^ k) s (clipped f rm neg (k * 2 ^ f.fb +
      if goesUp rm neg (l / s) (l / s * s) ((l / s + 1) * s) l then l / s + 1 else l / s)) := by
  have h1 : l / s * s ≤ l := Nat.div_mul_le_self l s
  have h2 : l < l / s * s + s := Nat.lt_div_mul_add hs
  generalize l / s = t at hlo hhi h1 h2
  have hk : 0 < 2 ^ k := Nat.two_pow_pos k
  have hm : mag f (k * 2 ^ f.fb + t) * s = t * s * 2 ^ k := by rw [mag_shift f hlo (Nat.le_of_lt hhi), Nat.mul_right_comm]
  have hm1 : mag f (k * 2 ^ f.fb + t + 1) * s = (t + 1) * s * 2 ^ k := by
    rw [Nat.add_assoc, mag_shift f (by omega) (by omega), Nat.mul_right_comm]
  have hup : goesUp rm neg (k * 2 ^ f.fb + t) (mag f (k * 2 ^ f.fb + t) * s) (mag f (k * 2 ^ f.fb + t + 1) * s) (l * 2 ^ k) =
      goesUp rm neg t (t * s) ((t + 1) * s) l := by
    rw [hm, hm1, ← goesUp_mul rm neg t (t * s) ((t + 1) * s) l hk]
    have hpar : (k * 2 ^ f.fb + t) % 2 = t % 2 := by rw [Nat.add_mod, Nat.mul_mod, hf.even_two_pow_fb]; simp
    simp only [goesUp, hpar]
  have := roundsFrac_clipped hf rm neg hs (l := l * 2 ^ k) (t := k * 2 ^ f.fb + t) (by rw [hm]; exact Nat.mul_le_mul_right _ h1)
    (by rw [hm1, Nat.succ_mul]; exact Nat.mul_lt_mul_of_pos_right h2 hk)
  rw [hup] at this
  have hadd : k * 2 ^ f.fb + (if goesUp rm neg t (t * s) ((t + 1) * s) l then t + 1 else t) =
      if goesUp rm neg t (t * s) ((t + 1) * s) l then k * 2 ^ f.fb + t + 1 else k * 2 ^ f.fb + t := by split <;> rfl
  rw [hadd]
  exact this

/-- The magnitude code of `FFmt.round`. -/
def roundMag (f : FFmt) (rm : Nat) (neg : Bool) (m : Nat) (e : Int) : Nat :=
  let q := max f.emin (e + m.log2 - f.fb)
  clipped f rm neg ((q - f.emin).toNat * 2 ^ f.fb + cutTo rm neg m e q)

theorem round_eq (f : FFmt) {rm : Nat} (neg : Bool) {m : Nat} (hm : m ≠ 0) (e : Int) :
    f.round rm neg m e = (if neg then f.signBit else 0) + roundMag f rm neg m e := by
  unfold FFmt.round roundMag clipped
  simp only [beq_iff_eq, hm, if_false]
  split
  · rfl
  · congr 2
    simp [or_assoc, Away]

theorem round_zero (f : FFmt) (rm : Nat) (neg : Bool) (e : Int) : f.round rm neg 0 e = if neg then f.signBit else 0 := rfl

/-- The one rounding of R92: `x` units times 2^E, given as `m` times 2^e, goes to the code that `RoundsTo` names. -/
theorem roundMag_roundsTo {f : FFmt} (hf : LaneFmt f) {rm : Nat} (hrm : rm < 4) (neg : Bool) {m x j : Nat} {e E : Int} (hm : m ≠ 0)
    (he : e = f.emin + E + j) (hx : x = m * 2 ^ j) : RoundsTo f rm neg x E (roundMag f rm neg m e) := by
  unfold roundMag
  simp only
  generalize hq : max f.emin (e + m.log2 - f.fb) = q
  obtain ⟨k, hk⟩ : ∃ k : Nat, q = f.emin + k := ⟨(q - f.emin).toNat, by omega⟩
  rw [show (q - f.emin).toNat = k by omega, cutTo_eq hrm neg rfl rfl]
  have hs : 0 < 2 ^ (q - e).toNat := Nat.two_pow_pos _
  have hlog := Nat.log2_self_le hm
  have hlog' := Nat.lt_log2_self (n := m)
  -- the fraction in units is that of the multiples of 2^q
  rw [roundsTo_iff_frac, roundsFrac_congr (Nat.two_pow_pos _) hs (l' := m * 2 ^ (e - q).toNat * 2 ^ k)]
  · apply roundsFrac_of_multiple hf rm neg hs
    · by_cases hsub : k = 0
      · exact Or.inr hsub
      · left
        rw [Nat.le_div_iff_mul_le hs, ← Nat.pow_add]
        calc 2 ^ (f.fb + (q - e).toNat) = 2 ^ (m.log2 + (e - q).toNat) := by congr 1; omega
          _ = 2 ^ m.log2 * 2 ^ (e - q).toNat := Nat.pow_add _ _ _
          _ ≤ m * 2 ^ (e - q).toNat := Nat.mul_le_mul_right _ hlog
    · rw [Nat.div_lt_iff_lt_mul hs, ← Nat.pow_succ', ← Nat.pow_add]
      calc m * 2 ^ (e - q).toNat < 2 ^ (m.log2 + 1) * 2 ^ (e - q).toNat := Nat.mul_lt_mul_of_pos_right hlog' (Nat.two_pow_pos _)
        _ = 2 ^ (m.log2 + 1 + (e - q).toNat) := (Nat.pow_add _ _ _).symm
        _ ≤ 2 ^ (f.fb + 1 + (q - e).toNat) := Nat.pow_le_pow_right (by omega) (by omega)
  · rw [hx, Nat.mul_assoc m, Nat.mul_assoc m, Nat.mul_assoc m, Nat.mul_assoc m, ← Nat.pow_add, ← Nat.pow_add, ← Nat.pow_add, ← Nat.pow_add]
    congr 2
    omega

theorem clipped_le (f : FFmt) (rm : Nat) (neg : Bool) (c : Nat) : clipped f rm neg c ≤ f.infCode := by
  unfold clipped
  split
  · omega
  · split <;> omega

theorem round_lt (f : FFmt) (rm : Nat) (neg : Bool) (m : Nat) (e : Int) : f.round rm neg m e < 2 * f.signBit := by
  have hinf := infCode_lt f
  have hsg : (if neg then f.signBit else 0) ≤ f.signBit := by split <;> omega
  by_cases hm : m = 0
  · rw [hm, round_zero]
    omega
  · have := clipped_le f rm neg ((max f.emin (e + m.log2 - f.fb) - f.emin).toNat * 2 ^ f.fb +
      cutTo rm neg m e (max f.emin (e + m.log2 - f.fb)))
    rw [round_eq f neg hm, roundMag]
    omega

/-! ## Sign and magnitude of a code -/

/-- A code is its sign bit and its magnitude. -/
theorem code_split {f : FFmt} {c : Nat} (hc : c < 2 * f.signBit) :
    (if IsNeg f c then f.signBit else 0) + c % f.signBit = c := by
  have hd := Nat.div_add_mod c f.signBit
  have hlt : c / f.signBit < 2 := by rwa [Nat.div_lt_iff_lt_mul (signBit_pos f)]
  unfold IsNeg
  generalize c / f.signBit = k at hd hlt
  obtain rfl | rfl : k = 0 ∨ k = 1 := by omega
  · simpa using hd
  · simpa using hd

/-- The magnitude of a code of sign `neg` and magnitude `q`. -/
theorem signed_mod {f : FFmt} (neg : Prop) [Decidable neg] {q : Nat} (hq : q < f.signBit) :
    ((if neg then f.signBit else 0) + q) % f.signBit = q := by
  split
  · rw [Nat.add_mod_left, Nat.mod_eq_of_lt hq]
  · rw [Nat.zero_add, Nat.mod_eq_of_lt hq]

/-- The sign of a code of sign `neg` and magnitude `q`. -/
theorem signed_isNeg {f : FFmt} (neg : Prop) [Decidable neg] {q : Nat} (hq : q < f.signBit) :
    IsNeg f ((if neg then f.signBit else 0) + q) ↔ neg := by
  have hp := signBit_pos f
  unfold IsNeg
  split
  next h => simp [h, Nat.add_div_left q hp, Nat.div_eq_of_lt hq]
  next h => simp [h, Nat.div_eq_of_lt hq]

/-! ## FTZ -/

theorem flush_eq_flushed (f : FFmt) (z : Bool) (c : Nat) : f.flush z c = flushed f z c := by
  have h : (z && f.isSub c) = true ↔ z = true ∧ 0 < c % f.signBit ∧ c % f.signBit < 2 ^ f.fb := by
    simp [FFmt.isSub, Nat.pos_iff_ne_zero, and_comm]
  unfold FFmt.flush flushed
  by_cases hs : z = true ∧ 0 < c % f.signBit ∧ c % f.signBit < 2 ^ f.fb
  · rw [if_pos hs, if_pos (h.2 hs)]
  · rw [if_neg hs, if_neg fun k => hs (h.1 k)]

theorem flushed_le (f : FFmt) (z : Bool) (c : Nat) : flushed f z c ≤ c := by
  unfold flushed
  split
  · exact Nat.div_mul_le_self c f.signBit
  · exact Nat.le_refl c

/-- A code that is no subnormal is not flushed. -/
theorem flushed_of_not_sub {f : FFmt} (z : Bool) {c : Nat} (h : c % f.signBit = 0 ∨ 2 ^ f.fb ≤ c % f.signBit) : flushed f z c = c := by
  unfold flushed
  rw [if_neg]
  omega

/-- Flushing twice is flushing once. -/
theorem flushed_flushed (f : FFmt) (z : Bool) (c : Nat) : flushed f z (flushed f z c) = flushed f z c := by
  by_cases h : z ∧ 0 < c % f.signBit ∧ c % f.signBit < 2 ^ f.fb
  · apply flushed_of_not_sub
    left
    rw [flushed, if_pos h, Nat.mul_mod_left]
  · have : flushed f z c = c := by rw [flushed, if_neg h]
    rw [this, this]

/-! ## Reading a code -/

theorem read_of_isNaN {f : FFmt} {z : Bool} {c : Nat} (h : IsNaN f (flushed f z c)) : f.read z c = .nan := by
  simp only [FFmt.read, flush_eq_flushed]
  exact if_pos h

theorem read_of_isInf {f : FFmt} {z : Bool} {c : Nat} (h : IsInf f (flushed f z c)) :
    f.read z c = .inf (decide (IsNeg f (flushed f z c))) := by
  simp only [FFmt.read, flush_eq_flushed]
  rw [if_neg (by omega), if_pos (by simpa using h)]
  rfl

/-- A finite code is read as its sign and a number of units: `m` times 2^j, with `m` no longer than a significand. -/
theorem read_of_isFin {f : FFmt} {z : Bool} {c : Nat} (h : IsFin f (flushed f z c)) :
    ∃ m j : Nat, f.read z c = .fin (decide (IsNeg f (flushed f z c))) m (f.emin + j) ∧
      mag f (flushed f z c % f.signBit) = m * 2 ^ j ∧ m < 2 * 2 ^ f.fb := by
  have hp : 0 < 2 ^ f.fb := Nat.two_pow_pos _
  simp only [FFmt.read, flush_eq_flushed]
  generalize flushed f z c = a at h
  have hr : a % f.signBit % 2 ^ f.fb < 2 ^ f.fb := Nat.mod_lt _ hp
  have hm := mag_mul_add f (a % f.signBit / 2 ^ f.fb) hr
  rw [Nat.div_add_mod'] at hm
  rw [if_neg (by omega), if_neg (by simpa using Nat.ne_of_lt h)]
  by_cases h0 : a % f.signBit / 2 ^ f.fb = 0
  · have hlt : a % f.signBit < 2 ^ f.fb := (Nat.div_eq_zero_iff_lt hp).1 h0
    refine ⟨a % f.signBit, 0, ?_, by rw [mag_of_lt hlt, Nat.pow_zero, Nat.mul_one], by omega⟩
    rw [if_pos (by simpa using h0)]
    simp
    rfl
  · refine ⟨2 ^ f.fb + a % f.signBit % 2 ^ f.fb, a % f.signBit / 2 ^ f.fb - 1, ?_, by rw [hm, if_neg h0],
      by rw [Nat.two_mul]; exact Nat.add_lt_add_left hr _⟩
    rw [if_neg (by simpa using h0), show f.emin + ((a % f.signBit / 2 ^ f.fb : Nat) : Int) - 1 =
      f.emin + ((a % f.signBit / 2 ^ f.fb - 1 : Nat) : Int) by
        have := Nat.pos_of_ne_zero h0
        omega]
    rfl

/-- Only zeros have the magnitude 0. -/
theorem mag_eq_zero_iff {f : FFmt} {q : Nat} : mag f q = 0 ↔ q = 0 := by
  constructor
  · intro h
    rcases Nat.eq_zero_or_pos q with h0 | h0
    · exact h0
    · have := mag_lt f h0
      omega
  · rintro rfl
    exact mag_zero f

/-! ## The code of a result -/

theorem write_fin (f : FFmt) (rm : Nat) (z neg : Bool) (m : Nat) (e : Int) :
    f.write rm z (.fin neg m e) = flushed f z (f.round rm neg m e) := by rw [FFmt.write, flush_eq_flushed]

/-- A zero result keeps its sign. -/
theorem write_zero (f : FFmt) (rm : Nat) (z neg : Bool) (e : Int) : f.write rm z (.fin neg 0 e) = if neg then f.signBit else 0 := by
  rw [write_fin, round_zero, flushed_of_not_sub]
  left
  simpa using signed_mod (f := f) (neg = true) (signBit_pos f)

/-- A nonzero result is rounded once and flushed. -/
theorem write_rounded {f : FFmt} (hf : LaneFmt f) {rm : Nat} (hrm : rm < 4) (z : Bool) {x : Int} (hx : x ≠ 0) {m j : Nat} {e E : Int}
    (he : e = f.emin + E + j) (hm : x.natAbs = m * 2 ^ j) : Rounded f rm z x E (f.write rm z (.fin (decide (x < 0)) m e)) := by
  have h0 : m ≠ 0 := by
    rintro rfl
    rw [Nat.zero_mul] at hm
    omega
  refine ⟨_, roundMag_roundsTo hf hrm (decide (x < 0)) h0 he hm, ?_⟩
  rw [write_fin, round_eq f _ h0]
  simp

/-- A result that a finite code has as its value is that code. -/
theorem write_exact {f : FFmt} (hf : LaneFmt f) {rm : Nat} (hrm : rm < 4) (z neg : Bool) {p m j : Nat} (hp : p < f.infCode)
    (hm : mag f p = m * 2 ^ j) : f.write rm z (.fin neg m (f.emin + j)) = flushed f z ((if neg then f.signBit else 0) + p) := by
  by_cases h0 : m = 0
  · subst h0
    rw [Nat.zero_mul, mag_eq_zero_iff] at hm
    rw [write_fin, round_zero, hm, Nat.add_zero]
  · have h := roundMag_roundsTo hf hrm neg (E := 0) h0 (by rw [Int.add_zero]) hm
    rw [roundsTo_iff_frac, Int.toNat_zero, Int.neg_zero, Int.toNat_zero, Nat.pow_zero] at h
    rw [write_fin, round_eq f neg h0, eq_of_roundsFrac_mag Nat.one_pos hp h]

theorem write_lt {f : FFmt} (hf : LaneFmt f) (rm : Nat) (z : Bool) (v : FVal) : f.write rm z v < 2 * f.signBit := by
  have hinf := infCode_lt f
  cases v with
  | nan =>
    have := hf.nan_lt
    rw [FFmt.write]
    omega
  | inf s =>
    rw [FFmt.write]
    split <;> omega
  | fin s m e =>
    rw [write_fin]
    exact Nat.lt_of_le_of_lt (flushed_le f z _) (round_lt f rm s m e)

/-- An infinity is written as the code it was read from. -/
theorem write_inf {f : FFmt} (rm : Nat) (z : Bool) {c : Nat} (hc : c < 2 * f.signBit) (h : IsInf f c) :
    f.write rm z (.inf (decide (IsNeg f c))) = c := by
  have := code_split hc
  rw [h] at this
  simpa [FFmt.write] using this

/-- A code that is no NaN is written back, flushed, as it was read. -/
theorem write_read {f : FFmt} (hf : LaneFmt f) {rm : Nat} (hrm : rm < 4) {z : Bool} {c : Nat} (hc : c < 2 * f.signBit)
    (h : ¬IsNaN f (flushed f z c)) : f.write rm z (f.read z c) = flushed f z c := by
  have hlt : flushed f z c < 2 * f.signBit := Nat.lt_of_le_of_lt (flushed_le f z c) hc
  by_cases hi : IsInf f (flushed f z c)
  · rw [read_of_isInf hi, write_inf rm z hlt hi]
  · have hfin : IsFin f (flushed f z c) := by omega
    obtain ⟨m, j, hr, hm, -⟩ := read_of_isFin hfin
    rw [hr, write_exact hf hrm z _ hfin hm]
    simp only [decide_eq_true_eq]
    rw [code_split hlt, flushed_flushed]

end Sys2Proof.Stmt
end

section
/-! Sums, products and fused products of codes (R92, R93). -/

namespace Sys2Proof.Stmt

open Machine

/-! ## Signed magnitudes -/

/-- The whole number of a sign and a magnitude. -/
def signed (s : Bool) (n : Nat) : Int := if s then -(n : Int) else n

theorem scaled_eq_signed (s : Bool) (m : Nat) (e q : Int) : FVal.scaled s m e q = signed s (m * 2 ^ (e - q).toNat) := rfl

theorem units_eq_signed (f : FFmt) (c : Nat) : units f c = signed (decide (IsNeg f c)) (mag f (c % f.signBit)) := by
  by_cases h : IsNeg f c <;> simp [units, signed, h]

theorem signed_mul_natCast (s : Bool) (n k : Nat) : signed s n * (k : Int) = signed s (n * k) := by
  cases s
  · exact (Int.natCast_mul n k).symm
  · simp only [signed, if_true, Int.natCast_mul, Int.neg_mul]

theorem signed_mul_signed (s t : Bool) (m n : Nat) : signed s m * signed t n = signed (s != t) (m * n) := by
  cases s <;> cases t <;> simp only [signed, bne_self_eq_false, Bool.bne_true, Bool.bne_false, Bool.not_false,
    Bool.false_eq_true, if_true, if_false, Int.natCast_mul, Int.neg_mul, Int.mul_neg, Int.neg_neg]

theorem natAbs_signed (s : Bool) (n : Nat) : (signed s n).natAbs = n := by cases s <;> simp [signed]

theorem signed_eq_zero {s : Bool} {n : Nat} : signed s n = 0 ↔ n = 0 := by cases s <;> simp [signed]

theorem signed_neg_iff {s : Bool} {n : Nat} (h : n ≠ 0) : signed s n < 0 ↔ s = true := by
  cases s <;> simp [signed]
  omega

/-! ## The exact sum and the exact product -/

/-- A sum of two finite values, each a number of units times 2^E, is the exact sum rounded once; a sum of zero takes the sign that R92
names. -/
theorem write_add_fin {f : FFmt} (hf : LaneFmt f) {rm : Nat} (hrm : rm < 4) (z zneg s t : Bool) {m n i j : Nat} {e g E x : Int}
    (he : e = f.emin + E + i) (hg : g = f.emin + E + j) (hx : x = signed s (m * 2 ^ i) + signed t (n * 2 ^ j)) :
    (x ≠ 0 → Rounded f rm z x E (f.write rm z (.add zneg (.fin s m e) (.fin t n g)))) ∧
    (x = 0 → f.write rm z (.add zneg (.fin s m e) (.fin t n g)) =
      if (if m = 0 ∧ n = 0 ∧ s = t then s else zneg) then f.signBit else 0) := by
  -- the sum as the machine forms it, a multiple of the lesser of the two powers of two
  generalize hy : FVal.scaled s m e (min e g) + FVal.scaled t n g (min e g) = y
  obtain ⟨k, hk⟩ : ∃ k : Nat, k = min i j := ⟨_, rfl⟩
  have hp : (0 : Int) < (2 ^ k : Nat) := by exact_mod_cast Nat.two_pow_pos k
  have hxy : x = y * (2 ^ k : Nat) := by
    rw [hx, ← hy, scaled_eq_signed, scaled_eq_signed, Int.add_mul, signed_mul_natCast, signed_mul_natCast, Nat.mul_assoc, Nat.mul_assoc,
      ← Nat.pow_add, ← Nat.pow_add]
    rw [show (e - min e g).toNat + k = i by omega, show (g - min e g).toNat + k = j by omega]
  have hq : min e g = f.emin + E + k := by omega
  constructor
  · intro h0
    have hy0 : y ≠ 0 := by rintro rfl; exact h0 (by rw [hxy, Int.zero_mul])
    have hneg : (y < 0) = (x < 0) := by
      rw [hxy]
      exact propext ⟨fun h => Int.mul_neg_of_neg_of_pos h hp, fun h => Int.not_le.1 fun hn =>
        Int.not_lt.2 (Int.mul_nonneg hn (Int.le_of_lt hp)) h⟩
    simp only [FVal.add, hy, beq_iff_eq, hy0, if_false, hneg]
    exact write_rounded hf hrm z h0 hq (by rw [hxy, Int.natAbs_mul, Int.natAbs_natCast])
  · intro h0
    have hy0 : y = 0 := by
      rw [hxy] at h0
      exact (Int.mul_eq_zero.1 h0).resolve_right (by omega)
    simp only [FVal.add, hy, hy0, beq_self_eq_true, if_true, write_zero]
    simp [and_assoc]

theorem add_nan_right (zneg : Bool) (v : FVal) : FVal.add zneg v .nan = .nan := by cases v <;> rfl

theorem mul_nan_right (v : FVal) : FVal.mul v .nan = .nan := by cases v <;> rfl

/-! ## Codes -/

/-- A zero code is its sign. -/
theorem code_of_isZero {f : FFmt} {a : Nat} (ha : a < 2 * f.signBit) (h : IsZero f a) : (if IsNeg f a then f.signBit else 0) = a := by
  have := code_split ha
  rwa [h, Nat.add_zero] at this

theorem mul_two_pow_eq_zero {m j : Nat} : m * 2 ^ j = 0 ↔ m = 0 := by
  rw [Nat.mul_eq_zero]
  exact ⟨fun h => h.resolve_right (Nat.ne_of_gt (Nat.two_pow_pos j)), Or.inl⟩

/-- A finite code is a zero where its significand is 0. -/
theorem isZero_iff_significand {f : FFmt} {a m j : Nat} (h : mag f (a % f.signBit) = m * 2 ^ j) : IsZero f a ↔ m = 0 := by
  rw [IsZero, ← mag_eq_zero_iff (f := f), h, mul_two_pow_eq_zero]

section Codes
variable {f : FFmt} (hf : LaneFmt f) {rm : Nat} (hrm : rm < 4) (z : Bool) {a b c : Nat}
  (ha : a < 2 * f.signBit) (hb : b < 2 * f.signBit) (hc : c < 2 * f.signBit)
include hf hrm

include ha hb in
/-- The sum of two codes (R93). -/
theorem sum_addC : Sum f rm z a b (f.addC rm z a b) := by
  have ha' : flushed f z a < 2 * f.signBit := Nat.lt_of_le_of_lt (flushed_le f z a) ha
  have hb' : flushed f z b < 2 * f.signBit := Nat.lt_of_le_of_lt (flushed_le f z b) hb
  unfold Sum FFmt.addC
  refine ⟨?nan, ?infA, ?infB, ?fin⟩
  case nan =>
    rintro (h | h | ⟨h1, h2, h3⟩)
    · rw [read_of_isNaN h]
      rfl
    · rw [read_of_isNaN h, add_nan_right]
      rfl
    · rw [read_of_isInf h1, read_of_isInf h2, FVal.add, if_neg (by simpa using h3)]
      rfl
  case infA =>
    intro h1 h2 h3
    rw [read_of_isInf h1]
    by_cases hi : IsInf f (flushed f z b)
    · rw [read_of_isInf hi, FVal.add, if_pos (by simpa using h3 hi), write_inf rm z ha' h1]
    · obtain ⟨n, j, hr, -, -⟩ := read_of_isFin (z := z) (c := b) (f := f) (by omega)
      rw [hr, FVal.add, write_inf rm z ha' h1]
  case infB =>
    intro h1 h2
    obtain ⟨m, i, hr, -, -⟩ := read_of_isFin h1
    rw [hr, read_of_isInf h2, FVal.add, write_inf rm z hb' h2]
  case fin =>
    intro h1 h2
    obtain ⟨m, i, hra, hma, -⟩ := read_of_isFin h1
    obtain ⟨n, j, hrb, hmb, -⟩ := read_of_isFin h2
    have h := write_add_fin hf hrm z (rm == 3) (decide (IsNeg f (flushed f z a))) (decide (IsNeg f (flushed f z b))) (m := m) (n := n)
      (E := 0) (i := i) (j := j) (by rw [Int.add_zero]) (by rw [Int.add_zero]) rfl
    rw [← hma, ← hmb, ← units_eq_signed, ← units_eq_signed, ← hra, ← hrb] at h
    obtain ⟨hne, heq⟩ := h
    have hm0 : IsZero f (flushed f z a) ↔ m = 0 := isZero_iff_significand hma
    have hn0 : IsZero f (flushed f z b) ↔ n = 0 := isZero_iff_significand hmb
    refine ⟨hne, fun h0 hza hzb hs => ?_, fun h0 hs => ?_⟩
    · rw [heq h0, if_pos (c := m = 0 ∧ _) ⟨hm0.1 hza, hn0.1 hzb, decide_eq_decide.2 hs⟩]
      simpa using code_of_isZero ha' hza
    · rw [heq h0, if_neg (c := m = 0 ∧ _) (by rw [← hm0, ← hn0, decide_eq_decide]; exact hs)]
      simp

end Codes

/-! ## The exact product of two codes -/

/-- The sign bit of a product. -/
theorem sign_mul (f : FFmt) (a b : Nat) : (if (decide (IsNeg f a) != decide (IsNeg f b)) = true then f.signBit else 0) =
    if a / f.signBit % 2 = b / f.signBit % 2 then 0 else f.signBit := by
  have h1 : a / f.signBit % 2 < 2 := Nat.mod_lt _ (by omega)
  have h2 : b / f.signBit % 2 < 2 := Nat.mod_lt _ (by omega)
  unfold IsNeg
  generalize a / f.signBit % 2 = s at h1
  generalize b / f.signBit % 2 = t at h2
  obtain rfl | rfl : s = 0 ∨ s = 1 := by omega
  all_goals
    obtain rfl | rfl : t = 0 ∨ t = 1 := by omega
    all_goals simp

section Product
variable {f : FFmt} {z : Bool} {a b : Nat}

/-- A product with no value (R92). -/
theorem mul_read_nan (h : IsNaN f (flushed f z a) ∨ IsNaN f (flushed f z b) ∨ (IsInf f (flushed f z a) ∧ IsZero f (flushed f z b)) ∨
    (IsZero f (flushed f z a) ∧ IsInf f (flushed f z b))) (hinf : 0 < f.infCode) : FVal.mul (f.read z a) (f.read z b) = .nan := by
  rcases h with h | h | ⟨hi, h0⟩ | ⟨h0, hi⟩
  · rw [read_of_isNaN h]
    rfl
  · rw [read_of_isNaN h, mul_nan_right]
  · obtain ⟨n, j, hr, hn, -⟩ := read_of_isFin (show IsFin f (flushed f z b) by omega)
    rw [read_of_isInf hi, hr, (isZero_iff_significand hn).1 h0]
    rfl
  · obtain ⟨n, j, hr, hn, -⟩ := read_of_isFin (show IsFin f (flushed f z a) by omega)
    rw [read_of_isInf hi, hr, (isZero_iff_significand hn).1 h0]
    rfl

/-- A product of an infinity and a number other than zero. -/
theorem mul_read_inf (h : (IsInf f (flushed f z a) ∧ ¬IsNaN f (flushed f z b) ∧ ¬IsZero f (flushed f z b)) ∨
    (IsInf f (flushed f z b) ∧ ¬IsNaN f (flushed f z a) ∧ ¬IsZero f (flushed f z a))) :
    FVal.mul (f.read z a) (f.read z b) = .inf (decide (IsNeg f (flushed f z a)) != decide (IsNeg f (flushed f z b))) := by
  by_cases hia : IsInf f (flushed f z a)
  · by_cases hib : IsInf f (flushed f z b)
    · rw [read_of_isInf hia, read_of_isInf hib, FVal.mul]
    · obtain ⟨n, j, hr, hn, -⟩ := read_of_isFin (show IsFin f (flushed f z b) by omega)
      have h0 : n ≠ 0 := mt (isZero_iff_significand hn).2 (by omega)
      rw [read_of_isInf hia, hr, FVal.mul, if_neg (by simpa using h0)]
  · have hib : IsInf f (flushed f z b) := by omega
    obtain ⟨m, i, hr, hm, -⟩ := read_of_isFin (show IsFin f (flushed f z a) by omega)
    have h0 : m ≠ 0 := mt (isZero_iff_significand hm).2 (by omega)
    rw [read_of_isInf hib, hr, FVal.mul, if_neg (by simpa using h0)]

/-- A product of two finite codes is exact: a number `m` times 2^j of units times the least subnormal. -/
theorem mul_read_fin (ha : IsFin f (flushed f z a)) (hb : IsFin f (flushed f z b)) : ∃ m j : Nat,
    FVal.mul (f.read z a) (f.read z b) =
      .fin (decide (IsNeg f (flushed f z a)) != decide (IsNeg f (flushed f z b))) m (f.emin + f.emin + j) ∧
    units f (flushed f z a) * units f (flushed f z b) =
      signed (decide (IsNeg f (flushed f z a)) != decide (IsNeg f (flushed f z b))) (m * 2 ^ j) ∧
    (m = 0 ↔ IsZero f (flushed f z a) ∨ IsZero f (flushed f z b)) := by
  obtain ⟨m, i, hra, hma, -⟩ := read_of_isFin ha
  obtain ⟨n, j, hrb, hmb, -⟩ := read_of_isFin hb
  refine ⟨m * n, i + j, ?_, ?_, ?_⟩
  · rw [hra, hrb, FVal.mul]
    congr 1
    push_cast
    omega
  · rw [units_eq_signed, units_eq_signed, signed_mul_signed, hma, hmb]
    congr 1
    rw [Nat.pow_add]
    exact Nat.mul_mul_mul_comm m (2 ^ i) n (2 ^ j)
  · rw [isZero_iff_significand hma, isZero_iff_significand hmb, Nat.mul_eq_zero]

end Product

section Codes
variable {f : FFmt} (hf : LaneFmt f) {rm : Nat} (hrm : rm < 4) (z : Bool) (a b c : Nat)
include hf hrm

/-- The product of two codes (R93). -/
theorem product_mulC : Product f rm z a b (f.mulC rm z a b) := by
  have hinf : 0 < f.infCode := Nat.lt_trans (Nat.two_pow_pos _) hf.two_pow_fb_lt
  unfold Product FFmt.mulC
  refine ⟨?nan, ?infA, ?infB, ?fin⟩
  case nan =>
    intro h
    rw [mul_read_nan h hinf]
    rfl
  case infA =>
    intro h1 h2 h3
    rw [mul_read_inf (Or.inl ⟨h1, h2, h3⟩), FFmt.write, sign_mul]
  case infB =>
    intro h1 h2 h3
    rw [mul_read_inf (Or.inr ⟨h1, h2, h3⟩), FFmt.write, sign_mul]
  case fin =>
    intro h1 h2
    obtain ⟨m, j, hr, hu, h0⟩ := mul_read_fin h1 h2
    rw [hr, hu]
    constructor
    · intro h
      rw [h0.2 h, write_zero, sign_mul]
    · intro hza hzb
      have hm : m ≠ 0 := fun h => (h0.1 h).elim hza hzb
      have hm' : m * 2 ^ j ≠ 0 := mt mul_two_pow_eq_zero.1 hm
      have := write_rounded hf hrm z (x := signed (decide (IsNeg f (flushed f z a)) != decide (IsNeg f (flushed f z b))) (m * 2 ^ j))
        (mt signed_eq_zero.1 hm') (E := -(lowest f : Int)) (e := f.emin + f.emin + j) (m := m) (j := j)
        (by rw [hf.emin_eq]) (natAbs_signed _ _)
      simpa only [signed_neg_iff hm', Bool.decide_eq_true] using this

variable (hc : c < 2 * f.signBit)
include hc

/-- The fused product and sum of three codes (R93). -/
theorem fused_fmaC : Fused f rm z a b c (f.write rm z (.add (rm == 3) (.mul (f.read z a) (f.read z b)) (f.read z c))) := by
  have hinf : 0 < f.infCode := Nat.lt_trans (Nat.two_pow_pos _) hf.two_pow_fb_lt
  have hc' : flushed f z c < 2 * f.signBit := Nat.lt_of_le_of_lt (flushed_le f z c) hc
  -- an addend of the product's magnitude is the product's code just where the signs are equal
  have hsame {q : Nat} (hq : q < f.signBit) (hi : flushed f z c % f.signBit = q) : decide (IsNeg f (flushed f z c)) =
      (decide (IsNeg f (flushed f z a)) != decide (IsNeg f (flushed f z b))) ↔ flushed f z c =
      (if flushed f z a / f.signBit % 2 = flushed f z b / f.signBit % 2 then 0 else f.signBit) + q := by
    rw [← sign_mul]
    constructor
    · intro h
      rw [← h]
      simpa [hi] using (code_split hc').symm
    · intro h
      rw [h, Bool.eq_iff_iff, decide_eq_true_eq, signed_isNeg _ hq]
  unfold Fused
  refine ⟨?nan, ?inf, ?infC, ?fin⟩
  case nan =>
    have hprod (h : IsNaN f (flushed f z a) ∨ IsNaN f (flushed f z b) ∨ (IsInf f (flushed f z a) ∧ IsZero f (flushed f z b)) ∨
        (IsZero f (flushed f z a) ∧ IsInf f (flushed f z b))) :
        f.write rm z (.add (rm == 3) (.mul (f.read z a) (f.read z b)) (f.read z c)) = f.nan := by
      rw [mul_read_nan h hinf]
      rfl
    rintro (h | h | h | h | h | ⟨h1, h2, h3⟩)
    · exact hprod (Or.inl h)
    · exact hprod (Or.inr (Or.inl h))
    · rw [read_of_isNaN h, add_nan_right]
      rfl
    · exact hprod (Or.inr (Or.inr (Or.inl h)))
    · exact hprod (Or.inr (Or.inr (Or.inr h)))
    · by_cases h : IsNaN f (flushed f z a) ∨ IsNaN f (flushed f z b) ∨ (IsInf f (flushed f z a) ∧ IsZero f (flushed f z b)) ∨
        (IsZero f (flushed f z a) ∧ IsInf f (flushed f z b))
      · exact hprod h
      · rw [mul_read_inf (by omega), read_of_isInf h2, FVal.add, if_neg]
        · rfl
        · rw [beq_iff_eq, eq_comm, hsame (infCode_lt f) h2]
          exact h3
  case inf =>
    intro h1 h2 h3 h4 h5
    rw [mul_read_inf (by omega)]
    by_cases hi : IsInf f (flushed f z c)
    · rw [read_of_isInf hi, (hsame (infCode_lt f) hi).2 (h5 hi), FVal.add, if_pos (beq_self_eq_true _), FFmt.write, sign_mul]
    · obtain ⟨n, j, hr, -, -⟩ := read_of_isFin (show IsFin f (flushed f z c) by omega)
      rw [hr, FVal.add, FFmt.write, sign_mul]
  case infC =>
    intro h1 h2 h3
    obtain ⟨m, j, hr, -, -⟩ := mul_read_fin h1 h2
    rw [hr, read_of_isInf h3, FVal.add, write_inf rm z hc' h3]
  case fin =>
    intro h1 h2 h3
    obtain ⟨m, i, hr, hu, h0⟩ := mul_read_fin h1 h2
    obtain ⟨n, j, hrc, hmc, -⟩ := read_of_isFin h3
    have hn0 := isZero_iff_significand hmc
    have huc : units f (flushed f z c) * 2 ^ lowest f = signed (decide (IsNeg f (flushed f z c))) (n * 2 ^ (j + lowest f)) := by
      rw [units_eq_signed, hmc, Nat.pow_add, ← Nat.mul_assoc, ← signed_mul_natCast _ (n * 2 ^ j)]
      push_cast
      rfl
    obtain ⟨hne, heq⟩ := write_add_fin hf hrm z (rm == 3) (decide (IsNeg f (flushed f z a)) != decide (IsNeg f (flushed f z b)))
      (decide (IsNeg f (flushed f z c))) (m := m) (n := n) (e := f.emin + f.emin + i) (g := f.emin + j) (E := -(lowest f : Int)) (i := i)
      (j := j + lowest f) (x := units f (flushed f z a) * units f (flushed f z b) + units f (flushed f z c) * 2 ^ lowest f)
      (by rw [hf.emin_eq]) (by push_cast; omega) (by rw [hu, huc])
    rw [← hr, ← hrc] at hne heq
    refine ⟨hne, fun hx => ?_⟩
    rw [heq hx]
    by_cases hz : m = 0 ∧ n = 0
    · -- both addends are zeros: the sum has their sign where it is one
      obtain ⟨hm, hn⟩ := hz
      have hsg := hsame (signBit_pos f) (hn0.2 hn)
      rw [Nat.add_zero] at hsg
      by_cases hs : decide (IsNeg f (flushed f z c)) = (decide (IsNeg f (flushed f z a)) != decide (IsNeg f (flushed f z b)))
      · rw [if_pos (c := m = 0 ∧ _) ⟨hm, hn, hs.symm⟩, if_pos (c := (_ ∨ _) ∧ _) ⟨h0.1 hm, hn0.2 hn, hsg.1 hs⟩, sign_mul]
      · rw [if_neg (c := m = 0 ∧ _) fun h => hs h.2.2.symm, if_neg (c := (_ ∨ _) ∧ _) fun h => hs (hsg.2 h.2.2)]
        simp
    · rw [if_neg (c := m = 0 ∧ _) fun h => hz ⟨h.1, h.2.1⟩, if_neg (c := (_ ∨ _) ∧ _) fun h => hz ⟨h0.2 h.1, hn0.1 h.2.1⟩]
      simp

end Codes

end Sys2Proof.Stmt
end

section
/-! The forms of the floating-point lane instructions, and their sums and products (04: R92, R93). -/

namespace Sys2Proof.Stmt

open Machine

/-! ## The forms -/

theorem rm_eq_rmOf (f : Fibre) : f.rm = rmOf f := by simp [Fibre.rm, rmOf, bitsOf]

theorem rmOf_lt (f : Fibre) : rmOf f < 4 := Nat.mod_lt _ (by omega)

/-- A sub-element is a code of its format. -/
theorem toNat_elem_lt (ty : BitVec 2) (x : W64) (j : Nat) : (elem (fwidthOf ty) x j).toNat < 2 * (FFmt.ofTy ty).signBit := by
  rw [← two_pow_width, width_ofTy]
  exact BitVec.isLt _

/-- A code in a sub-element of its format. -/
theorem toNat_ofNat_code (ty : BitVec 2) {r : Nat} (h : r < 2 * (FFmt.ofTy ty).signBit) : (BitVec.ofNat (fwidthOf ty) r).toNat = r := by
  rw [← two_pow_width, width_ofTy] at h
  rw [BitVec.toNat_ofNat, Nat.mod_eq_of_lt h]

/-- A float form gives in each sub-element the code its operation computes. -/
theorem laneResult_floats {i : Instr} {o : R3Op} {g : FFmt → Rm → Bool → Nat → Nat → Nat → Nat}
    {rule : FFmt → Nat → Bool → (a b d r : Nat) → Prop} (hexec : ∀ s, exec i s = floatOp i o g s)
    (huse : ∃ m l, usesOf i = Use.lane o.hv o.vd 16 m :: l)
    (hg : ∀ f rm z a b d, LaneFmt f → rm < 4 → a < 2 * f.signBit → b < 2 * f.signBit → d < 2 * f.signBit →
      g f rm z a b d < 2 * f.signBit ∧ rule f rm z a b d (g f rm z a b d)) :
    LaneResult i (laneNo o.hv o.vd) (Floats o rule) := by
  obtain ⟨m, l, huse⟩ := huse
  refine laneResult_of_run hexec ⟨_, by rw [huse]; exact List.mem_cons_self, rfl⟩ fun d x j hj => ?_
  obtain ⟨hlt, hrule⟩ := hg (FFmt.ofTy o.ty) (rmOf x) (ftzOf x) _ _ _ (laneFmt_ofTy o.ty) (rmOf_lt x)
    (toNat_elem_lt o.ty (ArgA d x o) j) (toNat_elem_lt o.ty (ArgB d x o) j) (toNat_elem_lt o.ty (ArgD d x o) j)
  rw [elem_perElem _ j hj, rm_eq_rmOf]
  exact (toNat_ofNat_code o.ty hlt).symm ▸ hrule

/-- A unary float form gives in each sub-element the code its operation computes. -/
theorem laneResult_floatsU {i : Instr} {o : UnOp} {g : FFmt → Rm → Bool → Nat → Nat} {rule : FFmt → Nat → Bool → (a r : Nat) → Prop}
    (hexec : ∀ s, exec i s = floatUn i o g s) (huse : ∃ m l, usesOf i = Use.lane o.hv o.vd 16 m :: l)
    (hg : ∀ f rm z a, LaneFmt f → rm < 4 → a < 2 * f.signBit → g f rm z a < 2 * f.signBit ∧ rule f rm z a (g f rm z a)) :
    LaneResult i (laneNo o.hv o.vd) (FloatsU o rule) := by
  obtain ⟨m, l, huse⟩ := huse
  refine laneResult_of_run hexec ⟨_, by rw [huse]; exact List.mem_cons_self, rfl⟩ fun d x j hj => ?_
  obtain ⟨hlt, hrule⟩ := hg (FFmt.ofTy o.ty) (rmOf x) (ftzOf x) _ (laneFmt_ofTy o.ty) (rmOf_lt x)
    (toNat_elem_lt o.ty (d.readV x (laneNo o.hv o.va)) j)
  rw [elem_perElem _ j hj, rm_eq_rmOf]
  exact (toNat_ofNat_code o.ty hlt).symm ▸ hrule

/-! ## The opposite code -/

/-- The code with its sign inverted has the magnitude of the code. -/
theorem opposite_eq {f : FFmt} {c : Nat} (hc : c < 2 * f.signBit) :
    opposite f c = (if ¬IsNeg f c then f.signBit else 0) + c % f.signBit := by
  have h := code_split hc
  unfold opposite
  by_cases hn : IsNeg f c
  · rw [if_pos hn] at h
    rw [if_pos hn, if_neg (by simpa using hn)]
    omega
  · rw [if_neg hn] at h
    rw [if_neg hn, if_pos hn]
    omega

section Opposite
variable {f : FFmt} {c : Nat} (hc : c < 2 * f.signBit)
include hc

theorem opposite_lt : opposite f c < 2 * f.signBit := by
  have := Nat.mod_lt c (signBit_pos f)
  rw [opposite_eq hc]
  split <;> omega

theorem opposite_mod : opposite f c % f.signBit = c % f.signBit := by
  rw [opposite_eq hc, signed_mod _ (Nat.mod_lt _ (signBit_pos f))]

theorem opposite_isNeg : IsNeg f (opposite f c) ↔ ¬IsNeg f c := by
  rw [opposite_eq hc, signed_isNeg _ (Nat.mod_lt _ (signBit_pos f))]

end Opposite

/-- The magnitude of a flushed code. -/
theorem flushed_mod (f : FFmt) (z : Bool) (c : Nat) : flushed f z c % f.signBit =
    if z ∧ 0 < c % f.signBit ∧ c % f.signBit < 2 ^ f.fb then 0 else c % f.signBit := by
  unfold flushed
  split
  · exact Nat.mul_mod_left _ _
  · rfl

/-- Flushing keeps the sign. -/
theorem flushed_isNeg (f : FFmt) (z : Bool) (c : Nat) : IsNeg f (flushed f z c) ↔ IsNeg f c := by
  unfold flushed IsNeg
  split
  · rw [Nat.mul_div_cancel _ (signBit_pos f)]
  · rfl

/-- The opposite code is read as the opposite value. -/
theorem read_opposite {f : FFmt} (z : Bool) {c : Nat} (hc : c < 2 * f.signBit) : f.read z (opposite f c) = (f.read z c).neg := by
  have hmod : flushed f z (opposite f c) % f.signBit = flushed f z c % f.signBit := by
    rw [flushed_mod, flushed_mod, opposite_mod hc]
  have hneg : (flushed f z (opposite f c) / f.signBit % 2 == 1) = !(flushed f z c / f.signBit % 2 == 1) := by
    have h : IsNeg f (flushed f z (opposite f c)) ↔ ¬IsNeg f (flushed f z c) := by
      rw [flushed_isNeg, flushed_isNeg, opposite_isNeg hc]
    rw [Bool.eq_iff_iff, beq_iff_eq, Bool.not_eq_true', beq_eq_false_iff_ne]
    exact h
  simp only [FFmt.read, flush_eq_flushed, hmod, hneg]
  split
  · rfl
  · split
    · rfl
    · split <;> rfl

/-- Settles O6: each sum, product and fused product is the exact value of its operands' codes, rounded once. -/
theorem floatArithmetic : Obligations.FloatArithmetic := by
  unfold Obligations.FloatArithmetic
  intro o
  refine ⟨?fadd, ?fsub, ?fmul, ?fma, ?fms⟩
  case fadd =>
    exact laneResult_floats (fun _ => exec_fadd) ⟨_, _, rfl⟩ fun f rm z a b _ hf hrm ha hb _ =>
      ⟨write_lt hf rm z _, sum_addC hf hrm z ha hb⟩
  case fsub =>
    exact laneResult_floats (fun _ => exec_fsub) ⟨_, _, rfl⟩ fun f rm z a b _ hf hrm ha hb _ =>
      ⟨write_lt hf rm z _, by rw [← read_opposite z hb]; exact sum_addC hf hrm z ha (opposite_lt hb)⟩
  case fmul =>
    exact laneResult_floats (fun _ => exec_fmul) ⟨_, _, rfl⟩ fun f rm z a b _ hf hrm _ _ _ =>
      ⟨write_lt hf rm z _, product_mulC hf hrm z a b⟩
  case fma =>
    exact laneResult_floats (fun _ => exec_fma) ⟨_, _, rfl⟩ fun f rm z a b d hf hrm _ _ hd =>
      ⟨write_lt hf rm z _, fused_fmaC hf hrm z a b d hd⟩
  case fms =>
    exact laneResult_floats (fun _ => exec_fms) ⟨_, _, rfl⟩ fun f rm z a b d hf hrm _ _ hd =>
      ⟨write_lt hf rm z _, by
        have := fused_fmaC hf hrm z a b _ (opposite_lt hd)
        rwa [read_opposite z hd] at this⟩

end Sys2Proof.Stmt
end

section
/-! Comparison of integer and floating-point sub-elements, and minimum and maximum (04: R89, R94, R95). -/

namespace Sys2Proof.Stmt

open Machine

/-! ## The order of codes -/

theorem place_eq_signed (f : FFmt) (c : Nat) : place f c = signed (decide (IsNeg f c)) (c % f.signBit) := by
  by_cases h : IsNeg f c <;> simp [place, signed, h]

/-- Signed magnitudes stand in the order of their codes. -/
theorem signed_mag_lt_iff (f : FFmt) (s t : Bool) (p q : Nat) : signed s (mag f p) < signed t (mag f q) ↔ signed s p < signed t q := by
  have hlt := mag_lt_iff f (p := p) (q := q)
  have hgt := mag_lt_iff f (p := q) (q := p)
  have hp := mag_eq_zero_iff (f := f) (q := p)
  have hq := mag_eq_zero_iff (f := f) (q := q)
  cases s <;> cases t <;> simp only [signed, Bool.false_eq_true, if_true, if_false] <;> omega

/-- Below the greater of two magnitudes, its sign decides. -/
theorem decide_signed_lt_of_lt {p q : Nat} (h : p < q) (s t : Bool) : decide (signed s p < signed t q) = !t := by
  cases s <;> cases t <;> simp only [signed, Bool.false_eq_true, if_true, if_false, Bool.not_true, Bool.not_false, decide_eq_true_eq,
    decide_eq_false_iff_not] <;> omega

/-- Above the lesser of two magnitudes, the sign of the greater decides. -/
theorem decide_signed_lt_of_gt {p q : Nat} (h : q < p) (s t : Bool) : decide (signed s p < signed t q) = s := by
  cases s <;> cases t <;> simp only [signed, Bool.false_eq_true, if_true, if_false, decide_eq_true_eq, decide_eq_false_iff_not] <;> omega

theorem decide_signed_lt_self {p : Nat} (h : 0 < p) (s t : Bool) : decide (signed s p < signed t p) = (s && !t) := by
  cases s <;> cases t <;> simp only [signed, Bool.false_eq_true, if_true, if_false, Bool.not_true, Bool.not_false, Bool.and_true,
    Bool.and_false, decide_eq_true_eq, decide_eq_false_iff_not] <;> omega

/-- Finite values in units compare as whole numbers. -/
theorem lt_fin (s t : Bool) (m n i j : Nat) (e : Int) :
    FVal.lt (.fin s m (e + i)) (.fin t n (e + j)) = decide (signed s (m * 2 ^ i) < signed t (n * 2 ^ j)) := by
  obtain ⟨k, hk⟩ : ∃ k : Nat, k = min i j := ⟨_, rfl⟩
  have hq : min (e + (i : Int)) (e + j) = e + k := by omega
  have hp : (0 : Int) < (2 ^ k : Nat) := by exact_mod_cast Nat.two_pow_pos k
  have hscale (s : Bool) (m i : Nat) (hi : k ≤ i) : FVal.scaled s m (e + i) (e + k) * (2 ^ k : Nat) = signed s (m * 2 ^ i) := by
    rw [scaled_eq_signed, signed_mul_natCast, Nat.mul_assoc, ← Nat.pow_add, show (e + (i : Int) - (e + k)).toNat + k = i by omega]
  rw [FVal.lt, hq, decide_eq_decide, ← hscale s m i (by omega), ← hscale t n j (by omega)]
  exact ⟨fun h => Int.mul_lt_mul_of_pos_right h hp, fun h => Int.lt_of_mul_lt_mul_right h (Int.le_of_lt hp)⟩

/-- Only a NaN is read as one. -/
theorem read_ne_nan {f : FFmt} {z : Bool} {c : Nat} (h : ¬IsNaN f (flushed f z c)) : f.read z c ≠ .nan := by
  by_cases hi : IsInf f (flushed f z c)
  · rw [read_of_isInf hi]
    simp
  · obtain ⟨m, j, hr, -, -⟩ := read_of_isFin (show IsFin f (flushed f z c) by omega)
    rw [hr]
    simp

section Read
variable {f : FFmt} {z : Bool} {a b : Nat} (hinf : 0 < f.infCode) (ha : ¬IsNaN f (flushed f z a)) (hb : ¬IsNaN f (flushed f z b))
include ha hb hinf

/-- Values read from codes that are no NaN stand in the order of R95. -/
theorem lt_read : FVal.lt (f.read z a) (f.read z b) = decide (place f (flushed f z a) < place f (flushed f z b)) := by
  rw [place_eq_signed, place_eq_signed]
  by_cases hia : IsInf f (flushed f z a)
  · by_cases hib : IsInf f (flushed f z b)
    · rw [read_of_isInf hia, read_of_isInf hib, hia, hib, FVal.lt, decide_signed_lt_self hinf]
    · have hfb : IsFin f (flushed f z b) := by omega
      obtain ⟨n, j, hr, -, -⟩ := read_of_isFin hfb
      rw [read_of_isInf hia, hr, hia, FVal.lt, decide_signed_lt_of_gt hfb]
  · have hfa : IsFin f (flushed f z a) := by omega
    obtain ⟨m, i, hra, hma, -⟩ := read_of_isFin hfa
    by_cases hib : IsInf f (flushed f z b)
    · rw [hra, read_of_isInf hib, hib, FVal.lt, decide_signed_lt_of_lt hfa]
    · obtain ⟨n, j, hrb, hmb, -⟩ := read_of_isFin (show IsFin f (flushed f z b) by omega)
      rw [hra, hrb, lt_fin, ← hma, ← hmb, decide_eq_decide, signed_mag_lt_iff]

/-- Values read from codes that are no NaN are equal where their places are (R95). -/
theorem eqv_read : FVal.eqv (f.read z a) (f.read z b) = decide (place f (flushed f z a) = place f (flushed f z b)) := by
  have h : FVal.eqv (f.read z a) (f.read z b) = (!FVal.lt (f.read z a) (f.read z b) && !FVal.lt (f.read z b) (f.read z a)) := by
    generalize hu : f.read z a = u
    generalize hv : f.read z b = v
    have hu' : u ≠ .nan := hu ▸ read_ne_nan ha
    have hv' : v ≠ .nan := hv ▸ read_ne_nan hb
    unfold FVal.eqv
    split
    · exact absurd rfl hu'
    · exact absurd rfl hv'
    · rfl
  rw [h, lt_read hinf ha hb, lt_read hinf hb ha, Bool.eq_iff_iff]
  simp
  omega

end Read

theorem lt_nan_left (v : FVal) : FVal.lt .nan v = false := by cases v <;> rfl

theorem lt_nan_right (v : FVal) : FVal.lt v .nan = false := by cases v <;> rfl

/-- FCMP's conditions on the values read (R95). -/
theorem cmp_read_iff {f : FFmt} (hinf : 0 < f.infCode) (z : Bool) (cc a b : Nat) :
    FVal.cmp cc (f.read z a) (f.read z b) = true ↔ FCond f z cc a b := by
  unfold FCond
  by_cases ha : IsNaN f (flushed f z a)
  · rw [read_of_isNaN ha]
    rcases cc with _ | _ | _ | _ | _ | _ | _ | cc <;> simp [FVal.cmp, lt_nan_left, lt_nan_right, ha]
  · by_cases hb : IsNaN f (flushed f z b)
    · rw [read_of_isNaN hb]
      rcases cc with _ | _ | _ | _ | _ | _ | _ | cc <;> simp [FVal.cmp, lt_nan_left, lt_nan_right, hb]
    · have hun : (f.read z a == .nan || f.read z b == .nan) = false := by simp [read_ne_nan ha, read_ne_nan hb]
      unfold FVal.cmp
      simp only [hun, lt_read hinf ha hb, lt_read hinf hb ha, eqv_read hinf ha hb]
      rcases cc with _ | _ | _ | _ | _ | _ | _ | cc <;> simp [ha, hb]

/-! ## Comparisons of integers -/

/-- CMP's conditions on signed values (R63). -/
theorem condI_iff {w : Nat} (cc : Nat) (a b : BitVec w) : condI cc a b = true ↔
    match cc with
    | 0 => a.toInt = b.toInt | 1 => a.toInt ≠ b.toInt | 2 => a.toInt < b.toInt | 3 => a.toInt ≤ b.toInt | 4 => b.toInt < a.toInt
    | 5 => b.toInt ≤ a.toInt | _ => False := by
  unfold condI
  rcases cc with _ | _ | _ | _ | _ | _ | cc <;> simp [BitVec.slt_iff_toInt_lt, BitVec.sle_iff_toInt_le, BitVec.toInt_inj]

/-- CMP's conditions on unsigned values (R63). -/
theorem condN_iff {w : Nat} (cc : Nat) (a b : BitVec w) : condN cc a b = true ↔
    match cc with
    | 0 => a.toNat = b.toNat | 1 => a.toNat ≠ b.toNat | 2 => a.toNat < b.toNat | 3 => a.toNat ≤ b.toNat | 4 => b.toNat < a.toNat
    | 5 => b.toNat ≤ a.toNat | _ => False := by
  unfold condN
  rcases cc with _ | _ | _ | _ | _ | _ | cc <;> simp [BitVec.ult_iff_lt, BitVec.ule_iff_le, BitVec.lt_def, BitVec.le_def, BitVec.toNat_inj]

/-! ## The comparisons -/

/-- A comparison writes its condition on each sub-element into a mask register. -/
theorem maskResult_cmpOp {i : Instr} {o : CmpOp} {lat n : Nat} {p : Fibre → W64 → W64 → Nat → Bool}
    {rule : Fibre → W64 → W64 → Nat → Prop} (hexec : ∀ s, exec i s = cmpOp i o lat n p s) (hn : n ≤ 8) (hp : ∀ f a b j, p f a b j = true ↔ rule f a b j) :
    MaskResult i o.md.toNat (MaskBits o n rule) :=
  maskResult_of_run hexec fun _ _ j => by rw [maskOf_getLsbD n _ hn, hp]

theorem subElements_le (ty : BitVec 2) : 64 / widthOf ty ≤ 8 := by
  rcases widthOf_cases ty with h | h | h | h <;> rw [h] <;> omega

theorem floatSubElements_le (ty : BitVec 2) : 64 / fwidthOf ty ≤ 8 := by
  have h : 16 ≤ fwidthOf ty := width_ofTy ty ▸ (laneFmt_ofTy ty).width_ge
  calc 64 / fwidthOf ty ≤ 64 / 16 := Nat.div_le_div_left h (by omega)
    _ ≤ 8 := by omega

theorem LaneFmt.infCode_pos {f : FFmt} (hf : LaneFmt f) : 0 < f.infCode := Nat.lt_trans (Nat.two_pow_pos _) hf.two_pow_fb_lt

/-- Settles O5: each bit of the mask is the condition on the exact values of the sub-elements. -/
theorem comparisons : Obligations.Comparisons := by
  unfold Obligations.Comparisons
  intro o
  refine ⟨?cmpI, ?cmpN, ?fcmp⟩
  case cmpI =>
    exact maskResult_cmpOp (p := fun _ a b j => condI o.cc.toNat (elem (widthOf o.ty) a j) (elem (widthOf o.ty) b j))
      (fun _ => exec_cmpI) (subElements_le o.ty) fun _ _ _ _ => condI_iff _ _ _
  case cmpN =>
    exact maskResult_cmpOp (p := fun _ a b j => condN o.cc.toNat (elem (widthOf o.ty) a j) (elem (widthOf o.ty) b j))
      (fun _ => exec_cmpN) (subElements_le o.ty) fun _ _ _ _ => condN_iff _ _ _
  case fcmp =>
    exact maskResult_cmpOp (p := fun f a b j => FVal.cmp o.cc.toNat ((FFmt.ofTy o.ty).read f.ftz (elem (fwidthOf o.ty) a j).toNat)
        ((FFmt.ofTy o.ty).read f.ftz (elem (fwidthOf o.ty) b j).toNat))
      (fun _ => exec_fcmp) (floatSubElements_le o.ty) fun _ _ _ _ => cmp_read_iff (laneFmt_ofTy o.ty).infCode_pos _ _ _ _

end Sys2Proof.Stmt
end

section
/-! Minimum and maximum, scaling, sign, class and rounding to an integral value (04: R94, R96, R97). -/

namespace Sys2Proof.Stmt

open Machine

/-! ## Minimum and maximum -/

/-- The order of R94 is that of R95, refined by the signs of zeros. -/
theorem rank_le_iff (f : FFmt) (a b : Nat) :
    rank f a ≤ rank f b ↔ place f a < place f b ∨ (place f a = place f b ∧ (IsNeg f a ∨ ¬IsNeg f b)) := by
  unfold rank place
  by_cases ha : IsNeg f a
  · by_cases hb : IsNeg f b
    · rw [if_pos ha, if_pos hb, if_pos ha, if_pos hb]; omega
    · rw [if_pos ha, if_neg hb, if_pos ha, if_neg hb]; omega
  · by_cases hb : IsNeg f b
    · rw [if_neg ha, if_pos hb, if_neg ha, if_pos hb]; omega
    · rw [if_neg ha, if_neg hb, if_neg ha, if_neg hb]; omega

/-- Codes of one sign at one place are one code. -/
theorem eq_of_place_eq {f : FFmt} {a b : Nat} (ha : a < 2 * f.signBit) (hb : b < 2 * f.signBit) (h : place f a = place f b)
    (hs : IsNeg f a ↔ IsNeg f b) : a = b := by
  have hm : a % f.signBit = b % f.signBit := by
    have := congrArg Int.natAbs h
    rwa [place_eq_signed, place_eq_signed, natAbs_signed, natAbs_signed] at this
  have h1 := code_split ha
  have h2 := code_split hb
  rw [← h1, ← h2, hm]
  simp only [hs]

theorem isNeg_read {f : FFmt} {z : Bool} {c : Nat} (h : ¬IsNaN f (flushed f z c)) :
    (f.read z c).isNeg = decide (IsNeg f (flushed f z c)) := by
  by_cases hi : IsInf f (flushed f z c)
  · rw [read_of_isInf hi, FVal.isNeg]
  · obtain ⟨m, j, hr, -, -⟩ := read_of_isFin (show IsFin f (flushed f z c) by omega)
    rw [hr, FVal.isNeg]

theorem minNum_nan_right (v : FVal) : FVal.minNum v .nan = v := by cases v <;> rfl

theorem maxNum_nan_right (v : FVal) : FVal.maxNum v .nan = v := by cases v <;> rfl

theorem minNum_of_ne_nan {u v : FVal} (hu : u ≠ .nan) (hv : v ≠ .nan) :
    FVal.minNum u v = if FVal.lt u v || (FVal.eqv u v && FVal.isNeg u) then u else v := by
  unfold FVal.minNum
  split
  · exact absurd rfl hu
  · exact absurd rfl hv
  · rfl

theorem maxNum_of_ne_nan {u v : FVal} (hu : u ≠ .nan) (hv : v ≠ .nan) :
    FVal.maxNum u v = if FVal.lt v u || (FVal.eqv u v && !FVal.isNeg u) then u else v := by
  unfold FVal.maxNum
  split
  · exact absurd rfl hu
  · exact absurd rfl hv
  · rfl

section Choice
variable {f : FFmt} (hf : LaneFmt f) {rm : Nat} (hrm : rm < 4) (z : Bool) {a b : Nat} (ha : a < 2 * f.signBit) (hb : b < 2 * f.signBit)
include hf hrm ha hb

/-- An operation that takes the other operand of a NaN, and chooses as R94 does between codes that differ, is the one of R94. -/
theorem extreme_of_choice (low : Bool) {sel : FVal → FVal → FVal} (hl : ∀ v, sel .nan v = v) (hr : ∀ u, sel u .nan = u)
    (hsel : ¬IsNaN f (flushed f z a) → ¬IsNaN f (flushed f z b) → ∃ p : Bool,
      sel (f.read z a) (f.read z b) = (if p then f.read z a else f.read z b) ∧
      (flushed f z a ≠ flushed f z b → (p = true ↔ (rank f (flushed f z a) ≤ rank f (flushed f z b) ↔ low = true)))) :
    Extreme f z low a b (f.write rm z (sel (f.read z a) (f.read z b))) := by
  unfold Extreme
  refine ⟨?both, ?left, ?right, ?neither⟩
  case both =>
    intro h1 h2
    rw [read_of_isNaN h1, read_of_isNaN h2, hl]
    rfl
  case left =>
    intro h1 h2
    rw [read_of_isNaN h1, hl, write_read hf hrm hb h2]
  case right =>
    intro h1 h2
    rw [read_of_isNaN h1, hr, write_read hf hrm ha h2]
  case neither =>
    intro h1 h2
    obtain ⟨p, hs, hp⟩ := hsel h1 h2
    rw [hs, apply_ite (f.write rm z), write_read hf hrm ha h1, write_read hf hrm hb h2]
    by_cases heq : flushed f z a = flushed f z b
    · rw [heq, ite_self, ite_self]
    · simp only [hp heq, eq_iff_iff]

omit hf hrm in
/-- Different codes at one place differ in sign. -/
theorem sign_ne_of_place_eq (hne : flushed f z a ≠ flushed f z b) (hp : place f (flushed f z a) = place f (flushed f z b)) :
    ¬(IsNeg f (flushed f z a) ↔ IsNeg f (flushed f z b)) := fun hs =>
  hne (eq_of_place_eq (Nat.lt_of_le_of_lt (flushed_le f z a) ha) (Nat.lt_of_le_of_lt (flushed_le f z b) hb) hp hs)

theorem extreme_minNum : Extreme f z true a b (f.write rm z (.minNum (f.read z a) (f.read z b))) := by
  refine extreme_of_choice hf hrm z ha hb true (fun v => rfl) minNum_nan_right fun h1 h2 =>
    ⟨_, minNum_of_ne_nan (read_ne_nan h1) (read_ne_nan h2), fun hne => ?_⟩
  have hs := sign_ne_of_place_eq z ha hb hne
  rw [lt_read hf.infCode_pos h1 h2, eqv_read hf.infCode_pos h1 h2, isNeg_read h1, rank_le_iff]
  simp only [Bool.or_eq_true, Bool.and_eq_true, decide_eq_true_eq, iff_true]
  omega

theorem extreme_maxNum : Extreme f z false a b (f.write rm z (.maxNum (f.read z a) (f.read z b))) := by
  refine extreme_of_choice hf hrm z ha hb false (fun v => rfl) maxNum_nan_right fun h1 h2 =>
    ⟨_, maxNum_of_ne_nan (read_ne_nan h1) (read_ne_nan h2), fun hne => ?_⟩
  have hs := sign_ne_of_place_eq z ha hb hne
  rw [lt_read hf.infCode_pos h2 h1, eqv_read hf.infCode_pos h1 h2, isNeg_read h1, rank_le_iff]
  simp only [Bool.or_eq_true, Bool.and_eq_true, Bool.not_eq_true', decide_eq_true_eq, decide_eq_false_iff_not, Bool.false_eq_true,
    iff_false]
  omega

end Choice

/-! ## Counts past every exponent (R96) -/

/-- A count beyond 6000 rounds as the count 6000 does (R96). -/
theorem roundsTo_clamp {f : FFmt} (hf : LaneFmt f) {rm : Nat} {neg : Bool} {x : Nat} (h0 : 0 < x) (hx : x < mag f f.infCode) (k : Int)
    (q : Nat) : RoundsTo f rm neg x (max (-6000) (min k 6000)) q ↔ RoundsTo f rm neg x k q := by
  obtain ⟨n, hn, hinf⟩ : ∃ n, n + 2 ≤ 6000 ∧ mag f f.infCode = 2 ^ n := by
    have h4 : 2 ^ 2 ≤ 2 ^ f.eb := Nat.pow_le_pow_right (by omega) hf.eb_ge
    have := hf.range_le
    exact ⟨_, by omega, mag_infCode f hf.eb_ge⟩
  have hover (e : Int) (he : 6000 ≤ e) : RoundsTo f rm neg x e q ↔ q = if rm = 0 ∨ Away rm neg then f.infCode else f.infCode - 1 := by
    rw [roundsTo_iff_frac, show (-e).toNat = 0 by omega]
    refine roundsFrac_overflow Nat.one_pos hf.infCode_pos ?_
    calc mag f f.infCode * 2 ^ 0 = 2 ^ n := by rw [Nat.pow_zero, Nat.mul_one, hinf]
      _ ≤ 2 ^ e.toNat := Nat.pow_le_pow_right (by omega) (by omega)
      _ ≤ x * 2 ^ e.toNat := Nat.le_mul_of_pos_left _ h0
  have hunder (e : Int) (he : e ≤ -6000) : RoundsTo f rm neg x e q ↔ q = if rm ≠ 0 ∧ Away rm neg then 1 else 0 := by
    rw [roundsTo_iff_frac, show e.toNat = 0 by omega, Nat.pow_zero, Nat.mul_one]
    refine roundsFrac_underflow hf h0 ?_
    calc 2 * x < 2 * 2 ^ n := by omega
      _ = 2 ^ (n + 1) := Nat.pow_succ'.symm
      _ ≤ 2 ^ (-e).toNat := Nat.pow_le_pow_right (by omega) (by omega)
  by_cases h : 6000 ≤ k
  · rw [hover k h, hover _ (by omega)]
  · by_cases h' : k ≤ -6000
    · rw [hunder k h', hunder _ (by omega)]
    · rw [show max (-6000) (min k 6000) = k by omega]

/-! ## Whole numbers as codes (R97) -/

/-- A whole number no longer than a fraction is the value of a finite code. -/
theorem exists_code_of_whole {f : FFmt} (hf : LaneFmt f) {n : Nat} (hn : n ≤ 2 ^ f.fb) : ∃ p < f.infCode, mag f p = n * 2 ^ lowest f := by
  have hp : 0 < 2 ^ f.fb := Nat.two_pow_pos _
  obtain ⟨p, hm⟩ := exists_mag_eq f (lowest f) (show n < 2 * 2 ^ f.fb by omega)
  refine ⟨p, ?_, hm⟩
  have hlow : lowest f < 2 ^ f.eb - 2 := by
    have h1 := hf.fb_lt
    have h2 : 2 ^ f.eb = 2 * 2 ^ (f.eb - 1) := by
      rw [← Nat.pow_succ', Nat.succ_eq_add_one, Nat.sub_add_cancel (Nat.le_of_lt hf.eb_ge)]
    have h3 := hf.fb_pos
    unfold lowest
    omega
  rw [← mag_lt_iff f, hm, mag_infCode f hf.eb_ge, Nat.pow_add]
  calc n * 2 ^ lowest f ≤ 2 ^ f.fb * 2 ^ lowest f := Nat.mul_le_mul_right _ hn
    _ < 2 ^ f.fb * 2 ^ (2 ^ f.eb - 2) := Nat.mul_lt_mul_of_pos_left (Nat.pow_lt_pow_right (by omega) hlow) hp

/-- A code whose value is a whole number is no subnormal. -/
theorem whole_not_sub {f : FFmt} (hf : LaneFmt f) {n p : Nat} (h : mag f p = n * 2 ^ lowest f) : p = 0 ∨ 2 ^ f.fb ≤ p := by
  refine Classical.byContradiction fun hsub => ?_
  have hlt : p < 2 ^ f.fb := by omega
  have hn : 0 < n := by
    rw [Nat.pos_iff_ne_zero]
    rintro rfl
    rw [Nat.zero_mul, mag_eq_zero_iff] at h
    omega
  have hle : 2 ^ f.fb ≤ 2 ^ lowest f := by
    have h2 : 2 ^ 1 ≤ 2 ^ (f.eb - 1) := Nat.pow_le_pow_right (by omega) (by have := hf.eb_ge; omega)
    exact Nat.pow_le_pow_right (by omega) (by unfold lowest; omega)
  have := Nat.le_mul_of_pos_left (2 ^ lowest f) hn
  rw [mag_of_lt hlt] at h
  omega

/-- A magnitude that is a whole number is not cut. -/
theorem cutTo_of_nonneg (rm : Nat) (neg : Bool) (m : Nat) {e : Int} (he : 0 ≤ e) : cutTo rm neg m e 0 = m * 2 ^ e.toNat := by
  rw [cutTo, if_pos he, Int.sub_zero]

/-- A magnitude with bits after the point is cut to at most half its significand's length. -/
theorem cutTo_le {rm : Nat} (hrm : rm < 4) (neg : Bool) {m n : Nat} {e : Int} (hm : m < 2 * n) (he : e < 0) :
    cutTo rm neg m e 0 ≤ n := by
  have hs : 2 ^ 1 ≤ 2 ^ (0 - e).toNat := Nat.pow_le_pow_right (by omega) (by omega)
  have hdiv : m / 2 ^ (0 - e).toNat < n := by
    rw [Nat.div_lt_iff_lt_mul (by omega)]
    calc m < n * 2 := by omega
      _ ≤ n * 2 ^ (0 - e).toNat := Nat.mul_le_mul_left n hs
  rw [cutTo_eq hrm neg (l := m) (by rw [show (e - 0).toNat = 0 by omega, Nat.pow_zero, Nat.mul_one]) rfl]
  split <;> omega

/-! ## Scaling, and rounding to an integral value -/

section Unary
variable {f : FFmt} (hf : LaneFmt f) {rm : Nat} (hrm : rm < 4) (z : Bool) {a : Nat} (ha : a < 2 * f.signBit)
include hf hrm ha

/-- A code times a power of two (R96). -/
theorem scaled_scale (k : Int) : Scaled f rm z a k (f.write rm z ((f.read z a).scale k)) := by
  have ha' : flushed f z a < 2 * f.signBit := Nat.lt_of_le_of_lt (flushed_le f z a) ha
  unfold Scaled
  refine ⟨fun h => ?nan, fun h => ?same, fun h h0 => ?fin⟩
  case nan =>
    rw [read_of_isNaN h]
    rfl
  case same =>
    rcases h with h | h
    · rw [read_of_isInf h]
      exact write_inf rm z ha' h
    · obtain ⟨m, j, hr, hm, -⟩ := read_of_isFin (z := z) (c := a) (f := f) (by rw [IsFin, h]; exact hf.infCode_pos)
      rw [hr, (isZero_iff_significand hm).1 h, FVal.scale, write_zero]
      simpa using code_of_isZero ha' h
  case fin =>
    obtain ⟨m, j, hr, hm, -⟩ := read_of_isFin h
    have hm0 : mag f (flushed f z a % f.signBit) ≠ 0 := mt mag_eq_zero_iff.1 h0
    have hx : units f (flushed f z a) ≠ 0 := by
      rw [units_eq_signed]
      exact mt signed_eq_zero.1 hm0
    have hneg : decide (units f (flushed f z a) < 0) = decide (IsNeg f (flushed f z a)) := by
      rw [units_eq_signed, decide_eq_decide, signed_neg_iff hm0, decide_eq_true_eq]
    have habs : (units f (flushed f z a)).natAbs = m * 2 ^ j := by rw [units_eq_signed, natAbs_signed, hm]
    obtain ⟨q, hq, hw⟩ := write_rounded hf hrm z hx (e := f.emin + j + max (-6000) (min k 6000)) (E := max (-6000) (min k 6000)) (m := m)
      (j := j) (by omega) habs
    refine ⟨q, (roundsTo_clamp hf (by rw [habs, ← hm]; omega) (by rw [habs, ← hm]; exact mag_lt f h) k q).1 hq, ?_⟩
    rw [hr, FVal.scale, ← hneg, hw]

/-- A code rounded to an integral value under the rounding mode `rd` (R97). -/
theorem integral_toIntegral {rd : Nat} (hrd : rd < 4) : Integral f rd z a (f.write rm z ((f.read z a).toIntegral rd)) := by
  have ha' : flushed f z a < 2 * f.signBit := Nat.lt_of_le_of_lt (flushed_le f z a) ha
  unfold Integral
  refine ⟨fun h => ?nan, fun h => ?inf, fun h => ?fin⟩
  case nan =>
    rw [read_of_isNaN h]
    rfl
  case inf =>
    rw [read_of_isInf h]
    exact write_inf rm z ha' h
  case fin =>
    obtain ⟨m, j, hr, hm, hlen⟩ := read_of_isFin h
    rw [hr, FVal.toIntegral]
    generalize hn : cutTo rd (decide (IsNeg f (flushed f z a))) m (f.emin + j) 0 = n
    have hwhole : Whole rd (decide (IsNeg f (flushed f z a))) (mag f (flushed f z a % f.signBit)) (2 ^ lowest f) n := by
      rw [← hn]
      refine whole_cutTo hrd _ m _ (Nat.two_pow_pos _) ?_
      rw [hm, Nat.mul_assoc, Nat.mul_assoc, ← Nat.pow_add, ← Nat.pow_add, hf.emin_eq]
      congr 2
      omega
    obtain ⟨p, hp, hmp⟩ : ∃ p < f.infCode, mag f p = n * 2 ^ lowest f := by
      by_cases he : 0 ≤ f.emin + (j : Int)
      · refine ⟨_, h, ?_⟩
        have := hf.emin_eq
        rw [hm, ← hn, cutTo_of_nonneg _ _ _ he, Nat.mul_assoc, ← Nat.pow_add]
        congr 2
        omega
      · exact exists_code_of_whole hf (hn ▸ cutTo_le hrd _ hlen (by omega))
    have hlt : p < f.signBit := Nat.lt_trans hp (infCode_lt f)
    have hz : f.emin + (lowest f : Int) = 0 := by rw [hf.emin_eq]; omega
    have hw := write_exact hf hrm z (decide (IsNeg f (flushed f z a))) hp hmp
    rw [hz] at hw
    simp only [decide_eq_true_eq] at hw
    rw [hw, flushed_of_not_sub z (by rw [signed_mod _ hlt]; exact whole_not_sub hf hmp), signed_isNeg _ hlt, IsFin, signed_mod _ hlt]
    refine ⟨Iff.rfl, hp, n, hmp, ?_⟩
    simpa [Whole] using hwhole

end Unary

/-! ## Sign and class -/

/-- Inverting the sign bit gives the opposite code. -/
theorem xor_signBit {f : FFmt} {c : Nat} (hc : c < 2 * f.signBit) : c ^^^ f.signBit = opposite f c := by
  have hr : c % f.signBit < f.signBit := Nat.mod_lt _ (signBit_pos f)
  have hset : c % f.signBit ^^^ f.signBit = f.signBit + c % f.signBit := by
    rw [FFmt.signBit] at hr ⊢
    have hor := Nat.two_pow_add_eq_or_of_lt hr 1
    rw [Nat.mul_one] at hor
    rw [hor]
    apply Nat.eq_of_testBit_eq
    intro i
    rw [Nat.testBit_xor, Nat.testBit_or, Nat.testBit_two_pow]
    by_cases hi : f.eb + f.fb = i
    · rw [Nat.testBit_lt_two_pow (hi ▸ hr)]
      simp [hi]
    · simp [hi]
  rw [opposite_eq hc]
  conv => lhs; rw [← code_split hc]
  by_cases hn : IsNeg f c
  · rw [if_pos hn, if_neg (Classical.not_not.2 hn), ← hset, Nat.xor_assoc, Nat.xor_self, Nat.xor_zero, Nat.zero_add]
  · rw [if_neg hn, if_pos hn, Nat.zero_add, hset]

/-- FCLASS names the class of its operand (R97). -/
theorem classOf_classBit (f : FFmt) (c : Nat) : ClassOf f c (f.classBit c) := by
  have hdvd : 2 ^ f.fb ∣ f.signBit := by rw [signBit_eq_mul]; exact Nat.dvd_mul_left _ _
  have hfrac : c % f.signBit % 2 ^ f.fb = c % 2 ^ f.fb := Nat.mod_mod_of_dvd c hdvd
  unfold FFmt.classBit
  simp only [beq_iff_eq, hfrac]
  by_cases hnan : f.infCode < c % f.signBit
  · rw [if_pos hnan]
    split
    next h => exact ⟨hnan, h⟩
    next h => exact ⟨hnan, Nat.not_lt.1 h⟩
  · rw [if_neg hnan]
    by_cases hinf : c % f.signBit = f.infCode
    · rw [if_pos hinf]
      split
      next h => exact ⟨hinf, h⟩
      next h => exact ⟨hinf, h⟩
    · have hfin : IsFin f c := by omega
      rw [if_neg hinf]
      by_cases h0 : c % f.signBit = 0
      · rw [if_pos h0]
        split
        next h => exact ⟨h0, h⟩
        next h => exact ⟨h0, h⟩
      · rw [if_neg h0]
        by_cases hsub : c % f.signBit < 2 ^ f.fb
        · rw [if_pos hsub]
          split
          next h => exact ⟨h0, h, hsub⟩
          next h => exact ⟨h0, h, hsub⟩
        · rw [if_neg hsub]
          split
          next h => exact ⟨hfin, h, Nat.not_lt.1 hsub⟩
          next h => exact ⟨hfin, h, Nat.not_lt.1 hsub⟩

theorem classBit_le (f : FFmt) (c : Nat) : f.classBit c ≤ 9 := by
  unfold FFmt.classBit
  dsimp only
  repeat' split
  all_goals omega

/-- Settles O7: the choice of R94 between codes, scaling by the exact power of two, and the unary operations on sign, class and value. -/
theorem floatSelectScaleAndRound : Obligations.FloatSelectScaleAndRound := by
  unfold Obligations.FloatSelectScaleAndRound
  refine ⟨fun o => ⟨?fmin, ?fmax, ?fscale⟩, fun o => ⟨?fabs, ?fneg, ?fclass, ?frnd, ?frndRn, ?frndRz, ?frndRu, ?frndRd⟩⟩
  case fmin =>
    exact laneResult_floats (fun _ => exec_fmin) ⟨_, _, rfl⟩ fun f rm z a b _ hf hrm ha hb _ =>
      ⟨write_lt hf rm z _, extreme_minNum hf hrm z ha hb⟩
  case fmax =>
    exact laneResult_floats (fun _ => exec_fmax) ⟨_, _, rfl⟩ fun f rm z a b _ hf hrm ha hb _ =>
      ⟨write_lt hf rm z _, extreme_maxNum hf hrm z ha hb⟩
  case fscale =>
    exact laneResult_floats (fun _ => exec_fscale) ⟨_, _, rfl⟩ fun f rm z a b _ hf hrm ha _ _ =>
      ⟨write_lt hf rm z _, scaled_scale hf hrm z ha _⟩
  case fabs =>
    exact laneResult_floatsU (fun _ => exec_fabs) ⟨_, _, rfl⟩ fun f _ _ a _ _ _ =>
      ⟨Nat.lt_of_lt_of_le (Nat.mod_lt a (signBit_pos f)) (by omega), rfl⟩
  case fneg =>
    exact laneResult_floatsU (fun _ => exec_fneg) ⟨_, _, rfl⟩ fun f _ _ a _ _ ha =>
      ⟨xor_signBit ha ▸ opposite_lt ha, xor_signBit ha⟩
  case fclass =>
    exact laneResult_floatsU (fun _ => exec_fclass) ⟨_, _, rfl⟩ fun f _ _ a hf _ _ =>
      ⟨by
        rw [← two_pow_width]
        exact Nat.pow_lt_pow_right (by omega) (by have := classBit_le f a; have := hf.width_ge; omega),
       _, classOf_classBit f a, rfl⟩
  case frnd =>
    exact laneResult_floatsU (fun _ => exec_frnd) ⟨_, _, rfl⟩ fun f rm z a hf hrm ha =>
      ⟨write_lt hf rm z _, integral_toIntegral hf hrm z ha hrm⟩
  case frndRn =>
    exact laneResult_floatsU (fun _ => exec_frndRn) ⟨_, _, rfl⟩ fun f rm z a hf hrm ha =>
      ⟨write_lt hf rm z _, integral_toIntegral hf hrm z ha (by omega)⟩
  case frndRz =>
    exact laneResult_floatsU (fun _ => exec_frndRz) ⟨_, _, rfl⟩ fun f rm z a hf hrm ha =>
      ⟨write_lt hf rm z _, integral_toIntegral hf hrm z ha (by omega)⟩
  case frndRu =>
    exact laneResult_floatsU (fun _ => exec_frndRu) ⟨_, _, rfl⟩ fun f rm z a hf hrm ha =>
      ⟨write_lt hf rm z _, integral_toIntegral hf hrm z ha (by omega)⟩
  case frndRd =>
    exact laneResult_floatsU (fun _ => exec_frndRd) ⟨_, _, rfl⟩ fun f rm z a hf hrm ha =>
      ⟨write_lt hf rm z _, integral_toIntegral hf hrm z ha (by omega)⟩

end Sys2Proof.Stmt
end

section
/-! SUPPORT. Registers put together from fields: the sub-elements a register holds, and the bits above them (R108, R113 to R115). -/

namespace Sys2Proof.Machine

/-- A bit of a sub-element is a bit of the register. -/
theorem elem_getLsbD (w : Nat) (x : W64) (j : Nat) {i : Nat} (hi : i < w) : (elem w x j).getLsbD i = x.getLsbD (w * j + i) := by
  simp [elem, hi]

/-- The bits past the last of joined sub-elements are 0. -/
theorem join_getLsbD_of_ge {w : Nat} (l : List (BitVec w)) {i : Nat} (h : w * l.length ≤ i) : (join l).getLsbD i = false := by
  induction l generalizing i with
  | nil => simp [join]
  | cons b l ih =>
    rw [List.length_cons, Nat.mul_succ] at h
    have hb : b.getLsbD i = false := BitVec.getLsbD_of_ge _ _ (by omega)
    simp [join, hb, ih (i := i - w) (by omega)]

/-- A sub-element of joined ones, found by its number. -/
theorem elem_join_of_getElem? {w : Nat} {l : List (BitVec w)} {j : Nat} {b : BitVec w} (h : l[j]? = some b) (hw : w * l.length ≤ 64) :
    elem w (join l) j = b := by
  obtain ⟨hj, hb⟩ := List.getElem?_eq_some_iff.1 h
  rw [elem_join l j hj hw, hb]

/-! ## Fields -/

/-- The register into which `n` codes of width `w` are put one after the other, as CVT does (R108). -/
def fields (w n : Nat) (t : Nat → Nat) : W64 := (List.range n).foldl (fun r j => r ||| (BitVec.ofNat 64 (t j) <<< (w * j))) 0

theorem cvt_eq_fields (td ts : Nat) (rm : Rm) (a : W64) : cvt td ts rm a =
    fields (typeWidth td) (64 / max (typeWidth ts) (typeWidth td))
      fun j => typeWrite td rm (typeRead ts (elem (typeWidth ts) a j).toNat) := rfl

theorem fields_succ (w n : Nat) (t : Nat → Nat) : fields w (n + 1) t = fields w n t ||| (BitVec.ofNat 64 (t n) <<< (w * n)) := by
  rw [fields, List.range_succ, List.foldl_append, List.foldl_cons, List.foldl_nil, ← fields]

section Fields
variable {w n : Nat} {t : Nat → Nat} (hn : w * n ≤ 64) (ht : ∀ j < n, t j < 2 ^ w)
include hn ht

/-- Bit `i` of field `j`. -/
theorem fields_getLsbD (j : Nat) {i : Nat} (hi : i < w) : (fields w n t).getLsbD (w * j + i) = (decide (j < n) && (t j).testBit i) := by
  induction n with
  | zero => simp [fields]
  | succ n ih =>
    rw [Nat.mul_succ] at hn
    rw [fields_succ, BitVec.getLsbD_or, ih (by omega) fun k hk => ht k (by omega), BitVec.getLsbD_shiftLeft, BitVec.getLsbD_ofNat]
    rcases Nat.lt_trichotomy j n with h | rfl | h
    · have : w * j + w ≤ w * n := by rw [← Nat.mul_succ]; exact Nat.mul_le_mul_left w h
      simp [h, show j < n + 1 by omega, show w * j + i < w * n by omega]
    · simp [show w * j + i < 64 by omega, show i < 64 by omega]
    · have : w * n + w ≤ w * j := by rw [← Nat.mul_succ]; exact Nat.mul_le_mul_left w h
      have hz : (t n).testBit (w * j + i - w * n) = false :=
        Nat.testBit_lt_two_pow (Nat.lt_of_lt_of_le (ht n (by omega)) (Nat.pow_le_pow_right (by omega) (by omega)))
      simp [hz, show ¬ j < n by omega, show ¬ j < n + 1 by omega]

/-- Each field holds its code. -/
theorem elem_fields {j : Nat} (hj : j < n) : (elem w (fields w n t) j).toNat = t j := by
  have h : elem w (fields w n t) j = BitVec.ofNat w (t j) := by
    apply BitVec.eq_of_getLsbD_eq
    intro i hi
    rw [elem_getLsbD _ _ _ hi, fields_getLsbD hn ht j hi, BitVec.getLsbD_ofNat, decide_eq_true hi, decide_eq_true hj]
  rw [h, BitVec.toNat_ofNat, Nat.mod_eq_of_lt (ht j hj)]

/-- The bits above the fields are 0. -/
theorem fields_getLsbD_of_ge (hw : 0 < w) {i : Nat} (hi : n * w ≤ i) : (fields w n t).getLsbD i = false := by
  have h := fields_getLsbD hn ht (i / w) (Nat.mod_lt i hw)
  rw [Nat.div_add_mod] at h
  rw [h, decide_eq_false (Nat.not_lt.2 ((Nat.le_div_iff_mul_le hw).2 hi)), Bool.false_and]

end Fields

/-! ## PACK and UNPACK -/

/-- The halves of the sub-elements of a register take 32 bits. -/
theorem half_mul_count (ty : BitVec 2) : widthOf ty / 2 * (64 / widthOf ty) = 32 := by
  rcases widthOf_cases ty with h | h | h | h <;> rw [h]

/-- The low half of a sub-element, bit by bit. -/
theorem setWidth_elem_getLsbD (w : Nat) (x : W64) (j : Nat) {i : Nat} (hi : i < w / 2) :
    ((elem w x j).setWidth (w / 2)).getLsbD i = x.getLsbD (w * j + i) := by
  rw [BitVec.getLsbD_setWidth, decide_eq_true hi, Bool.true_and, elem_getLsbD _ _ _ (by omega)]

/-- The low half of PACK's result holds the low halves of the sub-elements of A, and its high half those of B (R114). -/
theorem pack_getLsbD (ty : BitVec 2) (a b : W64) {j i : Nat} (hj : j < 64 / widthOf ty) (hi : i < widthOf ty / 2) :
    (pack (widthOf ty) a b).getLsbD (widthOf ty / 2 * j + i) = a.getLsbD (widthOf ty * j + i) ∧
    (pack (widthOf ty) a b).getLsbD (32 + widthOf ty / 2 * j + i) = b.getLsbD (widthOf ty * j + i) := by
  have hc := half_mul_count ty
  unfold pack
  generalize hA : (List.range (64 / widthOf ty)).map (fun j => (elem (widthOf ty) a j).setWidth (widthOf ty / 2)) = la
  generalize hB : (List.range (64 / widthOf ty)).map (fun j => (elem (widthOf ty) b j).setWidth (widthOf ty / 2)) = lb
  have hla : la.length = 64 / widthOf ty := by simp [← hA]
  have hlb : lb.length = 64 / widthOf ty := by simp [← hB]
  have hfit : widthOf ty / 2 * (la ++ lb).length ≤ 64 := by
    rw [List.length_append, hla, hlb, Nat.mul_add]
    omega
  constructor
  · rw [← elem_getLsbD _ _ _ hi, elem_join _ _ (by rw [List.length_append]; omega) hfit, List.getElem_append_left (by omega)]
    simp only [← hA, List.getElem_map, List.getElem_range, setWidth_elem_getLsbD _ _ _ hi]
  · rw [← hc, ← Nat.mul_add, ← elem_getLsbD _ _ _ hi, elem_join _ _ (by rw [List.length_append]; omega) hfit,
      List.getElem_append_right (by omega)]
    simp only [← hB, hla, Nat.add_sub_cancel_left, List.getElem_map, List.getElem_range, setWidth_elem_getLsbD _ _ _ hi]

/-- Each sub-element of UNPACK's result is a field of the half of A that B selects, extended by zeros (R115). -/
theorem unpack_getLsbD (ty : BitVec 2) (a b : W64) {j i : Nat} (hj : j < 64 / widthOf ty) (hi : i < widthOf ty) :
    (unpack (widthOf ty) a b).getLsbD (widthOf ty * j + i) =
      (decide (i < widthOf ty / 2) && a.getLsbD ((if b.getLsbD 0 then 32 else 0) + widthOf ty / 2 * j + i)) := by
  unfold unpack
  rw [← elem_getLsbD _ _ _ hi, elem_perElem _ _ hj, BitVec.getLsbD_setWidth, BitVec.getLsbD_extractLsb', BitVec.getLsbD_extractLsb',
    decide_eq_true hi, Bool.true_and]
  by_cases hh : i < widthOf ty / 2
  · have hin : widthOf ty / 2 * j + i < 32 := by
      calc widthOf ty / 2 * j + i < widthOf ty / 2 * (j + 1) := by rw [Nat.mul_succ]; omega
        _ ≤ 32 := half_mul_count ty ▸ Nat.mul_le_mul_left _ hj
    rw [decide_eq_true hin, Bool.true_and, Nat.add_assoc]
  · rw [decide_eq_false hh, Bool.false_and, Bool.false_and]

end Sys2Proof.Machine
end

section
/-! CVT: the case of R108 for each pair of types, and the registers CVT, PACK and UNPACK write (05: R107, R108, R114, R115). -/

namespace Sys2Proof.Stmt

open Machine

/-! ## Types -/

theorem typeFmt_cases (t : Nat) : typeFmt t = .f16 ∨ typeFmt t = .bf16 ∨ typeFmt t = .f32 ∨ typeFmt t = .f64 := by
  unfold typeFmt
  split <;> simp

theorem laneFmt_typeFmt (t : Nat) : LaneFmt (typeFmt t) := by
  rcases typeFmt_cases t with h | h | h | h <;> rw [h] <;> constructor <;> decide

theorem typeFmt_of_gt {t : Nat} (h : 10 < t) : typeFmt t = .f64 := by
  unfold typeFmt
  split
  · omega
  · omega
  · omega
  · rfl

/-- A float type is as wide as its format. -/
theorem width_typeFmt {t : Nat} (h : 8 ≤ t) : (typeFmt t).width = typeWidth t := by
  obtain rfl | rfl | rfl | hgt : t = 8 ∨ t = 9 ∨ t = 10 ∨ 10 < t := by omega
  · rfl
  · rfl
  · rfl
  · rw [typeFmt_of_gt hgt, typeWidth, if_neg (by omega), if_neg (by omega), if_neg (by simp; omega)]
    rfl

/-- The four widths of a type. -/
theorem typeWidth_cases (t : Nat) : typeWidth t = 8 ∨ typeWidth t = 16 ∨ typeWidth t = 32 ∨ typeWidth t = 64 := by
  unfold typeWidth
  split
  · obtain h | h | h | h : t % 4 = 0 ∨ t % 4 = 1 ∨ t % 4 = 2 ∨ t % 4 = 3 := by omega
    all_goals simp [h]
  · split
    · simp
    · split <;> simp

theorem typeWidth_pos (t : Nat) : 0 < typeWidth t := by
  rcases typeWidth_cases t with h | h | h | h <;> omega

/-! ## Integers -/

theorem clampTo_eq (t : Nat) (v : Int) :
    clampTo t v = (BitVec.ofInt (typeWidth t) (max (intLow t) (min v (intHigh t)))).toNat := by
  unfold clampTo intLow intHigh
  by_cases h : t ≤ 3 <;> simp only [h, if_true, if_false]

theorem clampTo_lt (t : Nat) (v : Int) : clampTo t v < 2 ^ typeWidth t := by
  rw [clampTo_eq]
  exact BitVec.isLt _

/-- The code of a clamped value stands for it (R108). -/
theorem intVal_clampTo (t : Nat) (v : Int) : intVal t (clampTo t v) = max (intLow t) (min v (intHigh t)) := by
  have hp : (0 : Int) < 2 ^ typeWidth t := Int.pow_pos (by omega)
  have hp' : (0 : Int) < 2 ^ (typeWidth t - 1) := Int.pow_pos (by omega)
  rw [clampTo_eq]
  unfold intVal intLow intHigh
  by_cases h : t ≤ 3
  · simp only [h, if_true, BitVec.ofNat_toNat, BitVec.setWidth_eq]
    exact BitVec.toInt_ofInt_eq_self (typeWidth_pos t) (by omega) (by omega)
  · have hne : ((2 ^ typeWidth t : Nat) : Int) ≠ 0 := Int.natCast_ne_zero.2 (Nat.ne_of_gt (Nat.two_pow_pos _))
    simp only [h, if_false]
    rw [BitVec.toNat_ofInt, Int.toNat_of_nonneg (Int.emod_nonneg _ hne), Int.emod_eq_of_lt (by omega) (by push_cast; omega)]

/-- Every integer type's range lies within 2^80 of zero. -/
theorem int_range (t : Nat) : -2 ^ 80 ≤ intLow t ∧ intLow t ≤ intHigh t ∧ intHigh t ≤ 2 ^ 80 := by
  unfold intLow intHigh
  rcases typeWidth_cases t with h | h | h | h
  all_goals
    rw [h]
    by_cases ht : t ≤ 3 <;> simp [ht]

/-- An infinity is clamped to the end of the range on its side (R108). -/
theorem clamp_inf (t : Nat) (s : Bool) : max (intLow t) (min (if s then -(2 ^ 80) else 2 ^ 80) (intHigh t)) =
    if s then intLow t else intHigh t := by
  obtain ⟨h1, h2, h3⟩ := int_range t
  cases s
  · simp only [Bool.false_eq_true, if_false]
    omega
  · simp only [if_true]
    omega

/-! ## Conversions -/

theorem flushed_false (f : FFmt) (c : Nat) : flushed f false c = c := by simp [flushed]

/-- A finite code with its subnormals kept is read as its sign and a number of units. -/
theorem read_false_of_isFin {f : FFmt} {c : Nat} (h : IsFin f c) : ∃ m j : Nat,
    f.read false c = .fin (decide (IsNeg f c)) m (f.emin + j) ∧ mag f (c % f.signBit) = m * 2 ^ j := by
  obtain ⟨m, j, hr, hm, -⟩ := read_of_isFin (f := f) (z := false) (c := c) (by rwa [flushed_false])
  rw [flushed_false] at hr hm
  exact ⟨m, j, hr, hm⟩

theorem typeWrite_float {t : Nat} (h : 8 ≤ t) (rm : Rm) (v : FVal) : typeWrite t rm v = (typeFmt t).write rm false v := if_pos h

theorem typeRead_float {t : Nat} (h : 8 ≤ t) (c : Nat) : typeRead t c = (typeFmt t).read false c := if_pos h

/-- A source of an integer type is read as its exact value. -/
theorem typeRead_int {t : Nat} (h : t < 8) (c : Nat) : typeRead t c = .fin (decide (intVal t c < 0)) (intVal t c).natAbs 0 :=
  if_neg (Nat.not_le.2 h)

theorem typeWrite_int_nan {t : Nat} (h : t < 8) (rm : Rm) : typeWrite t rm .nan = 0 := if_neg (Nat.not_le.2 h)

theorem typeWrite_int_inf {t : Nat} (h : t < 8) (rm : Rm) (s : Bool) :
    typeWrite t rm (.inf s) = clampTo t (if s then -(2 ^ 80) else 2 ^ 80) := if_neg (Nat.not_le.2 h)

theorem typeWrite_int_fin {t : Nat} (h : t < 8) (rm : Rm) (s : Bool) (m : Nat) (e : Int) :
    typeWrite t rm (.fin s m e) = clampTo t (if s then -(cutTo rm s m e 0 : Int) else cutTo rm s m e 0) := if_neg (Nat.not_le.2 h)

/-- A result of CVT is a code of its type. -/
theorem typeWrite_lt (t : Nat) (rm : Rm) (v : FVal) : typeWrite t rm v < 2 ^ typeWidth t := by
  by_cases h : 8 ≤ t
  · rw [typeWrite_float h, ← width_typeFmt h, two_pow_width]
    exact write_lt (laneFmt_typeFmt t) rm false v
  · have h : t < 8 := Nat.lt_of_not_le h
    cases v with
    | nan => rw [typeWrite_int_nan h]; exact Nat.two_pow_pos _
    | inf s => rw [typeWrite_int_inf h]; exact clampTo_lt t _
    | fin s m e => rw [typeWrite_int_fin h]; exact clampTo_lt t _

section Cases
variable {td ts : Nat} {rm : Nat} (hrm : rm < 4) (a : Nat)

/-- A whole number is clamped (R108). -/
theorem int_to_int (hts : ts < 8) (htd : td < 8) :
    intVal td (typeWrite td rm (typeRead ts a)) = max (intLow td) (min (intVal ts a) (intHigh td)) := by
  rw [typeRead_int hts, typeWrite_int_fin htd, intVal_clampTo, cutTo_of_nonneg _ _ _ (Int.le_refl 0), Int.toNat_zero, Nat.pow_zero,
    Nat.mul_one]
  have : (if decide (intVal ts a < 0) then -((intVal ts a).natAbs : Int) else (intVal ts a).natAbs) = intVal ts a := by
    simp only [decide_eq_true_eq]
    split <;> omega
  rw [this]

include hrm

/-- A NaN becomes the canonical NaN, an infinity or a zero the one of its sign, and any other value is rounded once (R108). -/
theorem float_to_float (hf : LaneFmt (typeFmt ts)) (hg : LaneFmt (typeFmt td)) (hts : 8 ≤ ts) (htd : 8 ≤ td) :
    let f := typeFmt ts
    let g := typeFmt td
    let r := typeWrite td rm (typeRead ts a)
    (IsNaN f a → r = g.nan) ∧ (IsInf f a → IsInf g r ∧ (IsNeg g r ↔ IsNeg f a)) ∧
    (IsZero f a → IsZero g r ∧ (IsNeg g r ↔ IsNeg f a)) ∧
    (IsFin f a → ¬IsZero f a → Rounded g rm false (units f a) ((lowest g : Int) - lowest f) r) := by
  simp only [typeWrite_float htd, typeRead_float hts]
  generalize typeFmt ts = f at hf
  generalize typeFmt td = g at hg
  refine ⟨fun h => ?nan, fun h => ?inf, fun h => ?zero, fun h h0 => ?fin⟩
  case nan =>
    rw [read_of_isNaN ((flushed_false f a).symm ▸ h)]
    rfl
  case inf =>
    rw [read_of_isInf ((flushed_false f a).symm ▸ h), flushed_false, FFmt.write]
    simp only [decide_eq_true_eq]
    exact ⟨signed_mod _ (infCode_lt g), signed_isNeg _ (infCode_lt g)⟩
  case zero =>
    obtain ⟨m, j, hr, hm⟩ := read_false_of_isFin (f := f) (c := a) (by rw [IsFin, h]; exact hf.infCode_pos)
    rw [hr, (isZero_iff_significand hm).1 h, write_zero]
    simp only [decide_eq_true_eq]
    exact ⟨signed_mod (f := g) (q := 0) _ (signBit_pos g), signed_isNeg (f := g) (q := 0) _ (signBit_pos g)⟩
  case fin =>
    obtain ⟨m, j, hr, hm⟩ := read_false_of_isFin h
    have hm0 : mag f (a % f.signBit) ≠ 0 := mt mag_eq_zero_iff.1 h0
    have hx : units f a ≠ 0 := by
      rw [units_eq_signed]
      exact mt signed_eq_zero.1 hm0
    have hneg : decide (units f a < 0) = decide (IsNeg f a) := by
      rw [units_eq_signed, decide_eq_decide, signed_neg_iff hm0, decide_eq_true_eq]
    rw [hr, ← hneg]
    exact write_rounded hg hrm false hx (j := j) (by rw [hf.emin_eq, hg.emin_eq]; omega) (by rw [units_eq_signed, natAbs_signed, hm])

/-- A NaN becomes 0, and any other value is rounded to a whole number and clamped (R108). -/
theorem float_to_int (hf : LaneFmt (typeFmt ts)) (hts : 8 ≤ ts) (htd : td < 8) :
    let f := typeFmt ts
    let r := typeWrite td rm (typeRead ts a)
    (IsNaN f a → r = 0) ∧ (IsInf f a → intVal td r = if IsNeg f a then intLow td else intHigh td) ∧
    (IsFin f a → ∃ n, Whole rm (decide (IsNeg f a)) (mag f (a % f.signBit)) (2 ^ lowest f) n ∧
      intVal td r = max (intLow td) (min (if IsNeg f a then -(n : Int) else n) (intHigh td))) := by
  simp only [typeRead_float hts]
  generalize typeFmt ts = f at hf
  refine ⟨fun h => ?nan, fun h => ?inf, fun h => ?fin⟩
  case nan => rw [read_of_isNaN ((flushed_false f a).symm ▸ h), typeWrite_int_nan htd]
  case inf =>
    rw [read_of_isInf ((flushed_false f a).symm ▸ h), flushed_false, typeWrite_int_inf htd, intVal_clampTo, clamp_inf]
    simp only [decide_eq_true_eq]
  case fin =>
    obtain ⟨m, j, hr, hm⟩ := read_false_of_isFin h
    rw [hr, typeWrite_int_fin htd, intVal_clampTo]
    simp only [decide_eq_true_eq]
    refine ⟨_, whole_cutTo hrm _ m (f.emin + j) (Nat.two_pow_pos _) ?_, rfl⟩
    rw [hm, Nat.mul_assoc, Nat.mul_assoc, ← Nat.pow_add, ← Nat.pow_add, hf.emin_eq]
    congr 2
    omega

/-- A whole number is rounded once (R108). -/
theorem int_to_float (hg : LaneFmt (typeFmt td)) (hts : ts < 8) (htd : 8 ≤ td) :
    let g := typeFmt td
    let r := typeWrite td rm (typeRead ts a)
    (intVal ts a = 0 → r = 0) ∧ (intVal ts a ≠ 0 → Rounded g rm false (intVal ts a) (lowest g) r) := by
  simp only [typeWrite_float htd, typeRead_int hts]
  refine ⟨fun h => ?zero, fun h => ?rounded⟩
  case zero =>
    rw [h, Int.natAbs_zero, write_zero]
    rfl
  case rounded => exact write_rounded hg hrm false h (j := 0) (by rw [hg.emin_eq]; omega) (by rw [Nat.pow_zero, Nat.mul_one])

/-- CVT makes of a code the one that the case of its two types names (R108). -/
theorem converted_typeWrite : Converted td ts rm a (typeWrite td rm (typeRead ts a)) :=
  ⟨typeWrite_lt td rm _, float_to_float hrm a (laneFmt_typeFmt ts) (laneFmt_typeFmt td),
    float_to_int hrm a (laneFmt_typeFmt ts), int_to_float hrm a (laneFmt_typeFmt td), int_to_int a⟩

end Cases

/-! ## The registers -/

/-- The sub-elements of CVT's result fit in a register. -/
theorem width_mul_count (td ts : Nat) : typeWidth td * (64 / max (typeWidth ts) (typeWidth td)) ≤ 64 :=
  Nat.le_trans (Nat.mul_le_mul_right _ (Nat.le_max_right _ _)) (Nat.mul_div_le 64 _)

/-- The rule of CVT (R107, R108). -/
theorem convertRules : ConvertRules := by
  intro o
  refine laneResult_of_run (fun _ => exec_cvt) ⟨_, List.mem_cons_self, by rw [← laneNo_zero]; rfl⟩ fun d f => ?_
  rw [cvt_eq_fields]
  refine ⟨fun j hj => ?_, fun i hi => ?_⟩
  · rw [elem_fields (width_mul_count _ _) (fun j _ => typeWrite_lt _ _ _) hj]
    exact converted_typeWrite o.rnd.isLt _
  · exact fields_getLsbD_of_ge (width_mul_count _ _) (fun j _ => typeWrite_lt _ _ _) (typeWidth_pos _) hi

/-- The rules of PACK and UNPACK (R114, R115). -/
theorem packAndUnpackRules : PackAndUnpackRules := by
  intro o
  refine ⟨?pack, ?unpack⟩
  case pack =>
    exact laneResult_of_run (fun _ => exec_pack) ⟨_, List.mem_cons_self, rfl⟩ fun _ _ j hj i hi => pack_getLsbD o.ty _ _ hj hi
  case unpack =>
    exact laneResult_of_run (fun _ => exec_unpack) ⟨_, List.mem_cons_self, rfl⟩ fun _ _ j hj i hi => unpack_getLsbD o.ty _ _ hj hi

/-- Settles O9: CVT by the case of the two types, its results put side by side; PACK and UNPACK bit by bit. -/
theorem conversions : Obligations.Conversions := by
  unfold Obligations.Conversions
  exact ⟨convertRules, packAndUnpackRules⟩

end Sys2Proof.Stmt
end

section
/-! SUPPORT. Vectors across the home lanes, cut into segments (05: R109). -/

namespace Sys2Proof.Machine

/-! ## Lists by number -/

theorem nth_map {α β : Type} (g : α → β) (l : List α) {i : Nat} (hi : i < l.length) (x : α) (y : β) :
    nth (l.map g) i y = g (nth l i x) := by simp [nth, List.getD, hi]

theorem nth_map_range {α : Type} (g : Nat → α) {n i : Nat} (hi : i < n) (y : α) : nth ((List.range n).map g) i y = g i := by
  simp [nth, List.getD, hi]

theorem nth_append_left {α : Type} (l k : List α) {i : Nat} (hi : i < l.length) (x : α) : nth (l ++ k) i x = nth l i x := by
  rw [nth, nth, List.getD, List.getD, List.getElem?_append_left hi]

theorem nth_append_right {α : Type} (l k : List α) {i : Nat} (hi : l.length ≤ i) (x : α) :
    nth (l ++ k) i x = nth k (i - l.length) x := by
  rw [nth, nth, List.getD, List.getD, List.getElem?_append_right hi]

/-- The members of a list are its elements by number. -/
theorem mem_iff_nth {α : Type} (l : List α) (a x : α) : a ∈ l ↔ ∃ i < l.length, nth l i x = a := by
  rw [List.mem_iff_getElem]
  constructor
  · rintro ⟨i, hi, h⟩
    exact ⟨i, hi, by simpa [nth, List.getD, hi] using h⟩
  · rintro ⟨i, hi, h⟩
    exact ⟨i, hi, by simpa [nth, List.getD, hi] using h⟩

/-- What holds of the members of a list, and of the value read past its end, holds of every element. -/
theorem nth_of_forall {α : Type} {p : α → Prop} {l : List α} (h : ∀ a ∈ l, p a) {x : α} (hx : p x) (i : Nat) : p (nth l i x) := by
  by_cases hi : i < l.length
  · exact h _ ((mem_iff_nth l _ x).2 ⟨i, hi, rfl⟩)
  · simpa [nth, List.getD, hi] using hx

/-- Of joined pairs each half is found at its place. -/
theorem getElem?_flatten_pairs {α β : Type} (g h : α → β) (l : List α) (b : Nat) :
    (l.map fun q => [g q, h q]).flatten[2 * b]? = l[b]?.map g ∧ (l.map fun q => [g q, h q]).flatten[2 * b + 1]? = l[b]?.map h := by
  induction l generalizing b with
  | nil => simp
  | cons a l ih =>
    cases b with
    | zero => simp
    | succ b => simpa [Nat.mul_succ] using ih b

theorem length_flatten_pairs {α β : Type} (g h : α → β) (l : List α) :
    (l.map fun q => [g q, h q]).flatten.length = 2 * l.length := by
  induction l with
  | nil => rfl
  | cons a l ih =>
    rw [List.map_cons, List.flatten_cons, List.length_append, ih, List.length_cons, List.length_cons, List.length_cons, List.length_nil]
    omega

/-! ## Segments -/

/-- Segment `s` of `n` lanes. -/
def segment (n s : Nat) (x : List Nat) : List Nat := (x.drop (n * s)).take n

theorem mem_of_mem_segment {n s a : Nat} {x : List Nat} (h : a ∈ segment n s x) : a ∈ x := List.mem_of_mem_drop (List.mem_of_mem_take h)

theorem segment_length {n s : Nat} {x : List Nat} (h : n * (s + 1) ≤ x.length) : (segment n s x).length = n := by
  rw [Nat.mul_succ] at h
  simp [segment]
  omega

theorem nth_segment (n s : Nat) (x : List Nat) {i : Nat} (hi : i < n) : nth (segment n s x) i 0 = nth x (n * s + i) 0 := by
  simp [nth, List.getD, segment, hi]

theorem segments_16 {x : List Nat} (h : x.length = 32) : segments 16 x = [segment 16 0 x, segment 16 1 x] := by
  have : (x.drop 16).take 16 = x.drop 16 := List.take_of_length_le (by simp [h])
  simp [segments, segment, this]

theorem segments_32 {x : List Nat} (h : x.length = 32) : segments 32 x = [segment 32 0 x] := by
  have : x.take 32 = x := List.take_of_length_le (by omega)
  simp [segments, segment, this]

/-- Where each segment is replaced by a list of its length, a lane is found in its own segment. -/
theorem nth_flatten_segments {n : Nat} (hn : n = 16 ∨ n = 32) {h : List Nat → List Nat} (hlen : ∀ y, (h y).length = y.length)
    {x : List Nat} (hx : x.length = 32) {l : Nat} (hl : l < 32) :
    nth ((segments n x).map h).flatten l 0 = nth (h (segment n (l / n) x)) (l % n) 0 := by
  rcases hn with rfl | rfl
  · have h0 : (h (segment 16 0 x)).length = 16 := by rw [hlen, segment_length (by omega)]
    have h1 : (h (segment 16 1 x)).length = 16 := by rw [hlen, segment_length (by omega)]
    simp only [segments_16 hx, List.map_cons, List.map_nil, List.flatten_cons, List.flatten_nil, List.append_nil]
    by_cases hlo : l < 16
    · rw [nth_append_left _ _ (by omega), show l / 16 = 0 by omega, show l % 16 = l by omega]
    · rw [nth_append_right _ _ (by omega), show l / 16 = 1 by omega, h0, show l % 16 = l - 16 by omega]
  · simp only [segments_32 hx, List.map_cons, List.map_nil, List.flatten_cons, List.flatten_nil, List.append_nil]
    rw [show l / 32 = 0 by omega, show l % 32 = l by omega]

/-! ## The vector of a register -/

theorem Dev.vector_length (d : Dev) (va j : Nat) : (d.vector va j).length = 32 := by simp [Dev.vector]

theorem Dev.nth_vector (d : Dev) (va j : Nat) {l : Nat} (hl : l < 32) :
    nth (d.vector va j) l 0 = (elem 32 (d.laneV va l) j).toNat := nth_map_range _ hl 0

theorem Dev.mem_vector_lt {d : Dev} {va j c : Nat} (h : c ∈ d.vector va j) : c < 2 ^ 32 := by
  simp only [Dev.vector, List.mem_map] at h
  obtain ⟨l, -, rfl⟩ := h
  exact BitVec.isLt _

end Sys2Proof.Machine
end

section
/-! HAD: the butterflies of R110 are sums and differences of binary32 codes, level by level (05: R109, R110). -/

namespace Sys2Proof.Stmt

open Machine

theorem laneFmt_f32 : LaneFmt .f32 := laneFmt_typeFmt 10

/-! ## The butterflies -/

/-- The vector after the butterflies at distances 1, 2, 4 and so on, `k` of them. -/
def levels (x : List Nat) : Nat → List Nat
  | 0 => x
  | k + 1 => butterfly (2 ^ k) (levels x k)

theorem butterfly_length (s : Nat) (x : List Nat) : (butterfly s x).length = x.length := by simp [butterfly]

theorem levels_length (x : List Nat) (k : Nat) : (levels x k).length = x.length := by
  induction k with
  | zero => rfl
  | succ k ih => rw [levels, butterfly_length, ih]

theorem hadamard_16 {x : List Nat} (h : x.length = 16) :
    hadamard x = (levels x 4).map fun v => FFmt.f32.mulC 0 false v 0x3E800000 := if_pos (by simpa using h)

theorem hadamard_of_ne {x : List Nat} (h : x.length ≠ 16) :
    hadamard x = (levels x 5).map fun v => FFmt.f32.mulC 0 false v 0x3E3504F3 := if_neg (by simpa using h)

theorem hadamard_length (x : List Nat) : (hadamard x).length = x.length := by
  by_cases h : x.length = 16
  · rw [hadamard_16 h, List.length_map, levels_length]
  · rw [hadamard_of_ne h, List.length_map, levels_length]

theorem mem_butterfly_lt {s c : Nat} {x : List Nat} (h : c ∈ butterfly s x) : c < 2 ^ 32 := by
  simp only [butterfly, List.mem_map] at h
  obtain ⟨i, -, rfl⟩ := h
  split <;> exact write_lt laneFmt_f32 0 false _

theorem mem_levels_lt {x : List Nat} (hx : ∀ c ∈ x, c < 2 ^ 32) (k : Nat) : ∀ c ∈ levels x k, c < 2 ^ 32 := by
  cases k with
  | zero => exact hx
  | succ k => exact fun c h => mem_butterfly_lt h

theorem mem_hadamard_lt {x : List Nat} : ∀ c ∈ hadamard x, c < 2 ^ 32 := by
  intro c hc
  by_cases h : x.length = 16
  · rw [hadamard_16 h, List.mem_map] at hc
    obtain ⟨v, -, rfl⟩ := hc
    exact write_lt laneFmt_f32 0 false _
  · rw [hadamard_of_ne h, List.mem_map] at hc
    obtain ⟨v, -, rfl⟩ := hc
    exact write_lt laneFmt_f32 0 false _

/-- Each element after a butterfly is the sum, or the difference, of two elements before it (R110). -/
theorem sum_butterfly {s i : Nat} {x : List Nat} (hx : ∀ c ∈ x, c < 2 ^ 32) (hi : i < x.length) :
    if i / s % 2 = 0 then Sum .f32 0 false (nth x i 0) (nth x (i + s) 0) (nth (butterfly s x) i 0)
    else Sum .f32 0 false (nth x (i - s) 0) (opposite .f32 (nth x i 0)) (nth (butterfly s x) i 0) := by
  have hlt (k : Nat) : nth x k 0 < 2 * FFmt.f32.signBit := nth_of_forall (p := (· < 2 ^ 32)) hx (by decide) k
  rw [butterfly, nth_map_range _ hi]
  simp only [beq_iff_eq]
  split
  · exact sum_addC laneFmt_f32 (by decide) false (hlt i) (hlt (i + s))
  · have hneg : nth x i 0 ^^^ 0x80000000 = opposite .f32 (nth x i 0) := xor_signBit (hlt i)
    rw [sub32, hneg]
    exact sum_addC laneFmt_f32 (by decide) false (hlt (i - s)) (opposite_lt (hlt i))

/-- The elements of a transform are those of the last level, scaled (R110). -/
theorem nth_hadamard {n : Nat} (hn : n = 16 ∨ n = 32) {x : List Nat} (hlen : x.length = n) {i : Nat} (hi : i < n) :
    nth (hadamard x) i 0 = FFmt.f32.mulC 0 false (nth (levels x n.log2) i 0) (if n = 16 then 0x3E800000 else 0x3E3504F3) := by
  rcases hn with rfl | rfl
  · rw [hadamard_16 hlen, nth_map _ _ (by rw [levels_length]; omega) 0]
    rfl
  · rw [hadamard_of_ne (by omega), nth_map _ _ (by rw [levels_length]; omega) 0]
    rfl

/-- The transform of a segment (R110). -/
theorem transform_hadamard {n : Nat} (hn : n = 16 ∨ n = 32) {x : List Nat} (hlen : x.length = n) (hx : ∀ c ∈ x, c < 2 ^ 32) :
    Transform n (fun i => nth x i 0) (fun i => nth (hadamard x) i 0) := by
  refine ⟨fun k i => nth (levels x k) i 0, fun i _ => rfl, fun k _ i hi => ?level, fun i hi => ?scale⟩
  case level => exact sum_butterfly (mem_levels_lt hx k) (by rw [levels_length]; omega)
  case scale =>
    simp only [nth_hadamard hn hlen hi]
    exact product_mulC laneFmt_f32 (by decide) false _ _

/-- Only the elements of the segment enter its transform. -/
theorem Transform.congr {n : Nat} {x x' y : Nat → Nat} (h : Transform n x y) (hx : ∀ i < n, x i = x' i) : Transform n x' y := by
  obtain ⟨l, h0, hk, hy⟩ := h
  exact ⟨l, fun i hi => (h0 i hi).trans (hx i hi), hk, hy⟩

/-! ## HAD -/

theorem hadamardTransformRules : HadamardTransformRules := by
  intro o ho
  have hn : o.imm.toNat = 16 ∨ o.imm.toNat = 32 := by
    rcases ho with h | h
    · exact Or.inl (h ▸ rfl)
    · exact Or.inr (h ▸ rfl)
  refine laneResult_of_run (fun _ => exec_had) ⟨_, List.mem_cons_self, by rw [← laneNo_zero]; rfl⟩ fun d f hl j hj => ?_
  generalize o.imm.toNat = n at hn
  have hseg : n * (f.lane / n + 1) ≤ 32 := by rcases hn with rfl | rfl <;> omega
  have hmod : f.lane % n < n := Nat.mod_lt _ (by omega)
  have hlen (j : Nat) : (segment n (f.lane / n) (d.vector o.va.toNat j)).length = n :=
    segment_length (by rw [Dev.vector_length]; exact hseg)
  refine ⟨fun i => nth (hadamard (segment n (f.lane / n) (d.vector o.va.toNat j))) i 0, ?_, ?_⟩
  · refine (transform_hadamard hn (hlen j) fun c hc => Dev.mem_vector_lt (mem_of_mem_segment hc)).congr fun i hi => ?_
    rw [nth_segment _ _ _ hi, Dev.nth_vector _ _ _ (by rw [Nat.mul_succ] at hseg; omega), Nat.mul_comm]
  · have hcode (j : Nat) : nth (hadamard (segment n (f.lane / n) (d.vector o.va.toNat j))) (f.lane % n) 0 < 2 ^ 32 :=
      nth_of_forall (p := (· < 2 ^ 32)) mem_hadamard_lt (by decide) _
    rw [elem_join _ _ hj (by simp)]
    simp only [nth_flatten_segments hn hadamard_length (Dev.vector_length d _ _) hl]
    obtain rfl | rfl : j = 0 ∨ j = 1 := by omega
    · exact Nat.mod_eq_of_lt (hcode 0)
    · exact Nat.mod_eq_of_lt (hcode 1)

end Sys2Proof.Stmt
end

section
/-! SUPPORT. The scales and the codes of a block format (05: R101, R103, R104, R112). -/

namespace Sys2Proof.Stmt

open Machine

/-! ## The largest magnitude -/

/-- The largest magnitude of the codes for which `p` holds, or 0. -/
def peak (p : Nat → Bool) (x : List Nat) : Nat := (x.filter p).foldl (fun m c => max m (mag32 c)) 0

/-- The greatest of a starting value and the values of a list's members. -/
theorem foldl_max_spec (g : Nat → Nat) (l : List Nat) (a : Nat) :
    a ≤ l.foldl (fun m c => max m (g c)) a ∧ (∀ c ∈ l, g c ≤ l.foldl (fun m c => max m (g c)) a) ∧
      (l.foldl (fun m c => max m (g c)) a = a ∨ ∃ c ∈ l, g c = l.foldl (fun m c => max m (g c)) a) := by
  induction l generalizing a with
  | nil => simp
  | cons b l ih =>
    obtain ⟨h1, h2, h3⟩ := ih (max a (g b))
    rw [List.foldl_cons]
    refine ⟨by omega, ?_, ?_⟩
    · intro c hc
      rcases List.mem_cons.1 hc with rfl | hc
      · omega
      · exact h2 c hc
    · rcases h3 with h3 | ⟨c, hc, h3⟩
      · rcases Nat.le_total a (g b) with h | h
        · exact Or.inr ⟨b, List.mem_cons_self, by omega⟩
        · exact Or.inl (by omega)
      · exact Or.inr ⟨c, List.mem_cons_of_mem b hc, h3⟩

/-- The largest magnitude of a block (R112). -/
theorem largest_peak {p : Nat → Prop} {q : Nat → Bool} {x : List Nat} (h : ∀ c ∈ x, q c = true ↔ p c) :
    Largest x.length (fun i => nth x i 0) p (peak q x) := by
  obtain ⟨-, hle, hmem⟩ := foldl_max_spec mag32 (x.filter q) 0
  constructor
  · intro i hi hp
    have hi' : nth x i 0 ∈ x := (mem_iff_nth x _ 0).2 ⟨i, hi, rfl⟩
    exact hle _ (List.mem_filter.2 ⟨hi', (h _ hi').2 hp⟩)
  · rcases hmem with h0 | ⟨c, hc, hm⟩
    · exact Or.inl h0
    · obtain ⟨hcx, hq⟩ := List.mem_filter.1 hc
      obtain ⟨i, hi, rfl⟩ := (mem_iff_nth x c 0).1 hcx
      exact Or.inr ⟨i, hi, (h _ hcx).1 hq, hm⟩

/-! ## Scales -/

/-- The scale of a largest magnitude (R112). -/
def scaleCode (nf a : Nat) : Nat := if a == 0 then 0 else ceilSc8 nf a

theorem gridMax_eq (nf : Nat) : gridMax nf = blockQ nf := by
  match nf with
  | 0 => rfl
  | 1 => rfl
  | _ + 2 => rfl

theorem sc8_eq (c : Nat) : sc8 c = scale8 c := rfl

/-- ceil_sc8 is the least code whose scale reaches the magnitude, or the largest code (R101). -/
theorem ceilSc8_spec (nf a : Nat) : 1 ≤ ceilSc8 nf a ∧ ceilSc8 nf a ≤ 0xFE ∧
    (ceilSc8 nf a = 0xFE ∨ a ≤ scale8 (ceilSc8 nf a) * blockQ nf * 2 ^ 110) ∧
    ∀ c, 1 ≤ c → c < ceilSc8 nf a → scale8 c * blockQ nf * 2 ^ 110 < a := by
  unfold ceilSc8
  simp only [gridMax_eq, sc8_eq]
  cases h : (List.range 254).find? fun i => decide (a ≤ scale8 (i + 1) * blockQ nf * 2 ^ 110) with
  | none =>
    refine ⟨by simp, by simp, Or.inl rfl, fun c h1 h2 => ?_⟩
    have := List.find?_range_eq_none.1 h (c - 1) (by simp at h2; omega)
    rw [Nat.sub_add_cancel h1] at this
    simpa using this
  | some k =>
    obtain ⟨hk, hmem, hlt⟩ := List.find?_range_eq_some.1 h
    have hk' := List.mem_range.1 hmem
    refine ⟨by simp, by simp; omega, Or.inr (by simpa using hk), fun c h1 h2 => ?_⟩
    have := hlt (c - 1) (by simp at h2; omega)
    rw [Nat.sub_add_cancel h1] at this
    simpa using this

theorem scaleOf_scaleCode (nf a : Nat) : ScaleOf nf a (scaleCode nf a) := by
  constructor
  · rintro rfl
    rfl
  · intro h
    rw [scaleCode, if_neg (by simpa using h)]
    exact ceilSc8_spec nf a

theorem scaleCode_lt (nf a : Nat) : scaleCode nf a < 2 ^ 8 := by
  obtain ⟨h0, h1⟩ := scaleOf_scaleCode nf a
  by_cases h : a = 0
  · rw [h0 h]; omega
  · obtain ⟨-, h2, -⟩ := h1 h
    omega

/-! ## The nearest magnitude -/

/-- `m` is the one of the first `n` codes with the least distance `far`, an even one where two are equally far. -/
def Nearest (far : Nat → Nat) (n m : Nat) : Prop :=
  m < n ∧ ∀ c < n, far m ≤ far c ∧ (far m = far c → c ≠ m → m % 2 = 0)

/-- A code between two others is not as far as both. -/
def Valley (far : Nat → Nat) (n : Nat) : Prop := ∀ a b c, a < b → b < c → c < n → far b < far a ∨ far b < far c

/-- One more code: it takes the place of the nearest one where it is nearer, or as near and even. -/
theorem Nearest.succ {far : Nat → Nat} {n m : Nat} (h : Nearest far n m) (hv : Valley far (n + 1)) :
    Nearest far (n + 1) (if far n < far m ∨ (far n = far m ∧ n % 2 = 0) then n else m) := by
  obtain ⟨hm, hle⟩ := h
  split
  next hup =>
    refine ⟨Nat.lt_succ_self n, fun c hc => ?_⟩
    rcases Nat.lt_succ_iff_lt_or_eq.1 hc with hc | rfl
    · have := (hle c hc).1
      omega
    · omega
  next hup =>
    refine ⟨Nat.lt_succ_of_lt hm, fun c hc => ?_⟩
    rcases Nat.lt_succ_iff_lt_or_eq.1 hc with hc | rfl
    · exact hle c hc
    · refine ⟨by omega, fun heq _ => ?_⟩
      -- the two nearest ones are neighbours, for a code between them would be nearer
      by_cases hnext : m + 1 = c
      · omega
      · have := (hle (m + 1) (by omega)).1
        have := hv m (m + 1) c (by omega) (by omega) (by omega)
        omega

/-- The choice between the best code so far and the next one, by their magnitudes. -/
def nearer (dist : Nat → Nat) (b : Option (Nat × Nat)) (g : Nat × Nat) : Option (Nat × Nat) :=
  match b with
  | none => some g
  | some b => if dist g.1 < dist b.1 || (dist g.1 == dist b.1 && g.2 % 2 == 0) then some g else some b

/-- The choice among the codes of a list of magnitudes `v`. -/
theorem foldl_nearer {dist v : Nat → Nat} {n : Nat} (hv : Valley (fun c => dist (v c)) (n + 1)) :
    ∃ m, ((List.range (n + 1)).map fun c => (v c, c)).foldl (nearer dist) none = some (v m, m) ∧
      Nearest (fun c => dist (v c)) (n + 1) m := by
  induction n with
  | zero =>
    refine ⟨0, rfl, Nat.one_pos, fun c hc => ?_⟩
    obtain rfl : c = 0 := by omega
    exact ⟨Nat.le_refl _, fun _ h => absurd rfl h⟩
  | succ n ih =>
    obtain ⟨m, hm, hn⟩ := ih fun a b c hab hbc hc => hv a b c hab hbc (by omega)
    refine ⟨_, ?_, hn.succ hv⟩
    rw [List.range_succ, List.map_append, List.foldl_append, hm, List.map_cons, List.map_nil, List.foldl_cons, List.foldl_nil, nearer]
    simp only [Bool.or_eq_true, Bool.and_eq_true, decide_eq_true_eq, beq_iff_eq]
    split <;> rfl

/-! ## The grid -/

/-- The grid is that of the block's magnitude codes. -/
theorem grid_eq (nf : Nat) : grid nf = (List.range (blockFinite nf)).map fun c => (blockMag nf c, c) := by
  match nf with
  | 0 => rfl
  | 1 => rfl
  | _ + 2 => rfl

/-- Magnitudes of a block format rise. -/
theorem blockMag_lt_succ {nf : Nat} {c : Nat} (hc : c + 1 < blockFinite nf) : blockMag nf c < blockMag nf (c + 1) := by
  have h0 : ∀ c < 61, blockMag 0 c < blockMag 0 (c + 1) := by decide
  have h1 : ∀ c < 15, blockMag 1 c < blockMag 1 (c + 1) := by decide
  have h2 : ∀ c < 3, blockMag 2 c < blockMag 2 (c + 1) := by decide
  match nf with
  | 0 => exact h0 c (by simp only [blockFinite] at hc; omega)
  | 1 => exact h1 c (by simp only [blockFinite] at hc; omega)
  | _ + 2 => exact h2 c (by simp only [blockFinite] at hc; omega)

theorem blockMag_lt {nf a b : Nat} (h : a < b) (hb : b < blockFinite nf) : blockMag nf a < blockMag nf b := by
  induction h with
  | refl => exact blockMag_lt_succ hb
  | step _ ih => exact Nat.lt_trans (ih (by omega)) (blockMag_lt_succ hb)

/-- The distance of a magnitude from a code's, in multiples of 2^-149 (R112). -/
def far (nf x s c : Nat) : Nat := ((x : Int) - (blockMag nf c * s : Nat)).natAbs

/-- Of three rising magnitudes the middle one is not the farthest from another magnitude. -/
theorem far_valley (nf x : Nat) {s : Nat} (hs : 0 < s) : Valley (far nf x s) (blockFinite nf) := by
  intro a b c hab hbc hc
  have h1 := Nat.mul_lt_mul_of_pos_right (blockMag_lt hab (Nat.lt_trans hbc hc)) hs
  have h2 := Nat.mul_lt_mul_of_pos_right (blockMag_lt hbc hc) hs
  unfold far
  omega

theorem blockFinite_pos (nf : Nat) : 0 < blockFinite nf := by
  unfold blockFinite
  split <;> omega

/-- toGrid chooses the nearest magnitude code (R112). -/
theorem gridOf_toGrid (nf x sc : Nat) : GridOf nf x sc (toGrid nf x sc) := by
  have hs : 0 < scale8 sc * 2 ^ 110 := Nat.mul_pos (Nat.mul_pos (by omega) (Nat.two_pow_pos _)) (Nat.two_pow_pos _)
  have hdist (c : Nat) : far nf x (scale8 sc * 2 ^ 110) c = if blockMag nf c * (scale8 sc * 2 ^ 110) ≤ x then
      x - blockMag nf c * (scale8 sc * 2 ^ 110) else blockMag nf c * (scale8 sc * 2 ^ 110) - x := by
    unfold far
    split <;> omega
  obtain ⟨n, hn⟩ : ∃ n, blockFinite nf = n + 1 := ⟨blockFinite nf - 1, by have := blockFinite_pos nf; omega⟩
  have hv := far_valley nf x hs
  rw [hn] at hv
  obtain ⟨m, hm, hnear⟩ := foldl_nearer (v := blockMag nf)
    (dist := fun g => if g * (scale8 sc * 2 ^ 110) ≤ x then x - g * (scale8 sc * 2 ^ 110) else g * (scale8 sc * 2 ^ 110) - x)
    (by simpa only [← hdist] using hv)
  have hgrid : toGrid nf x sc = m := by
    rw [← hn, ← grid_eq] at hm
    exact congrArg (fun o => (Option.map Prod.snd o).getD 0) hm
  simp only [← hdist, ← hn] at hnear
  rw [hgrid]
  exact hnear

end Sys2Proof.Stmt
end

section
/-! CVTNB and CVTNBX: the blocks of a batch, and the registers into which their codes and scales go (05: R109, R112, R113). -/

namespace Sys2Proof.Stmt

open Machine

/-! ## One block -/

/-- Whether a code lies below the threshold of its block (R112). -/
def isBelow (g amax c : Nat) : Bool := !(c % 2 ^ 31 == 0x7F800000) && decide (mag32 c * 2 ^ g < amax)

/-- Which of the two scales a code takes (R112). -/
def scaleBit (g amax c : Nat) : Nat := if isBelow g amax c then 0 else 1

/-- The scale a code takes. -/
def scaleFor (g amax s0 s1 c : Nat) : Nat := if scaleBit g amax c == 1 then s1 else s0

/-- The magnitude of a code under a scale (R112). -/
def magCode (nf sc c : Nat) : Nat :=
  if c % 2 ^ 31 == 0x7F800000 then (if nf == 0 then 62 else 2 ^ (codeWidth nf - 2) - 1)
  else if sc == 0 then 0 else toGrid nf (mag32 c) sc

/-- The code of an element: the scale it selects, its sign and its magnitude (R112). -/
def elementCode (nf g amax s0 s1 c : Nat) : Nat :=
  scaleBit g amax c * 2 ^ (codeWidth nf - 1) + c / 2 ^ 31 * 2 ^ (codeWidth nf - 2) + magCode nf (scaleFor g amax s0 s1 c) c

theorem quantise_of_nan {nf g : Nat} {x : List Nat} (h : ∃ c ∈ x, IsNaN .f32 c) :
    quantise nf g x = ⟨0xFF, 0xFF, x.map fun _ => 0⟩ := by
  obtain ⟨c, hc, hn⟩ := h
  exact if_pos (List.any_eq_true.2 ⟨c, hc, decide_eq_true hn⟩)

/-- The largest finite magnitude of a block (R112). -/
abbrev amaxOf (x : List Nat) : Nat := peak (fun c => !(c % 2 ^ 31 == 0x7F800000)) x

/-- The largest magnitude below the threshold (R112). -/
abbrev aloOf (g : Nat) (x : List Nat) : Nat := peak (isBelow g (amaxOf x)) x

theorem quantise_of_not_nan {nf g : Nat} {x : List Nat} (h : ∀ c ∈ x, ¬IsNaN .f32 c) :
    quantise nf g x = ⟨scaleCode nf (aloOf g x), scaleCode nf (amaxOf x),
      x.map (elementCode nf g (amaxOf x) (scaleCode nf (aloOf g x)) (scaleCode nf (amaxOf x)))⟩ := by
  refine if_neg fun hany => ?_
  obtain ⟨c, hc, hn⟩ := List.any_eq_true.1 hany
  exact h c hc (of_decide_eq_true hn)

theorem quantise_codes_length (nf g : Nat) (x : List Nat) : (quantise nf g x).codes.length = x.length := by
  by_cases h : ∃ c ∈ x, IsNaN .f32 c
  · rw [quantise_of_nan h, List.length_map]
  · rw [quantise_of_not_nan (by simpa using h), List.length_map]

theorem codeWidth_eq (nf : Nat) : codeWidth nf = blockWidth nf := by
  match nf with
  | 0 => rfl
  | 1 => rfl
  | _ + 2 => rfl

/-- Where no code is a NaN, the finite ones are those that are no infinity. -/
theorem not_inf_iff_isFin {c : Nat} (h : ¬IsNaN .f32 c) : (!(c % 2 ^ 31 == 0x7F800000)) = true ↔ IsFin .f32 c := by
  have hs : FFmt.f32.signBit = 2 ^ 31 := rfl
  have hi : FFmt.f32.infCode = 0x7F800000 := rfl
  simp only [IsNaN, IsFin, hs, hi] at h ⊢
  rw [Bool.not_eq_true', beq_eq_false_iff_ne]
  omega

theorem isBelow_iff {g amax c : Nat} (h : ¬IsNaN .f32 c) :
    isBelow g amax c = true ↔ IsFin .f32 c ∧ mag .f32 (c % 2 ^ 31) * 2 ^ g < amax := by
  rw [isBelow, Bool.and_eq_true, not_inf_iff_isFin h, decide_eq_true_eq]
  rfl

/-- An infinity takes the largest magnitude code of the block format. -/
theorem magCode_of_isInf {c : Nat} (h : IsInf .f32 c) (nf sc : Nat) : magCode nf sc c = if nf = 0 then 62 else blockFinite nf - 1 := by
  have hi : (c % 2 ^ 31 == 0x7F800000) = true := beq_iff_eq.2 h
  rw [magCode, if_pos hi]
  match nf with
  | 0 => rfl
  | 1 => rfl
  | _ + 2 => rfl

/-- Under the scale 0 a finite code has the magnitude 0. -/
theorem magCode_zero {c : Nat} (h : IsFin .f32 c) (nf : Nat) : magCode nf 0 c = 0 := by
  have hi : ¬(c % 2 ^ 31 == 0x7F800000) = true := mt beq_iff_eq.1 (Nat.ne_of_lt h)
  rw [magCode, if_neg hi, if_pos (beq_self_eq_true 0)]

/-- Under any other scale it has the nearest magnitude. -/
theorem magCode_of_isFin {c sc : Nat} (h : IsFin .f32 c) (hsc : sc ≠ 0) (nf : Nat) : magCode nf sc c = toGrid nf (mag32 c) sc := by
  have hi : ¬(c % 2 ^ 31 == 0x7F800000) = true := mt beq_iff_eq.1 (Nat.ne_of_lt h)
  rw [magCode, if_neg hi, if_neg (mt beq_iff_eq.1 hsc)]

theorem scaleBit_cases (g amax c : Nat) : scaleBit g amax c = 0 ∨ scaleBit g amax c = 1 := by
  unfold scaleBit
  split <;> simp

theorem scaleFor_eq (g amax s0 s1 c : Nat) : scaleFor g amax s0 s1 c = if scaleBit g amax c = 0 then s0 else s1 := by
  unfold scaleFor
  rcases scaleBit_cases g amax c with h | h <;> rw [h] <;> rfl

/-- The parts of the code of an element that is no NaN (R112). -/
theorem elementCode_spec (nf g amax s0 s1 : Nat) {c : Nat} (h : ¬IsNaN .f32 c) (hc : c < 2 ^ 32) :
    ∃ sel m, elementCode nf g amax s0 s1 c = sel * 2 ^ (blockWidth nf - 1) + c / 2 ^ 31 % 2 * 2 ^ (blockWidth nf - 2) + m ∧
      (IsFin .f32 c ∧ mag .f32 (c % 2 ^ 31) * 2 ^ g < amax → sel = 0) ∧
      (¬(IsFin .f32 c ∧ mag .f32 (c % 2 ^ 31) * 2 ^ g < amax) → sel = 1) ∧
      (IsInf .f32 c → m = if nf = 0 then 62 else blockFinite nf - 1) ∧
      (IsFin .f32 c → (if sel = 0 then s0 else s1) = 0 → m = 0) ∧
      (IsFin .f32 c → (if sel = 0 then s0 else s1) ≠ 0 →
        GridOf nf (mag .f32 (c % 2 ^ 31)) (if sel = 0 then s0 else s1) m) := by
  have hsign : c / 2 ^ 31 % 2 = c / 2 ^ 31 := Nat.mod_eq_of_lt (by omega)
  refine ⟨scaleBit g amax c, magCode nf (scaleFor g amax s0 s1 c) c, by rw [hsign, ← codeWidth_eq]; rfl,
    fun hb => if_pos ((isBelow_iff h).2 hb), fun hb => if_neg (mt (isBelow_iff h).1 hb), fun hi => magCode_of_isInf hi nf _,
    fun hf h0 => ?zero, fun hf h0 => ?grid⟩
  case zero => rw [scaleFor_eq, h0, magCode_zero hf]
  case grid =>
    rw [scaleFor_eq, magCode_of_isFin hf h0]
    exact gridOf_toGrid nf _ _

/-- A block is quantised as R112 says. -/
theorem quantised_quantise (nf g : Nat) {x : List Nat} (hx : ∀ c ∈ x, c < 2 ^ 32) :
    Quantised nf g x.length (fun i => nth x i 0) (quantise nf g x).s0 (quantise nf g x).s1 (fun i => nth (quantise nf g x).codes i 0) := by
  have hmem {i : Nat} (hi : i < x.length) : nth x i 0 ∈ x := (mem_iff_nth x _ 0).2 ⟨i, hi, rfl⟩
  constructor
  · rintro ⟨i, hi, hn⟩
    rw [quantise_of_nan ⟨_, hmem hi, hn⟩]
    exact ⟨rfl, rfl, fun k hk => nth_map _ _ hk 0 0⟩
  · intro h
    have hnot : ∀ c ∈ x, ¬IsNaN .f32 c := fun c hc => by
      obtain ⟨i, hi, rfl⟩ := (mem_iff_nth x c 0).1 hc
      exact h i hi
    rw [quantise_of_not_nan hnot]
    refine ⟨amaxOf x, aloOf g x, largest_peak fun c hc => not_inf_iff_isFin (hnot c hc), scaleOf_scaleCode nf _,
      largest_peak fun c hc => isBelow_iff (hnot c hc), scaleOf_scaleCode nf _, fun i hi => ?_⟩
    simp only [nth_map _ _ hi 0 0]
    exact elementCode_spec nf g _ _ _ (h i hi) (hx _ (hmem hi))

/-- The magnitude codes of a block format fit below its sign bit. -/
theorem magCode_lt (nf sc c : Nat) : magCode nf sc c < 2 ^ (codeWidth nf - 2) := by
  have hle : blockFinite nf ≤ 2 ^ (codeWidth nf - 2) := by
    match nf with
    | 0 => exact Nat.le_of_ble_eq_true rfl
    | 1 => exact Nat.le_of_ble_eq_true rfl
    | _ + 2 => exact Nat.le_of_ble_eq_true rfl
  unfold magCode
  split
  · split
    next h => rw [beq_iff_eq.1 h]; decide
    next h => exact Nat.sub_one_lt (Nat.ne_of_gt (Nat.two_pow_pos _))
  · split
    · exact Nat.two_pow_pos _
    · exact Nat.lt_of_lt_of_le (gridOf_toGrid nf _ _).1 hle

/-- The code of an element fits in a byte. -/
theorem elementCode_lt (nf g amax s0 s1 : Nat) {c : Nat} (hc : c < 2 ^ 32) : elementCode nf g amax s0 s1 c < 2 ^ 8 := by
  have hm := magCode_lt nf (scaleFor g amax s0 s1 c) c
  have hsign : c / 2 ^ 31 * 2 ^ (codeWidth nf - 2) ≤ 1 * 2 ^ (codeWidth nf - 2) := Nat.mul_le_mul_right _ (by omega)
  have hsel : scaleBit g amax c * 2 ^ (codeWidth nf - 1) ≤ 1 * 2 ^ (codeWidth nf - 1) :=
    Nat.mul_le_mul_right _ (by rcases scaleBit_cases g amax c with h | h <;> omega)
  have hw : 2 ≤ codeWidth nf ∧ codeWidth nf ≤ 8 := by
    unfold codeWidth
    split <;> omega
  have h1 : 2 ^ (codeWidth nf - 1) = 2 * 2 ^ (codeWidth nf - 2) := by rw [← Nat.pow_succ']; congr 1; omega
  have h2 : 2 ^ (codeWidth nf - 2) ≤ 2 ^ 6 := Nat.pow_le_pow_right (by omega) (by omega)
  unfold elementCode
  omega

theorem mem_quantise_codes_lt {nf g : Nat} {x : List Nat} (hx : ∀ c ∈ x, c < 2 ^ 32) :
    ∀ c ∈ (quantise nf g x).codes, c < 2 ^ 8 := by
  by_cases h : ∃ c ∈ x, IsNaN .f32 c
  · rw [quantise_of_nan h]
    simp
  · rw [quantise_of_not_nan (by simpa using h), List.forall_mem_map]
    exact fun c hc => elementCode_lt nf g _ _ _ (hx c hc)

theorem quantise_scales_lt (nf g : Nat) (x : List Nat) : (quantise nf g x).s0 < 2 ^ 8 ∧ (quantise nf g x).s1 < 2 ^ 8 := by
  by_cases h : ∃ c ∈ x, IsNaN .f32 c
  · rw [quantise_of_nan h]
    exact ⟨Nat.lt_succ_self 255, Nat.lt_succ_self 255⟩
  · rw [quantise_of_not_nan (by simpa using h)]
    exact ⟨scaleCode_lt nf _, scaleCode_lt nf _⟩

/-! ## The blocks of a batch -/

/-- The lanes of a block (R112). -/
def blockLen (o : QuantOp) : Nat := if o.bl == 1 then 32 else 16

/-- A segment as it is quantised: after the transform where HF asks for it (R112). -/
def prepared (o : QuantOp) (x : List Nat) : List Nat := if o.hf == 0 then x else hadamard x

/-- A segment quantised under the fields of an instruction. -/
def quantised (o : QuantOp) (x : List Nat) : Quant := quantise o.nf.toNat (if o.g == 0 then 3 else o.g.toNat) (prepared o x)

/-- The block of segment `s` of sub-element `j`. -/
def block (d : Dev) (o : QuantOp) (j s : Nat) : Quant := quantised o (segment (blockLen o) s (d.vector o.va.toNat j))

theorem blocks_eq (d : Dev) (o : QuantOp) :
    d.blocks o = [0, 1].map fun j => (segments (blockLen o) (d.vector o.va.toNat j)).map (quantised o) := rfl

theorem blockLen_cases (o : QuantOp) : blockLen o = 16 ∨ blockLen o = 32 := by
  unfold blockLen
  split <;> simp

theorem prepared_length (o : QuantOp) (x : List Nat) : (prepared o x).length = x.length := by
  unfold prepared
  split
  · rfl
  · exact hadamard_length x

theorem mem_prepared_lt (o : QuantOp) {x : List Nat} (hx : ∀ c ∈ x, c < 2 ^ 32) : ∀ c ∈ prepared o x, c < 2 ^ 32 := by
  unfold prepared
  split
  · exact hx
  · exact mem_hadamard_lt

theorem quantised_codes_length (o : QuantOp) (x : List Nat) : (quantised o x).codes.length = x.length := by
  rw [quantised, quantise_codes_length, prepared_length]

/-- The codes of a block of the batch fit in bytes. -/
theorem nth_block_codes_lt (d : Dev) (o : QuantOp) (j s i : Nat) : nth (block d o j s).codes i 0 < 2 ^ 8 :=
  nth_of_forall (p := (· < 2 ^ 8)) (mem_quantise_codes_lt (mem_prepared_lt o fun _ hc => Dev.mem_vector_lt (mem_of_mem_segment hc)))
    (by decide) i

theorem blockLen_eq (o : QuantOp) : blockLen o = if o.bl = 1 then 32 else 16 := by simp [blockLen]

/-- Segment `s` of sub-element `j` is the block of the number R112 gives it. -/
theorem blockOf_block (d : Dev) (o : QuantOp) {j s : Nat} (hs : blockLen o * (s + 1) ≤ 32) :
    BlockOf o d (if o.bl = 1 then j else 2 * j + s) (block d o j s).s0 (block d o j s).s1 (fun i => nth (block d o j s).codes i 0) := by
  have hlen : (segment (blockLen o) s (d.vector o.va.toNat j)).length = blockLen o :=
    segment_length (by rw [Dev.vector_length]; exact hs)
  have hlt : ∀ c ∈ segment (blockLen o) s (d.vector o.va.toNat j), c < 2 ^ 32 := fun c hc => Dev.mem_vector_lt (mem_of_mem_segment hc)
  have hplace : (if o.bl = 1 then (if o.bl = 1 then j else 2 * j + s) else (if o.bl = 1 then j else 2 * j + s) / 2) = j ∧
      (if o.bl = 1 then 0 else (if o.bl = 1 then j else 2 * j + s) % 2 * 16) = blockLen o * s := by
    rw [blockLen_eq] at hs ⊢
    by_cases h : o.bl = 1
    · simp only [h, if_true, true_and] at hs ⊢
      omega
    · simp only [h, if_false] at hs ⊢
      omega
  obtain ⟨hsub, hbase⟩ := hplace
  have hx : ∀ i < blockLen o, nth (segment (blockLen o) s (d.vector o.va.toNat j)) i 0 =
      (elem 32 (d.laneV o.va.toNat (blockLen o * s + i)) j).toNat := fun i hi => by
    rw [nth_segment _ _ _ hi, Dev.nth_vector _ _ _ (by rw [Nat.mul_succ] at hs; omega)]
  unfold BlockOf
  simp only [hsub, hbase, ← blockLen_eq]
  refine ⟨fun i => nth (prepared o (segment (blockLen o) s (d.vector o.va.toNat j))) i 0, ?_, ?_⟩
  · unfold prepared
    simp only [beq_iff_eq]
    split
    · exact hx
    · exact (transform_hadamard (blockLen_cases o) hlen hlt).congr hx
  · have h := quantised_quantise o.nf.toNat (if o.g == 0 then 3 else o.g.toNat) (mem_prepared_lt o hlt)
    rw [prepared_length, hlen] at h
    simp only [beq_iff_eq] at h
    simpa only [block, quantised, beq_iff_eq] using h

/-! ## CVTNB -/

/-- The codes of the batch, by sub-element and lane, are those of the lane's block. -/
theorem nth_codes (d : Dev) (o : QuantOp) {j l : Nat} (hj : j < 2) (hl : l < 32) :
    nth (nth ((d.blocks o).map fun bs => (bs.map Quant.codes).flatten) j []) l 0 =
      nth (block d o j (l / blockLen o)).codes (l % blockLen o) 0 := by
  have h (j : Nat) := nth_flatten_segments (h := Quant.codes ∘ quantised o) (blockLen_cases o) (quantised_codes_length o)
    (Dev.vector_length d o.va.toNat j) hl
  simp only [blocks_eq, List.map_cons, List.map_nil, List.map_map]
  obtain rfl | rfl : j = 0 ∨ j = 1 := by omega
  · exact h 0
  · exact h 1

/-- CVTNB writes each member the codes of its own elements (R113). -/
theorem laneResult_cvtnb (o : QuantOp) : LaneResult (.cvtnb o) o.vd.toNat (fun d f v => f.lane < 32 →
    (∀ j < 2, ∃ s0 s1 code, BlockOf o d (if o.bl = 1 then j else 2 * j + f.lane / 16) s0 s1 code ∧
      (elem 8 v j).toNat = code (if o.bl = 1 then f.lane else f.lane % 16)) ∧
    ∀ i, 16 ≤ i → v.getLsbD i = false) := by
  refine laneResult_of_run (fun _ => exec_cvtnb) ⟨_, List.mem_cons_self, by rw [← laneNo_zero]; rfl⟩
    fun d f hl => ⟨fun j hj => ?codes, fun i hi => ?above⟩
  case above => exact join_getLsbD_of_ge _ hi
  case codes =>
    have hseg : blockLen o * (f.lane / blockLen o + 1) ≤ 32 := by
      rcases blockLen_cases o with h | h <;> rw [h] <;> omega
    have hb : (if o.bl = 1 then j else 2 * j + f.lane / 16) = if o.bl = 1 then j else 2 * j + f.lane / blockLen o := by
      rw [blockLen_eq]
      split <;> rfl
    have hi : (if o.bl = 1 then f.lane else f.lane % 16) = f.lane % blockLen o := by
      rw [blockLen_eq]
      split <;> omega
    refine ⟨_, _, _, hb ▸ blockOf_block d o hseg, ?_⟩
    rw [hi, elem_join _ _ hj (by simp)]
    simp only [nth_codes d o (show 0 < 2 by omega) hl, nth_codes d o (show 1 < 2 by omega) hl]
    obtain rfl | rfl : j = 0 ∨ j = 1 := by omega
    · exact Nat.mod_eq_of_lt (nth_block_codes_lt d o 0 _ _)
    · exact Nat.mod_eq_of_lt (nth_block_codes_lt d o 1 _ _)

/-! ## CVTNBX -/

/-- Block `b` of the batch (R112). -/
def blockAt (d : Dev) (o : QuantOp) (b : Nat) : Quant := if o.bl = 1 then block d o b 0 else block d o (b / 2) (b % 2)

theorem blockOf_blockAt (d : Dev) (o : QuantOp) (b : Nat) :
    BlockOf o d b (blockAt d o b).s0 (blockAt d o b).s1 (fun i => nth (blockAt d o b).codes i 0) := by
  unfold blockAt
  by_cases h : o.bl = 1
  · have hn : blockLen o = 32 := by rw [blockLen_eq, if_pos h]
    have := blockOf_block d o (j := b) (s := 0) (by omega)
    rw [if_pos h] at this
    rwa [if_pos h]
  · have := blockOf_block d o (j := b / 2) (s := b % 2) (by rw [blockLen_eq, if_neg h]; omega)
    rw [if_neg h, Nat.div_add_mod] at this
    rwa [if_neg h]

theorem blockAt_scales_lt (d : Dev) (o : QuantOp) (b : Nat) : (blockAt d o b).s0 < 2 ^ 8 ∧ (blockAt d o b).s1 < 2 ^ 8 := by
  unfold blockAt
  split <;> exact quantise_scales_lt _ _ _

/-- The blocks of the batch in the order of R113. -/
theorem flatten_blocks (d : Dev) (o : QuantOp) :
    (d.blocks o).flatten = (List.range (if o.bl = 1 then 2 else 4)).map (blockAt d o) := by
  rw [blocks_eq]
  by_cases h : o.bl = 1
  · have hb : blockAt d o = fun b => block d o b 0 := funext fun b => if_pos h
    have hn : blockLen o = 32 := by rw [blockLen_eq, if_pos h]
    rw [hb, if_pos h]
    simp only [block, hn, List.map_cons, List.map_nil, segments_32 (Dev.vector_length d _ _)]
    rfl
  · have hb : blockAt d o = fun b => block d o (b / 2) (b % 2) := funext fun b => if_neg h
    have hn : blockLen o = 16 := by rw [blockLen_eq, if_neg h]
    rw [hb, if_neg h]
    simp only [block, hn, List.map_cons, List.map_nil, segments_16 (Dev.vector_length d _ _)]
    rfl

/-- CVTNBX writes every member the scales of every block (R113). -/
theorem laneResult_cvtnbx (o : QuantOp) : LaneResult (.cvtnbx o) o.vd.toNat (fun d _ v =>
    (∀ b < (if o.bl = 1 then 2 else 4), ∃ code, BlockOf o d b (elem 8 v (2 * b)).toNat (elem 8 v (2 * b + 1)).toNat code) ∧
    (o.bl = 1 → ∀ i, 32 ≤ i → v.getLsbD i = false)) := by
  refine laneResult_of_run (fun _ => exec_cvtnbx) ⟨_, List.mem_cons_self, by rw [← laneNo_zero]; rfl⟩
    fun d _ => ⟨fun b hb => ?scales, fun h i hi => ?above⟩
  case above =>
    refine join_getLsbD_of_ge _ ?_
    rw [length_flatten_pairs, flatten_blocks, List.length_map, List.length_range, if_pos h]
    exact hi
  case scales =>
    have hfit : 8 * (((d.blocks o).flatten.map fun q => [BitVec.ofNat 8 q.s0, BitVec.ofNat 8 q.s1]).flatten).length ≤ 64 := by
      rw [length_flatten_pairs, flatten_blocks, List.length_map, List.length_range]
      split <;> omega
    have hget : (d.blocks o).flatten[b]? = some (blockAt d o b) := by
      rw [flatten_blocks, List.getElem?_map, List.getElem?_range hb, Option.map_some]
    obtain ⟨h0, h1⟩ := getElem?_flatten_pairs (fun q : Quant => BitVec.ofNat 8 q.s0) (fun q => BitVec.ofNat 8 q.s1)
      (d.blocks o).flatten b
    rw [hget] at h0 h1
    obtain ⟨hlt0, hlt1⟩ := blockAt_scales_lt d o b
    refine ⟨fun i => nth (blockAt d o b).codes i 0, ?_⟩
    rw [elem_join_of_getElem? h0 hfit, elem_join_of_getElem? h1 hfit, BitVec.toNat_ofNat, BitVec.toNat_ofNat, Nat.mod_eq_of_lt hlt0,
      Nat.mod_eq_of_lt hlt1]
    exact blockOf_blockAt d o b

theorem quantisationRules : QuantisationRules := fun o _ => ⟨laneResult_cvtnb o, laneResult_cvtnbx o⟩

/-- Settles O10: the transform by its butterflies; each block by its two scales and the grid; a batch by its blocks. In a block of zeros
every element selects S1, as the pseudocode of R112 has it and the tables of R113 and R115 have not: that is the model's choice (log 61). -/
theorem hadamardAndQuantisation : Obligations.HadamardAndQuantisation := by
  unfold Obligations.HadamardAndQuantisation
  exact ⟨hadamardTransformRules, quantisationRules⟩

end Sys2Proof.Stmt
end

section
/-! Shuffles across the home lanes (06: R121 to R123, R125). -/

namespace Sys2Proof.Stmt

open Machine

/-- Each sub-element of a shuffle is the one that R121 and R122 name. -/
theorem shuffleFrom_shuffle (d : Dev) (form : Shfl) (w va : Nat) (x : Nat → Nat) (f : Fibre) {j : Nat} (hj : j < 64 / w) :
    ShuffleFrom form w va d f (x j) j (elem w (d.shuffle form w va x f) j) := by
  rw [Dev.shuffle, elem_perElem _ j hj]
  cases form with
  | idx => rfl
  | xor => rfl
  | up =>
    simp only [ShuffleFrom, shflFrom]
    split
    next h => rw [if_neg (Nat.not_lt.2 h)]
    next h => rw [if_pos (Nat.not_le.1 h)]
  | dn =>
    simp only [ShuffleFrom, shflFrom]
    split
    next h => rw [if_neg (Nat.not_le.2 h)]
    next h => rw [if_pos (Nat.not_lt.1 h)]

/-- A register form of SHFL takes its index or distance from B, sub-element by sub-element (R122). -/
theorem laneResult_shflReg {i : Instr} {o : R3Op} {form : Shfl} (hexec : ∀ s, exec i s = shflReg i o form s)
    (huse : ∃ m l, usesOf i = Use.lane o.hv o.vd 16 m :: l) :
    LaneResult i (laneNo o.hv o.vd) fun d f v => ∀ j < 64 / widthOf o.ty,
      ShuffleFrom form (widthOf o.ty) (laneNo o.hv o.va) d f ((elem (widthOf o.ty) (ArgB d f o) j).toNat % 256) j
        (elem (widthOf o.ty) v j) := by
  obtain ⟨m, l, huse⟩ := huse
  exact laneResult_of_run hexec ⟨_, by rw [huse]; exact List.mem_cons_self, rfl⟩ fun d f j hj =>
    shuffleFrom_shuffle d form _ _ (fun j => (elem _ (ArgB d f o) j).toNat % 256) f hj

/-- A constant form of SHFL, or BCAST, takes its index or distance from the word (R122, R123). -/
theorem laneResult_shflImm {i : Instr} {o : Im8Op} {form : Shfl} (hexec : ∀ s, exec i s = shflImm i o form s)
    (huse : ∃ m l, usesOf i = Use.lane 0 o.vd 16 m :: l) :
    LaneResult i o.vd.toNat fun d f v => ∀ j < 64 / widthOf o.ty,
      ShuffleFrom form (widthOf o.ty) o.va.toNat d f o.imm.toNat j (elem (widthOf o.ty) v j) := by
  obtain ⟨m, l, huse⟩ := huse
  exact laneResult_of_run hexec ⟨_, by rw [huse]; exact List.mem_cons_self, by rw [← laneNo_zero]; rfl⟩ fun d f j hj =>
    shuffleFrom_shuffle d form _ _ (fun _ => o.imm.toNat) f hj

/-- An exchange of the low two bits of a home lane stays in its quad (R125). -/
theorem xor_eq_quad (l : Nat) {c : Nat} (hc : c < 4) : l ^^^ c = l / 4 * 4 + (l % 4 ^^^ c) := by
  have hdiv : (l ^^^ c) / 2 ^ 2 = l / 2 ^ 2 := by rw [Nat.xor_div_two_pow, Nat.div_eq_of_lt hc, Nat.xor_zero]
  have hmod : (l ^^^ c) % 2 ^ 2 = l % 2 ^ 2 ^^^ c := by rw [Nat.xor_mod_two_pow, Nat.mod_eq_of_lt hc]
  calc l ^^^ c = (l ^^^ c) / 2 ^ 2 * 2 ^ 2 + (l ^^^ c) % 2 ^ 2 := (Nat.div_add_mod' _ _).symm
    _ = l / 2 ^ 2 * 2 ^ 2 + (l % 2 ^ 2 ^^^ c) := by rw [hdiv, hmod]
    _ = l / 4 * 4 + (l % 4 ^^^ c) := rfl

/-- Settles O11: each sub-element of a shuffle by the place its form names, and QXCH by the lane's place in its quad. -/
theorem shuffles : Obligations.Shuffles := by
  unfold Obligations.Shuffles
  refine ⟨fun o => ⟨?idx, ?xor, ?up, ?dn⟩, fun o => ⟨?bcast, ?xorConst, ?upConst, ?dnConst, fun himm => ?qxch⟩⟩
  case idx => exact laneResult_shflReg (fun _ => exec_shflIdx) ⟨_, _, rfl⟩
  case xor => exact laneResult_shflReg (fun _ => exec_shflXor) ⟨_, _, rfl⟩
  case up => exact laneResult_shflReg (fun _ => exec_shflUp) ⟨_, _, rfl⟩
  case dn => exact laneResult_shflReg (fun _ => exec_shflDn) ⟨_, _, rfl⟩
  case bcast => exact laneResult_shflImm (fun _ => exec_bcast) ⟨_, _, rfl⟩
  case xorConst => exact laneResult_shflImm (fun _ => exec_shflXorConst) ⟨_, _, rfl⟩
  case upConst => exact laneResult_shflImm (fun _ => exec_shflUpConst) ⟨_, _, rfl⟩
  case dnConst => exact laneResult_shflImm (fun _ => exec_shflDnConst) ⟨_, _, rfl⟩
  case qxch =>
    exact laneResult_of_run (fun _ => exec_qxch) ⟨_, List.mem_cons_self, by rw [← laneNo_zero]; rfl⟩ fun d f => by
      rw [xor_eq_quad f.lane (show o.imm.toNat + 1 < 4 by omega)]

end Sys2Proof.Stmt
end

section
/-! SUPPORT. Sorting by a key: it keeps the members, orders them, and keeps the first member of each key. -/

namespace Sys2Proof.Machine

section Keys
variable {α : Type} {key : α → Nat}

theorem mem_insBy {x y : α} {l : List α} : x ∈ insBy key y l ↔ x = y ∨ x ∈ l := by
  induction l with
  | nil => exact List.mem_singleton.trans (or_iff_left List.not_mem_nil).symm
  | cons a l ih =>
    rw [insBy]
    split
    · exact List.mem_cons
    · rw [List.mem_cons, ih, List.mem_cons]
      exact or_left_comm

/-- Keys rise along a list. -/
abbrev Ascending (key : α → Nat) (l : List α) : Prop := l.Pairwise fun x y => key x ≤ key y

theorem ascending_insBy (y : α) {l : List α} (hl : Ascending key l) : Ascending key (insBy key y l) := by
  induction l with
  | nil => exact List.pairwise_singleton _ y
  | cons a l ih =>
    obtain ⟨ha, hl⟩ := List.pairwise_cons.1 hl
    rw [insBy]
    split
    next h =>
      refine List.pairwise_cons.2 ⟨fun x hx => ?_, List.pairwise_cons.2 ⟨ha, hl⟩⟩
      rcases List.mem_cons.1 hx with rfl | hx
      · exact Nat.le_of_lt h
      · exact Nat.le_trans (Nat.le_of_lt h) (ha x hx)
    next h =>
      refine List.pairwise_cons.2 ⟨fun x hx => ?_, ih hl⟩
      rcases mem_insBy.1 hx with rfl | hx
      · exact Nat.not_lt.1 h
      · exact ha x hx

/-- An insertion leaves the first member of a key the first, and adds one where there was none. -/
theorem find?_insBy (y : α) {l : List α} (hl : Ascending key l) (k : Nat) :
    (insBy key y l).find? (fun x => key x == k) = (l ++ [y]).find? fun x => key x == k := by
  induction l with
  | nil => rfl
  | cons a l ih =>
    obtain ⟨ha, hl⟩ := List.pairwise_cons.1 hl
    rw [insBy]
    split
    next h =>
      by_cases hk : key y = k
      · -- no member has the key, for all are above it
        have hnone : (a :: l).find? (fun x => key x == k) = none := by
          rw [List.find?_eq_none]
          intro x hx
          have : key a ≤ key x := by
            rcases List.mem_cons.1 hx with rfl | hx
            · exact Nat.le_refl _
            · exact ha x hx
          simp only [beq_iff_eq]
          omega
        rw [List.find?_append, hnone]
        simp [hk]
      · rw [List.find?_append]
        simp [hk]
    next h =>
      rw [List.find?_cons, List.cons_append, List.find?_cons, ih hl]

/-- A sort that has begun with a list in order. -/
theorem foldl_insBy_spec (l : List α) {acc : List α} (hacc : Ascending key acc) :
    Ascending key (l.foldl (fun acc x => insBy key x acc) acc) ∧
      (∀ x, x ∈ l.foldl (fun acc x => insBy key x acc) acc ↔ x ∈ acc ++ l) ∧
      ∀ k, (l.foldl (fun acc x => insBy key x acc) acc).find? (fun x => key x == k) = (acc ++ l).find? fun x => key x == k := by
  induction l generalizing acc with
  | nil => simpa using hacc
  | cons a l ih =>
    obtain ⟨h1, h2, h3⟩ := ih (ascending_insBy a hacc)
    refine ⟨h1, fun x => ?_, fun k => ?_⟩
    · rw [List.foldl_cons, h2, List.mem_append, mem_insBy, List.mem_append, List.mem_cons]
      exact (or_congr_left or_comm).trans or_assoc
    · rw [List.foldl_cons, h3, List.find?_append, find?_insBy a hacc, ← List.find?_append, List.append_assoc]
      rfl

theorem ascending_sortBy (l : List α) : Ascending key (sortBy key l) := (foldl_insBy_spec l List.Pairwise.nil).1

@[simp] theorem mem_sortBy {x : α} {l : List α} : x ∈ sortBy key l ↔ x ∈ l :=
  (foldl_insBy_spec l (acc := []) List.Pairwise.nil).2.1 x

/-- Sorting keeps the order of equal keys. -/
theorem find?_sortBy (l : List α) (k : Nat) : (sortBy key l).find? (fun x => key x == k) = l.find? fun x => key x == k :=
  (foldl_insBy_spec l (acc := []) List.Pairwise.nil).2.2 k

/-- The head of a sorted list has the least key. -/
theorem head?_sortBy {l : List α} {x : α} (hx : x ∈ l) : ∃ c ∈ l, (sortBy key l).head? = some c ∧ ∀ y ∈ l, key c ≤ key y := by
  have hasc := ascending_sortBy (key := key) l
  have hmem (y : α) : y ∈ sortBy key l ↔ y ∈ l := mem_sortBy
  cases hs : sortBy key l with
  | nil =>
    rw [hs] at hmem
    exact absurd ((hmem x).2 hx) List.not_mem_nil
  | cons c k =>
    rw [hs] at hasc hmem
    refine ⟨c, (hmem c).1 List.mem_cons_self, rfl, fun y hy => ?_⟩
    rcases List.mem_cons.1 ((hmem y).2 hy) with rfl | hy
    · exact Nat.le_refl _
    · exact (List.pairwise_cons.1 hasc).1 y hy

end Keys

end Sys2Proof.Machine
end

section
/-! VOTE and MATCH: the contributors of a batch, and the maps and votes over them (06: R126, R127). -/

namespace Sys2Proof.Stmt

open Machine

/-! ## Contributors -/

theorem mem_contributors {d : Dev} {m : Fibre} : m ∈ d.contributors ↔ Votes d m := by simp [Dev.contributors, Votes]

/-- The values a vote counts. -/
theorem mem_votes {d : Dev} {w va j : Nat} {x : Nat × BitVec w} :
    x ∈ d.votes w va j ↔ ∃ m, Votes d m ∧ (m.lane, elem w (d.readV m va) j) = x := by
  simp only [Dev.votes, List.mem_map, mem_contributors]

/-- The value of a home lane is that of its first member that is no helper. -/
theorem voteAt_eq (d : Dev) (w va j l : Nat) : d.voteAt w va j l =
    (d.active.find? fun m => !m.helper && m.lane == l).map fun m => elem w (d.readV m va) j := by
  have hfind : d.contributors.find? (fun m => m.lane == l) = d.active.find? fun m => !m.helper && m.lane == l := by
    rw [Dev.contributors, find?_sortBy, List.find?_filter]
    simp only [Bool.decide_and, Bool.decide_eq_true]
  rw [Dev.voteAt, Dev.votes, List.find?_map, Option.map_map]
  exact congrArg _ hfind

/-- The member whose FPCTL governs a float form has the lowest home lane. -/
theorem chief_spec {d : Dev} {f : Fibre} (hf : f ∈ d.active) : d.chief f ∈ d.active ∧ ∀ m ∈ d.active, (d.chief f).lane ≤ m.lane := by
  obtain ⟨c, hc, hhead, hle⟩ := head?_sortBy (key := Fibre.lane) hf
  have : d.chief f = c := by rw [Dev.chief, hhead]; rfl
  rw [this]
  exact ⟨hc, hle⟩

/-! ## Maps and votes -/

/-- A bit of a map (R126). -/
theorem laneMap_getLsbD {w : Nat} (xs : List (Nat × BitVec w)) (p : BitVec w → Bool) {l : Nat} (hl : l < w) :
    (laneMap w xs p).getLsbD l = true ↔ ∃ x ∈ xs, p x.2 = true ∧ x.1 = l := by
  have hbit (k : Nat) : ((1 <<< k : Nat) : BitVec w).getLsbD l = decide (k = l) := by
    rw [BitVec.natCast_eq_ofNat, BitVec.getLsbD_ofNat, Nat.one_shiftLeft, Nat.testBit_two_pow, decide_eq_true hl, Bool.true_and]
  have hfold (acc : BitVec w) : (xs.foldl (fun m x => if p x.2 then m ||| ((1 <<< x.1 : Nat) : BitVec w) else m) acc).getLsbD l = true ↔
      acc.getLsbD l = true ∨ ∃ x ∈ xs, p x.2 = true ∧ x.1 = l := by
    induction xs generalizing acc with
    | nil => simp
    | cons x xs ih =>
      rw [List.foldl_cons, ih]
      simp only [List.mem_cons, or_and_right, exists_or, exists_eq_left, ← or_assoc]
      split
      next hp =>
        rw [BitVec.getLsbD_or, Bool.or_eq_true, hbit, decide_eq_true_eq]
        simp [hp]
      next hp => simp [hp]
  exact (hfold 0).trans (by simp)

/-- The map of the contributors whose sub-element satisfies a condition. -/
theorem mapOf_laneMap (d : Dev) (w va j : Nat) (p : BitVec w → Bool) :
    MapOf w d (fun m => p (elem w (d.readV m va) j) = true) (laneMap w (d.votes w va j) p) := by
  intro l hl
  rw [laneMap_getLsbD _ _ hl]
  simp only [mem_votes]
  constructor
  · rintro ⟨-, ⟨m, hm, rfl⟩, hp, hlane⟩
    exact ⟨m, hm, hlane, hp⟩
  · rintro ⟨m, hm, hlane, hp⟩
    exact ⟨_, ⟨m, hm, rfl⟩, hp, hlane⟩

/-- A sub-element that is 1 where a condition holds and else 0 (R126). -/
def IsBit {w : Nat} (p : Prop) (r : BitVec w) : Prop := (p → r = 1) ∧ (¬p → r = 0)

theorem isBit_ite {w : Nat} {b : Bool} {p : Prop} (h : b = true ↔ p) : IsBit p (if b then 1 else 0 : BitVec w) :=
  ⟨fun hp => if_pos (h.2 hp), fun hp => if_neg (mt h.1 hp)⟩

section Vote
variable (d : Dev) (w va j : Nat)

/-- VOTE.any. -/
theorem isBit_vote_any : IsBit (∃ m, Votes d m ∧ elem w (d.readV m va) j ≠ 0) (vote w 0 (d.votes w va j)) := by
  refine isBit_ite (List.any_eq_true.trans ?_)
  simp only [mem_votes, bne_iff_ne]
  constructor
  · rintro ⟨-, ⟨m, hm, rfl⟩, hne⟩
    exact ⟨m, hm, hne⟩
  · rintro ⟨m, hm, hne⟩
    exact ⟨_, ⟨m, hm, rfl⟩, hne⟩

/-- VOTE.all. -/
theorem isBit_vote_all : IsBit (∀ m, Votes d m → elem w (d.readV m va) j ≠ 0) (vote w 1 (d.votes w va j)) := by
  refine isBit_ite (List.all_eq_true.trans ?_)
  simp only [mem_votes, bne_iff_ne]
  constructor
  · intro h m hm
    exact h _ ⟨m, hm, rfl⟩
  · rintro h - ⟨m, hm, rfl⟩
    exact h m hm

/-- The members of a list agree where they agree with the first. -/
theorem isBit_vote_agree (xs : List (Nat × BitVec w)) : IsBit (∀ x ∈ xs, ∀ y ∈ xs, x.2 = y.2) (vote w 2 xs) := by
  cases xs with
  | nil => exact isBit_ite (b := true) (by simp)
  | cons z xs =>
    refine isBit_ite (List.all_eq_true.trans ?_)
    simp only [beq_iff_eq]
    constructor
    · intro h
      have hz (x) (hx : x ∈ z :: xs) : x.2 = z.2 := by
        rcases List.mem_cons.1 hx with rfl | hx
        · rfl
        · exact h x hx
      exact fun x hx y hy => (hz x hx).trans (hz y hy).symm
    · exact fun h x hx => h x (List.mem_cons_of_mem z hx) z List.mem_cons_self

/-- VOTE.eq. -/
theorem isBit_vote_eq : IsBit (∀ m k, Votes d m → Votes d k → elem w (d.readV m va) j = elem w (d.readV k va) j)
    (vote w 2 (d.votes w va j)) := by
  have h : (∀ x ∈ d.votes w va j, ∀ y ∈ d.votes w va j, x.2 = y.2) ↔
      ∀ m k, Votes d m → Votes d k → elem w (d.readV m va) j = elem w (d.readV k va) j := by
    simp only [mem_votes]
    constructor
    · intro h m k hm hk
      exact h _ ⟨m, hm, rfl⟩ _ ⟨k, hk, rfl⟩
    · rintro h - ⟨m, hm, rfl⟩ - ⟨k, hk, rfl⟩
      exact h m k hm hk
  rw [← h]
  exact isBit_vote_agree w _

/-- VOTE.map. -/
theorem mapOf_vote : MapOf w d (fun m => elem w (d.readV m va) j ≠ 0) (vote w 3 (d.votes w va j)) := by
  have h := mapOf_laneMap d w va j (· != 0)
  simp only [bne_iff_ne] at h
  exact h

end Vote

/-! ## The rules -/

theorem votesAndMatchRules : VotesAndMatchRules := by
  refine ⟨fun o => ?vote, fun o => ?matchLanes⟩
  case vote =>
    refine laneResult_of_run (fun _ => exec_vote) ⟨_, List.mem_cons_self, rfl⟩ fun d f j hj => ?_
    rw [elem_perElem _ j hj]
    rcases ty_cases o.form with h | h | h | h <;> simp only [h]
    · exact isBit_vote_any d _ _ j
    · exact isBit_vote_all d _ _ j
    · exact isBit_vote_eq d _ _ j
    · exact mapOf_vote d _ _ j
  case matchLanes =>
    refine laneResult_of_run (fun _ => exec_matchLanes) ⟨_, List.mem_cons_self, rfl⟩ fun d f j hj => ?_
    have h := mapOf_laneMap d _ (laneNo o.hv o.va) j (· == elem (widthOf o.ty) (d.readV f (laneNo o.hv o.va)) j)
    rw [elem_perElem _ j hj]
    simpa only [beq_iff_eq] using h

end Sys2Proof.Stmt
end

section
/-! WRED and WSCAN: the operations of the table, the tree and the walk (06: R128, R129). -/

namespace Sys2Proof.Stmt

open Machine

/-! ## The tree and the walk -/

section Join
variable {w : Nat} (op : BitVec w → BitVec w → BitVec w) (x : Nat → Option (BitVec w))

theorem tree_succ (k i : Nat) : tree op x (k + 1) i = redJoin op (tree op x k i) (tree op x k (i + 2 ^ k)) := by
  rw [tree]
  cases tree op x k i <;> cases tree op x k (i + 2 ^ k) <;> rfl

theorem walkTo_succ (i : Nat) : walkTo op x (i + 1) = redJoin op (walkTo op x i) (x (i + 1)) := by
  rw [walkTo]
  cases walkTo op x i <;> cases x (i + 1) <;> rfl

/-- One level joins neighbouring places. -/
theorem redLevel_map_range (n : Nat) (y : Nat → Option (BitVec w)) : redLevel op ((List.range (2 * n)).map y) =
    (List.range n).map fun i => redJoin op (y (2 * i)) (y (2 * i + 1)) := by
  induction n generalizing y with
  | zero => rfl
  | succ n ih =>
    rw [Nat.mul_succ, List.range_succ_eq_map, List.range_succ_eq_map, List.range_succ_eq_map]
    simp only [List.map_cons, List.map_map, redLevel]
    exact congrArg _ (ih _)

/-- The first `n` places of the tree that stand after `k` rounds. -/
def places (k n : Nat) : List (Option (BitVec w)) := (List.range n).map fun i => tree op x k (i * 2 ^ k)

theorem redLevel_places {k m n : Nat} (h : m = 2 * n) : redLevel op (places op x k m) = places op x (k + 1) n := by
  rw [h, places, redLevel_map_range, places]
  refine List.map_congr_left fun i _ => ?_
  have hdouble : i * 2 ^ (k + 1) = 2 * i * 2 ^ k := by rw [Nat.pow_succ', ← Nat.mul_assoc, Nat.mul_comm i 2]
  rw [tree_succ, hdouble, Nat.add_mul, Nat.one_mul]

/-- Five levels over 32 places are the tree of R128. -/
theorem redTree_eq_tree : redTree op ((List.range 32).map x) = tree op x 5 0 := by
  have h : (List.range 32).map x = places op x 0 32 := List.map_congr_left fun i _ => by simp [tree]
  rw [redTree, h, redLevel_places op x (n := 16) rfl, redLevel_places op x (n := 8) rfl, redLevel_places op x (n := 4) rfl,
    redLevel_places op x (n := 2) rfl, redLevel_places op x (n := 1) rfl]
  rfl

/-- The scan is the walk of R129. -/
theorem scanTo_eq_walkTo (l : Nat) : scanTo op x l = walkTo op x l := by
  induction l with
  | zero => rfl
  | succ l ih => rw [walkTo_succ, ← ih, scanTo, List.range_succ, List.foldl_append]; rfl

end Join

/-! ## The operations -/

section Integers
variable {w : Nat} (a b : BitVec w)

theorem toInt_ite_sle_min : (if a.sle b then a else b).toInt = min a.toInt b.toInt := by
  simp only [BitVec.sle_iff_toInt_le]
  split <;> omega

theorem toInt_ite_sle_max : (if a.sle b then b else a).toInt = max a.toInt b.toInt := by
  simp only [BitVec.sle_iff_toInt_le]
  split <;> omega

theorem toNat_ite_ule_min : (if a.ule b then a else b).toNat = min a.toNat b.toNat := by
  simp only [BitVec.ule_iff_toNat_le]
  split <;> omega

theorem toNat_ite_ule_max : (if a.ule b then b else a).toNat = max a.toNat b.toNat := by
  simp only [BitVec.ule_iff_toNat_le]
  split <;> omega

/-- The greatest signed value, the empty value of a signed minimum. -/
theorem toInt_ofNat_greatest (hw : 0 < w) : (BitVec.ofNat w (2 ^ (w - 1) - 1)).toInt = 2 ^ (w - 1) - 1 := by
  have hpow : 2 ^ w = 2 * 2 ^ (w - 1) := by rw [← Nat.pow_succ', Nat.succ_eq_add_one, Nat.sub_add_cancel hw]
  have hpos : 0 < 2 ^ (w - 1) := Nat.two_pow_pos _
  have hnat : (BitVec.ofNat w (2 ^ (w - 1) - 1)).toNat = 2 ^ (w - 1) - 1 := by
    rw [BitVec.toNat_ofNat, Nat.mod_eq_of_lt (by omega)]
  have hcast : ((2 ^ (w - 1) : Nat) : Int) = 2 ^ (w - 1) := by push_cast; rfl
  rw [BitVec.toInt_eq_toNat_of_lt (by omega), hnat, ← hcast]
  omega

/-- The least signed value, the empty value of a signed maximum. -/
theorem toInt_ofNat_least (hw : 0 < w) : (BitVec.ofNat w (2 ^ (w - 1))).toInt = -2 ^ (w - 1) := by
  rw [← BitVec.toInt_intMin_of_pos hw]
  congr 1
  exact BitVec.eq_of_toNat_eq (by rw [BitVec.intMin, BitVec.toNat_twoPow, BitVec.toNat_ofNat])

end Integers

section Operations
variable {o : RedOp} {rm : Nat} (z : Bool)

/-- An integer operation and its empty value (R128, R129). -/
theorem reduces_of_int (h : o.op.toNat ≤ 4) {w : Nat} (hw : 0 < w) :
    Reduces o rm z w (redStep o.op.toNat o.ty rm z) (redEmpty o.op.toNat o.ty w) := by
  obtain h | h | h | h | h : o.op.toNat = 0 ∨ o.op.toNat = 1 ∨ o.op.toNat = 2 ∨ o.op.toNat = 3 ∨ o.op.toNat = 4 := by omega
  all_goals unfold Reduces redStep redEmpty; rw [h]
  · exact ⟨fun _ _ => rfl, rfl⟩
  · exact ⟨toInt_ite_sle_min, toInt_ofNat_greatest hw⟩
  · exact ⟨toNat_ite_ule_min, rfl⟩
  · exact ⟨toInt_ite_sle_max, toInt_ofNat_least hw⟩
  · exact ⟨toNat_ite_ule_max, rfl⟩

/-- A float operation and its empty value (R128, R129). -/
theorem reduces_of_float (h : 8 ≤ o.op.toNat ∧ o.op.toNat ≤ 10) (hrm : rm < 4) :
    Reduces o rm z (fwidthOf o.ty) (redStep o.op.toNat o.ty rm z) (redEmpty o.op.toNat o.ty (fwidthOf o.ty)) := by
  have hf : LaneFmt (FFmt.ofTy o.ty) := laneFmt_ofTy o.ty
  have hcode (a : BitVec (fwidthOf o.ty)) : a.toNat < 2 * (FFmt.ofTy o.ty).signBit := by
    rw [← two_pow_width, width_ofTy]
    exact a.isLt
  have hinf := infCode_lt (FFmt.ofTy o.ty)
  have hwrite (p : Nat → Prop) (v : FVal) (hp : p ((FFmt.ofTy o.ty).write rm z v)) :
      p (BitVec.ofNat (fwidthOf o.ty) ((FFmt.ofTy o.ty).write rm z v)).toNat := (toNat_ofNat_code o.ty (write_lt hf rm z v)).symm ▸ hp
  obtain h | h | h : o.op.toNat = 8 ∨ o.op.toNat = 9 ∨ o.op.toNat = 10 := by omega
  all_goals unfold Reduces redStep redEmpty; rw [h]
  · exact ⟨fun a b => hwrite (Sum _ rm z a.toNat b.toNat) _ (sum_addC hf hrm z (hcode a) (hcode b)), rfl⟩
  · exact ⟨fun a b => hwrite (Extreme _ z true a.toNat b.toNat) _ (extreme_minNum hf hrm z (hcode a) (hcode b)),
      toNat_ofNat_code o.ty (by omega)⟩
  · exact ⟨fun a b => hwrite (Extreme _ z false a.toNat b.toNat) _ (extreme_maxNum hf hrm z (hcode a) (hcode b)),
      toNat_ofNat_code o.ty (by omega)⟩

/-- Every operation of the table, under the FPCTL of a member (R128 to R130). -/
theorem reduces_redStep (h : o.op.toNat ≤ 4 ∨ (8 ≤ o.op.toNat ∧ o.op.toNat ≤ 10)) (c : Fibre) :
    Reduces o (rmOf c) (ftzOf c) (redWidth o) (redStep o.op.toNat o.ty c.rm c.ftz) (redEmpty o.op.toNat o.ty (redWidth o)) := by
  rw [rm_eq_rmOf]
  rcases h with h | h
  · exact reduces_of_int _ h (by rw [redWidth, if_pos h]; rcases widthOf_cases o.ty with hw | hw | hw | hw <;> omega)
  · rw [show redWidth o = fwidthOf o.ty from if_neg (by omega)]
    exact reduces_of_float _ h (rmOf_lt c)

end Operations

/-! ## The obligation -/

/-- What holds of the values in the active fibres is a rule of the instruction. -/
theorem LaneResult.of_active {i : Instr} {vd : Nat} {val : Dev → Fibre → W64 → Prop}
    (h : LaneResult i vd fun d f v => f ∈ d.active → val d f v) : LaneResult i vd val := by
  intro s hs
  obtain ⟨t, hnext, honly, hothers, hfound⟩ := h s hs
  refine ⟨t, hnext, honly, hothers, fun f hf => ?_⟩
  obtain ⟨g, hg, hval, hrest⟩ := hfound f hf
  exact ⟨g, hg, hval hf, hrest⟩

/-- A reduction or scan whose values are those that `comb` makes of the contributors' (R128, R129). -/
theorem reduction_perElem {o : RedOp} (hop : o.op.toNat ≤ 4 ∨ (8 ≤ o.op.toNat ∧ o.op.toNat ≤ 10)) {d : Dev} {f : Fibre}
    (hf : f ∈ d.active) (comb : {w : Nat} → (BitVec w → BitVec w → BitVec w) → (Nat → Option (BitVec w)) → Fibre → Option (BitVec w)) :
    Reduction o comb d f (perElem (redWidth o) fun j =>
      (comb (redStep o.op.toNat o.ty (d.chief f).rm (d.chief f).ftz) (d.voteAt (redWidth o) (laneNo o.hv o.va) j) f).getD
        (redEmpty o.op.toNat o.ty (redWidth o))) := by
  obtain ⟨hmem, hle⟩ := chief_spec hf
  refine ⟨d.chief f, hmem, hle, _, _, reduces_redStep hop (d.chief f), fun j hj => ?_⟩
  rw [elem_perElem _ j hj, funext (voteAt_eq d (redWidth o) (laneNo o.hv o.va) j)]

theorem reductionsAndScansRules : ReductionsAndScansRules := by
  refine fun o hop => ⟨?wred, ?wscan⟩
  case wred =>
    refine LaneResult.of_active (laneResult_of_run (fun _ => exec_wred) ⟨_, List.mem_cons_self, rfl⟩ fun d f hf => ?_)
    simp only [redTree_eq_tree]
    exact reduction_perElem hop hf fun op x _ => tree op x 5 0
  case wscan =>
    refine LaneResult.of_active (laneResult_of_run (fun _ => exec_wscan) ⟨_, List.mem_cons_self, rfl⟩ fun d f hf => ?_)
    simp only [scanTo_eq_walkTo]
    exact reduction_perElem hop hf fun op x f => walkTo op x f.lane

/-- Settles O12: votes and maps over the contributors; a reduction by its tree and a scan by its walk, with the operation of the table. -/
theorem votesReductionsAndScans : Obligations.VotesReductionsAndScans := by
  unfold Obligations.VotesReductionsAndScans
  exact ⟨votesAndMatchRules, reductionsAndScansRules⟩

end Sys2Proof.Stmt
end

section
/-! SUPPORT. Transfers: where the fibres of a batch continue, and the link a call leaves (06: R131 to R135). -/

namespace Sys2Proof.Machine

/-! ## Where one fibre continues -/

/-- A fibre continues at a target, or goes on sequentially (R131, R132). -/
def Fibre.goTo (f : Fibre) : Option Addr48 → Fibre
  | some a => { f with pc := a }
  | none => f.goOn

@[simp] theorem Fibre.goTo_core (f : Fibre) (a : Option Addr48) : (f.goTo a).core = f.core := by cases a <;> simp [Fibre.goTo]
@[simp] theorem Fibre.goTo_slot (f : Fibre) (a : Option Addr48) : (f.goTo a).slot = f.slot := by cases a <;> simp [Fibre.goTo]
@[simp] theorem Fibre.goTo_lane (f : Fibre) (a : Option Addr48) : (f.goTo a).lane = f.lane := by cases a <;> simp [Fibre.goTo]
@[simp] theorem Fibre.goTo_win (f : Fibre) (a : Option Addr48) : (f.goTo a).win = f.win := by cases a <;> simp [Fibre.goTo]
@[simp] theorem Fibre.goTo_pred (f : Fibre) (a : Option Addr48) : (f.goTo a).pred = f.pred := by cases a <;> simp [Fibre.goTo]
@[simp] theorem Fibre.goTo_infl (f : Fibre) (a : Option Addr48) : (f.goTo a).infl = f.infl := by cases a <;> simp [Fibre.goTo]
@[simp] theorem Fibre.goTo_outst (f : Fibre) (a : Option Addr48) : (f.goTo a).outst = f.outst := by cases a <;> simp [Fibre.goTo]

/-- Each active fibre that did not trap continues where `dest` says. -/
theorem Dev.transfer_eq (d : Dev) (stl : BitVec 2) (l : Bool) (dest : Fibre → Option Addr48) : d.transfer stl l dest =
    { (d.updActive fun f => if f.trapped then f
        else (f.goTo (dest f)).issued d.cycle (d.pass d.cur.core) l (stall stl) d.free) with free := d.free + 1 } := by
  refine congrArg (fun g => ({ d.updActive g with free := d.free + 1 } : Dev)) (funext fun f => ?_)
  cases dest f <;> rfl

/-- Going on is a transfer without a target. -/
theorem Dev.advance_eq_transfer (d : Dev) (stl : BitVec 2) (l : Bool) : d.advance stl l = d.transfer stl l fun _ => none := rfl

section Transfer
variable {d : Dev} {g : Fibre → Fibre} (hg : ∀ f, (g f).core = f.core ∧ (g f).slot = f.slot ∧ (g f).lane = f.lane)
  (stl : BitVec 2) (l : Bool) (dest : Fibre → Option Addr48)
include hg

/-- After an update of the active fibres and a transfer, an active fibre is found changed, where `dest` says. -/
theorem Dev.fibre?_transfer_mem {f : Fibre} (hf : f ∈ d.active) (ht : (g f).trapped = false) :
    ((d.updActive g).transfer stl l dest).fibre? f.core f.slot f.lane =
      some (((g f).goTo (dest (g f))).issued d.cycle (d.pass d.cur.core) l (stall stl) d.free) := by
  rw [Dev.transfer_eq, Dev.updActive_updActive _ _ _ hg, Dev.fibre?_free, Dev.fibre?_updActive_mem _ hf]
  · simp only [Function.comp, ht, Bool.false_eq_true, if_false, Dev.updActive_cycle, Dev.updActive_cur, Dev.updActive_free]
    rfl
  · intro f
    simp only [Function.comp]
    split <;> simp [hg f]

/-- After an update of the active fibres and a transfer, the other fibres are as they were. -/
theorem Dev.fibre?_transfer_other {c n k : Nat} (ho : ¬(c = d.cur.core ∧ (n, k) ∈ d.cur.members)) :
    ((d.updActive g).transfer stl l dest).fibre? c n k = d.fibre? c n k := by
  rw [Dev.transfer_eq, Dev.updActive_updActive _ _ _ hg, Dev.fibre?_free]
  refine Dev.fibre?_updActive_other (fun f => ?_) ho
  simp only [Function.comp]
  split <;> simp [hg f]

end Transfer

/-! ## The link -/

/-- A fibre whose return address is outstanding for the link, where the instruction has one (R133). -/
def Fibre.linked (link : Option Nat) (f : Fibre) : Fibre :=
  match link with
  | some n => (landV f (.v n)).owe n (linkOf f.pc) (BitVec.allOnes 64)
  | none => f

theorem Fibre.linked_place (link : Option Nat) (f : Fibre) :
    (f.linked link).core = f.core ∧ (f.linked link).slot = f.slot ∧ (f.linked link).lane = f.lane := by
  cases link <;> exact ⟨rfl, rfl, rfl⟩

@[simp] theorem Fibre.linked_trapped (link : Option Nat) (f : Fibre) : (f.linked link).trapped = f.trapped := by cases link <;> rfl
@[simp] theorem Fibre.linked_pc (link : Option Nat) (f : Fibre) : (f.linked link).pc = f.pc := by cases link <;> rfl
@[simp] theorem Fibre.linked_lp0 (link : Option Nat) (f : Fibre) : (f.linked link).lp0 = f.lp0 := by cases link <;> rfl
@[simp] theorem Fibre.linked_lp1 (link : Option Nat) (f : Fibre) : (f.linked link).lp1 = f.lp1 := by cases link <;> rfl
@[simp] theorem Fibre.linked_lp2 (link : Option Nat) (f : Fibre) : (f.linked link).lp2 = f.lp2 := by cases link <;> rfl

/-- The link is all that it changes. -/
theorem Fibre.linked_rest (link : Option Nat) (f : Fibre) :
    { f.linked link with win := f.win, pred := f.pred, infl := f.infl, outst := f.outst } = f := by cases link <;> rfl

/-- Without a link nothing is written. -/
theorem Dev.updActive_linked_none (d : Dev) : d.updActive (Fibre.linked none) = d := by
  simp [Dev.updActive, Dev.updFibres, updWhere, Fibre.linked]

/-! ## Lists of values by the positions of active fibres -/

/-- Two active fibres at one position are one fibre. -/
theorem Dev.active_ext {d : Dev} {f g : Fibre} (hf : f ∈ d.active) (hg : g ∈ d.active) (h : (g.slot, g.lane) = (f.slot, f.lane)) :
    g = f := by
  obtain ⟨-, hff, hfc⟩ := Dev.mem_active hf
  obtain ⟨-, hgg, hgc⟩ := Dev.mem_active hg
  obtain ⟨hs, hl⟩ := Prod.mk.inj h
  rw [hgc, hs, hl, ← hfc, hff] at hgg
  exact (Option.some.inj hgg).symm

/-- In a list of values by position the value of an active fibre is found. -/
theorem Dev.find?_by_position {α : Type} {d : Dev} {f : Fibre} (hf : f ∈ d.active) (v : Fibre → α) :
    ((d.active.map fun g => ((g.slot, g.lane), v g)).find? fun p => p.1 == (f.slot, f.lane)).map Prod.snd = some (v f) := by
  rw [List.find?_map]
  cases h : d.active.find? ((fun p : (Nat × Nat) × α => p.1 == (f.slot, f.lane)) ∘ fun g => ((g.slot, g.lane), v g)) with
  | none => exact absurd (beq_self_eq_true _) (List.find?_eq_none.1 h f hf)
  | some g =>
    have hp := List.find?_some h
    have hgf : g = f := Dev.active_ext hf (List.mem_of_find?_eq_some h) (beq_iff_eq.1 hp)
    rw [hgf]
    rfl

/-- Where no active fibre traps, an instruction that could trap some is its body (R246). -/
theorem Dev.split_of_none {d : Dev} {t : Fibre → Option Trap} (h : ∀ f ∈ d.active, t f = none) (body : Dev → Dev) :
    d.split t body = body d := by
  have hts : d.trapsOf t = [] := by
    rw [Dev.trapsOf, List.filterMap_eq_nil_iff]
    intro f hf
    rw [h f hf]
    rfl
  simp [Dev.split, hts]

/-- Where every target is good, an indirect transfer links and goes there (R134, R135). -/
theorem Dev.indirect_eq {d : Dev} {va : Nat} (h : ∀ f ∈ d.active, badTarget (d.readV f va) = false) (stl : BitVec 2)
    (link : Option Nat) : d.indirect stl va link = (d.updActive (Fibre.linked link)).transfer stl true fun f =>
      ((d.active.map fun g => ((g.slot, g.lane), (d.readV g va).setWidth 48)).find? fun p => p.1 == (f.slot, f.lane)).map Prod.snd := by
  rw [Dev.indirect, Dev.split_of_none fun f hf => by rw [h f hf]; rfl]
  cases link with
  | none => rw [Dev.updActive_linked_none]
  | some n => rfl

end Sys2Proof.Machine
end

section
/-! The lane transfers and NOP: the rule of a transfer, direct or indirect (06: R131 to R135, R140). -/

namespace Sys2Proof.Stmt

open Machine

/-! ## Targets and conditions -/

/-- A branch target is the instruction's address plus a signed count of words (R60). -/
theorem target_eq_ahead (pc : Addr48) {n : Nat} (off : BitVec n) : target pc off = Ahead pc off := by
  have h : BitVec.ofInt 48 (off.toInt * 4) = off.signExtend 48 <<< 2 := by
    rw [BitVec.ofInt_mul, BitVec.shiftLeft_eq_mul_twoPow]
    rfl
  rw [target, Ahead, ← h, Int.mul_comm]

/-- BR's condition is that of R63. -/
theorem condZ_eq_zCond (cc : Nat) (a : W64) : condZ cc a = ZCond cc a := by
  rw [Bool.eq_iff_iff, condZ, condI_iff]
  unfold ZCond
  rcases cc with _ | _ | _ | _ | _ | _ | cc <;> simp

theorem badTarget_of_good {a : W64} (h : GoodTarget a) : badTarget a = false := by
  obtain ⟨hmod, hcan⟩ := h
  have hlow : a.extractLsb' 0 2 = 0#2 := BitVec.eq_of_toNat_eq (by simpa using hmod)
  rw [badTarget, canonical, hcan, hlow]
  simp

/-! ## The rule of a transfer -/

/-- What a transfer leaves in the registers of a fibre: the link, where there is one (R133). -/
theorem linked_goTo_issued (f : Fibre) (link : Option Nat) (a : Option Addr48) (now pass : Nat) (l : Bool) (stl free : Nat) :
    Linked f (((f.linked link).goTo a).issued now pass l stl free) link := by
  cases link with
  | none => simp [Linked, Fibre.linked]
  | some n =>
    refine ⟨⟨?_, ?_, fun m hm => ?_⟩, ?_, ?_⟩
    · simpa [Fibre.linked] using landV_win_length f (.v n)
    · simp [Fibre.linked, landV]
    · simpa [Fibre.linked, Fibre.vreg] using landV_vreg_other f n m hm
    · simp [Fibre.linked, Fibre.owe, landV, inflBut]
    · simp [Fibre.linked, Fibre.owe, landV, outstBut, linkOf, sext48]

/-- A fibre that continues at a target makes no loop-end step; the others go on (R131, R144). -/
theorem reaches_goTo_issued {f h : Fibre} (hp : h.pc = f.pc) (h0 : h.lp0 = f.lp0) (h1 : h.lp1 = f.lp1) (h2 : h.lp2 = f.lp2)
    (a : Option Addr48) (now pass : Nat) (l : Bool) (stl free : Nat) : Reaches f ((h.goTo a).issued now pass l stl free) a := by
  cases a with
  | none => exact goOn_issued_wentOn hp h0 h1 h2 now pass l stl free
  | some a => exact ⟨rfl, h0, h1, h2⟩

/-- A change of registers followed by a transfer leaves the rest of a fibre. -/
theorem goTo_issued_keepsRest {f h : Fibre} (hk : { h with win := f.win, pred := f.pred, infl := f.infl, outst := f.outst } = f)
    (a : Option Addr48) (now pass : Nat) (l : Bool) (stl free : Nat) : KeepsRest f ((h.goTo a).issued now pass l stl free) := by
  cases a with
  | none => exact goOn_issued_keepsRest hk now pass l stl free
  | some a =>
    rw [KeepsRest, ← hk]
    rfl

/-- The rule of every lane transfer: each fibre takes its link and continues where `dest` says (R131 to R135). -/
theorem flow_of_transfer {i : Instr} {link : Option Nat} {good : Dev → Fibre → Prop} {dest : Dev → Fibre → Option Addr48}
    {stl : BitVec 2} {body : Dev → Dev} {go : Dev → Fibre → Option Addr48} (hexec : ∀ s, exec i s = s.run i body)
    (hbody : ∀ d, (∀ f ∈ d.active, good d f) → body d = (d.updActive (Fibre.linked link)).transfer stl true (go d))
    (hgo : ∀ d, ∀ f ∈ d.active, go d (f.linked link) = dest d f) : Flow i link good dest := by
  rintro s ⟨hp, hn⟩ hgood
  have hnext := (hexec s).trans (State.run_of_passes hp body)
  rw [hbody _ hgood] at hnext
  have hfound (f : Fibre) (hf : f ∈ s.dev.active) := Dev.fibre?_transfer_mem (Fibre.linked_place link) stl true (go s.dev) hf
    ((Fibre.linked_trapped link f).trans (hn f hf))
  refine ⟨_, hnext, ⟨rfl, rfl, rfl, rfl⟩, fun c n l ho => ?others, fun f hf => ⟨_, hfound f hf, ?linked, ?reaches, ?age, ?rest⟩⟩
  case others => exact Dev.fibre?_transfer_other (Fibre.linked_place link) stl true _ ho
  case linked => exact linked_goTo_issued f link _ _ _ _ _ _
  case reaches =>
    rw [hgo _ f hf]
    exact reaches_goTo_issued (f.linked_pc link) (f.linked_lp0 link) (f.linked_lp1 link) (f.linked_lp2 link) _ _ _ _ _ _
  case age => rfl
  case rest => exact goTo_issued_keepsRest (f.linked_rest link) _ _ _ _ _ _

/-- The rule of an indirect transfer: each fibre continues at its own target, read before the link is written (R134, R135). -/
theorem flow_indirect {i : Instr} {stl : BitVec 2} {va : Nat} {link : Option Nat}
    (hexec : ∀ s, exec i s = s.run i fun d => d.indirect stl va link) :
    Flow i link (fun d f => GoodTarget (d.readV f va)) fun d f => some ((d.readV f va).setWidth 48) := by
  refine flow_of_transfer hexec (fun d hgood => Dev.indirect_eq (fun f hf => badTarget_of_good (hgood f hf)) stl link) fun d f hf => ?_
  obtain ⟨-, hslot, hlane⟩ := f.linked_place link
  rw [hslot, hlane]
  exact Dev.find?_by_position hf _

/-- Settles O13: a transfer names each fibre's target, a call leaves the link first, and an indirect one reads good targets. -/
theorem laneTransfers : Obligations.LaneTransfers := by
  unfold Obligations.LaneTransfers
  refine ⟨fun o => ?br, fun o => ?jmp, fun o => ?call, fun o => ⟨?ji, ?ret⟩, fun o => ?calli, fun o => ?nop⟩
  case br =>
    refine flow_of_transfer (fun _ => exec_br) (fun d _ => by rw [Dev.updActive_linked_none]) fun d f _ => ?_
    rw [condZ_eq_zCond, target_eq_ahead]
    rfl
  case jmp =>
    exact flow_of_transfer (fun _ => exec_jmp) (fun d _ => by rw [Dev.updActive_linked_none]) fun d f _ => by
      rw [target_eq_ahead]
      rfl
  case call =>
    exact flow_of_transfer (fun _ => exec_call) (fun d _ => rfl) fun d f _ => by
      rw [target_eq_ahead]
      rfl
  case ji => exact flow_indirect (fun _ => exec_ji)
  case ret => exact flow_indirect (fun _ => exec_ret)
  case calli => exact flow_indirect (fun _ => exec_calli)
  case nop =>
    exact flow_of_transfer (fun _ => exec_nop)
      (fun d _ => by rw [Dev.updActive_linked_none]; exact Dev.advance_eq_transfer d o.stl true) fun _ _ _ => rfl

end Sys2Proof.Stmt
end

section
/-! SUPPORT. Taking a trap: what it makes of a fibre of the batch, and what it leaves of the machine (10: R242 to R249). -/

namespace Sys2Proof.Machine

/-! ## Records by number -/

theorem mem_of_mem_dedup {α : Type} [BEq α] {x : α} {l : List α} (h : x ∈ dedup l) : x ∈ l := by
  induction l with
  | nil => exact h
  | cons y l ih =>
    rw [dedup] at h
    rcases List.mem_cons.1 h with rfl | h
    · exact List.mem_cons_self
    · exact List.mem_cons_of_mem y (ih (List.mem_filter.1 h).1)

/-- After an update that keeps the numbers, a record is found updated. -/
theorem getBy_updWhere {α : Type} {key : α → Nat} {p : α → Bool} {g : α → α} (hg : ∀ x, key (g x) = key x) (k : Nat) (l : List α) :
    getBy key k (updWhere p g l) = (getBy key k l).map fun x => if p x then g x else x := by
  induction l with
  | nil => rfl
  | cons x l ih =>
    have hkey : key (if p x then g x else x) = key x := by
      split
      · exact hg x
      · rfl
    rw [updWhere, List.map_cons, getBy, getBy, hkey]
    split
    · rfl
    · exact ih

theorem getBy_key {α : Type} {key : α → Nat} {k : Nat} {l : List α} {x : α} (h : getBy key k l = some x) : key x = k := by
  induction l with
  | nil => exact absurd h (by simp [getBy])
  | cons y l ih =>
    rw [getBy] at h
    split at h
    next hy => exact Option.some.inj h ▸ beq_iff_eq.1 hy
    next => exact ih h

/-! ## The trap of one fibre -/

/-- What a fibre of the batch is after the trap it reports (R246, R274). -/
def Dev.struckBy (d : Dev) (f : Fibre) (e : Fibre × Trap × Addr48) : Fibre :=
  let g := e.1.takeTrap e.2.1 e.2.2 (d.trapCtx f).1 (d.trapCtx f).2 d.cycle
  { g with cohort := cohortAt d.free g.pc 1 }

/-- What a trap of the batch makes of a fibre of it: the fibre reports its earliest fault (R244). -/
def Dev.struck (d : Dev) (t : Trap) (f : Fibre) : Fibre := d.struckBy f (f.earliest t f.pc)

theorem Fibre.earliest_of_none {f : Fibre} (h : f.late = none) (t : Trap) (pc : Addr48) : f.earliest t pc = (f, t, pc) := by
  rw [Fibre.earliest, h]

theorem Fibre.earliest_of_some {f : Fibre} {pc : Addr48} {x : Trap} (h : f.late = some (pc, x)) (t : Trap) (p : Addr48) :
    f.earliest t p = ({ f with outst := [], infl := [] }, x, pc) := by
  rw [Fibre.earliest, h]

section TakeTrap
variable (f : Fibre) (t : Trap) (pc : Addr48) (uhv : W64) (masked : Bool) (now : Nat)

/-- The trap of a fibre that enters the user handler. -/
theorem Fibre.takeTrap_of_enters (h : (mayEnter t.cause && uhv != 0 && !masked) = true) : f.takeTrap t pc uhv masked now =
    { f.trapRegs t pc masked with wait := .none, late := none, age := now, pc := uhv.setWidth 48, ready := now + 1 } := if_pos h

/-- The trap of a fibre that goes on the fault path. -/
theorem Fibre.takeTrap_of_not_enters (h : ¬(mayEnter t.cause && uhv != 0 && !masked) = true) : f.takeTrap t pc uhv masked now =
    { f.trapRegs t pc masked with wait := .none, late := none, age := now, pc := pc, trapped := true, units := t.units } := if_neg h

/-- Taking a trap writes the trap registers and says how the fibre then stands. -/
theorem Fibre.takeTrap_spec : ∃ p r b u, f.takeTrap t pc uhv masked now =
    { f.trapRegs t pc masked with wait := .none, late := none, age := now, pc := p, ready := r, trapped := b, units := u } := by
  by_cases h : (mayEnter t.cause && uhv != 0 && !masked) = true
  · exact ⟨_, _, _, _, f.takeTrap_of_enters t pc uhv masked now h⟩
  · exact ⟨_, _, _, _, f.takeTrap_of_not_enters t pc uhv masked now h⟩

/-- The registers that every trap writes, and that nothing of the fibre waits any more (R242, R246). -/
theorem Fibre.takeTrap_regs : (f.takeTrap t pc uhv masked now).trapcause = causeWord t masked ∧
    (f.takeTrap t pc uhv masked now).trappc = sext48 pc ∧ (f.takeTrap t pc uhv masked now).trapaddr = t.addr ∧
    (f.takeTrap t pc uhv masked now).wait = .none ∧ (f.takeTrap t pc uhv masked now).late = none := by
  obtain ⟨p, r, b, u, h⟩ := f.takeTrap_spec t pc uhv masked now
  rw [h]
  exact ⟨rfl, rfl, rfl, rfl, rfl⟩

/-- The registers of an illegal word and of slots are those of step 1 (R73, R246). -/
theorem Fibre.takeTrap_ill : (f.takeTrap t pc uhv masked now).ilenc = (f.trapRegs t pc masked).ilenc ∧
    (f.takeTrap t pc uhv masked now).ilf0 = (f.trapRegs t pc masked).ilf0 ∧
    (f.takeTrap t pc uhv masked now).ilf1 = (f.trapRegs t pc masked).ilf1 ∧
    (f.takeTrap t pc uhv masked now).ilf2 = (f.trapRegs t pc masked).ilf2 ∧
    (f.takeTrap t pc uhv masked now).ilf3 = (f.trapRegs t pc masked).ilf3 ∧
    (f.takeTrap t pc uhv masked now).mdone = (f.trapRegs t pc masked).mdone := by
  obtain ⟨p, r, b, u, h⟩ := f.takeTrap_spec t pc uhv masked now
  rw [h]
  exact ⟨rfl, rfl, rfl, rfl, rfl, rfl⟩

/-- A trap leaves what is under way. The fibre is taken apart first, here and below: a projection of the changed record is then its own
field, where a comparison of the whole records would evaluate the trap registers. -/
theorem Fibre.takeTrap_pending : (f.takeTrap t pc uhv masked now).infl = f.infl ∧ (f.takeTrap t pc uhv masked now).outst = f.outst := by
  cases f
  obtain ⟨p, r, b, u, h⟩ := Fibre.takeTrap_spec _ t pc uhv masked now
  rw [h]
  exact ⟨rfl, rfl⟩

/-- A trap leaves a fibre at its position. -/
theorem Fibre.takeTrap_place : (f.takeTrap t pc uhv masked now).core = f.core ∧ (f.takeTrap t pc uhv masked now).slot = f.slot ∧
    (f.takeTrap t pc uhv masked now).lane = f.lane := by
  cases f
  obtain ⟨p, r, b, u, h⟩ := Fibre.takeTrap_spec _ t pc uhv masked now
  rw [h]
  exact ⟨rfl, rfl, rfl⟩

end TakeTrap

theorem Dev.struck_place (d : Dev) (t : Trap) (f : Fibre) :
    (d.struck t f).core = f.core ∧ (d.struck t f).slot = f.slot ∧ (d.struck t f).lane = f.lane := by
  obtain ⟨hc, hs, hl⟩ := Fibre.takeTrap_place (f.earliest t f.pc).1 (f.earliest t f.pc).2.1 (f.earliest t f.pc).2.2
    (d.trapCtx f).1 (d.trapCtx f).2 d.cycle
  have he : (f.earliest t f.pc).1.core = f.core ∧ (f.earliest t f.pc).1.slot = f.slot ∧ (f.earliest t f.pc).1.lane = f.lane := by
    rw [Fibre.earliest]
    split <;> exact ⟨rfl, rfl, rfl⟩
  exact ⟨hc.trans he.1, hs.trans he.2.1, hl.trans he.2.2⟩

/-! ## The trap of the batch -/

/-- The fibres after a trap of the batch: its members have taken it. -/
theorem Dev.trapAll_fibres (d : Dev) (t : Trap) : (d.trapAll t).fibres = (d.updActive (d.struck t)).fibres := by
  refine List.map_congr_left fun f _ => ?_
  by_cases hb : d.cur.has f = true
  · simp only [hb, if_true]
    rfl
  · simp only [hb]
    rfl

theorem Dev.fibre?_trapAll_mem {d : Dev} {f : Fibre} (hf : f ∈ d.active) (t : Trap) :
    (d.trapAll t).fibre? f.core f.slot f.lane = some (d.struck t f) := by
  rw [Dev.fibre?, Dev.trapAll_fibres]
  exact Dev.fibre?_updActive_mem (d.struck_place t) hf

theorem Dev.fibre?_trapAll_other {d : Dev} {c n l : Nat} (ho : ¬(c = d.cur.core ∧ (n, l) ∈ d.cur.members)) (t : Trap) :
    (d.trapAll t).fibre? c n l = d.fibre? c n l := by
  rw [Dev.fibre?, Dev.trapAll_fibres]
  exact Dev.fibre?_updActive_other (d.struck_place t) ho

/-- Of the groups a trap of the batch changes only those of its members, which go on the fault path (R246, R249). -/
theorem Dev.group?_trapAll {d : Dev} {n : Nat} {g : Group} (hn : d.group? n = some g) (t : Trap) :
    ∃ h, (d.trapAll t).group? n = some h ∧ (h = g ∨ (g.stat = .running ∧ h = { g with stat := .faulting } ∧
      ∃ f ∈ d.fibres, d.gidOf f = n ∧ d.cur.has f = true)) := by
  have hkey : g.gid = n := getBy_key hn
  unfold Dev.trapAll Dev.trapBatch Dev.trapEach Dev.group?
  dsimp only
  rw [getBy_updWhere (g := fun g : Group => { g with stat := .faulting }) (fun _ => rfl), show getBy Group.gid n d.groups = some g from hn]
  refine ⟨_, rfl, ?_⟩
  dsimp only
  split
  next hp =>
    obtain ⟨hgid, hrun⟩ := Bool.and_eq_true_iff.1 hp
    obtain ⟨f, hf, hw⟩ := List.mem_filterMap.1 (mem_of_mem_dedup (List.contains_iff_mem.1 hgid))
    obtain ⟨hmem, hpath⟩ := List.mem_filter.1 hf
    refine Or.inr ⟨beq_iff_eq.1 hrun, rfl, f, hmem, ?_, ?_⟩
    · rw [Dev.gidOf, hw, ← hkey]
      rfl
    · cases hb : d.cur.has f with
      | true => rfl
      | false => simp only [hb, Bool.false_eq_true, if_false] at hpath
  next => exact Or.inl rfl

end Sys2Proof.Machine
end

section
/-! TRAP, BKPT, HALT: the batch takes one precise trap (10: R242 to R246, R256, R259). -/

namespace Sys2Proof.Stmt

open Machine

/-- A trap enters the user handler exactly where R243 and R246 let it. -/
theorem enters_iff_toHandler (d : Dev) (f : Fibre) (cause : Nat) :
    (mayEnter cause && (d.trapCtx f).1 != 0 && !(d.trapCtx f).2) = true ↔ ToHandler d f cause := by
  simp [mayEnter, ToHandler, and_assoc]

/-- A fibre that takes a trap at `pc` has entered its handler, or stands there on the fault path. -/
theorem entered_takeTrap (d : Dev) (f : Fibre) (t : Trap) (pc : Addr48) (now : Nat) :
    Entered d f (f.takeTrap t pc (d.trapCtx f).1 (d.trapCtx f).2 now) t.cause pc := by
  rw [Entered, ← enters_iff_toHandler]
  generalize d.trapCtx f = c
  cases f
  by_cases h : (mayEnter t.cause && c.1 != 0 && !c.2) = true
  · rw [Fibre.takeTrap_of_enters _ t pc _ _ now h]
    exact ⟨fun _ => ⟨rfl, rfl⟩, fun hn => absurd h hn⟩
  · rw [Fibre.takeTrap_of_not_enters _ t pc _ _ now h]
    exact ⟨fun hy => absurd hy h, fun _ => ⟨rfl, rfl⟩⟩

/-- Taking a trap changes no other register of a fibre. -/
theorem keepsButTrap_takeTrap (f : Fibre) (t : Trap) (pc : Addr48) (uhv : W64) (masked : Bool) (now : Nat) :
    KeepsButTrap f (f.takeTrap t pc uhv masked now) := by
  rw [KeepsButTrap]
  cases f
  obtain ⟨p, r, b, u, h⟩ := Fibre.takeTrap_spec _ t pc uhv masked now
  rw [h]
  rfl

/-- A change of what is under way is none of the rest. -/
theorem KeepsButTrap.of_discarded {f g : Fibre} {o : List Outst} {i : List InFlight}
    (h : KeepsButTrap { f with outst := o, infl := i } g) : KeepsButTrap f { g with infl := f.infl, outst := f.outst } := by
  have hrest := congrArg (fun x : Fibre => ({ x with infl := f.infl, outst := f.outst } : Fibre)) h
  exact hrest

/-- A fibre without an earlier page fault takes the trap of its batch. -/
theorem struck_of_none {f : Fibre} (h : f.late = none) (d : Dev) (t : Trap) : ∃ k, d.struck t f =
    { f.takeTrap t f.pc (d.trapCtx f).1 (d.trapCtx f).2 d.cycle with cohort := k } := by
  rw [Dev.struck, Fibre.earliest_of_none h]
  exact ⟨_, rfl⟩

/-- A fibre with an earlier page fault reports that one, and what it had under way is discarded (R244). -/
theorem struck_of_some {f : Fibre} {pc : Addr48} {x : Trap} (h : f.late = some (pc, x)) (d : Dev) (t : Trap) : ∃ k, d.struck t f =
    { Fibre.takeTrap { f with outst := [], infl := [] } x pc (d.trapCtx f).1 (d.trapCtx f).2 d.cycle with cohort := k } := by
  rw [Dev.struck, Fibre.earliest_of_some h]
  exact ⟨_, rfl⟩

/-- A fibre whose batch traps has taken the trap, or the earlier page fault that was not known yet (R244). -/
theorem tookTrap_struck (d : Dev) (f : Fibre) {t : Trap} (ht : t.impr = false) :
    TookTrap d f (d.struck t f) t.cause t.code t.acc t.addr := by
  unfold TookTrap
  cases h : f.late with
  | none =>
    obtain ⟨k, hk⟩ := struck_of_none h d t
    have hent := entered_takeTrap d f t f.pc d.cycle
    have hkeep := keepsButTrap_takeTrap f t f.pc (d.trapCtx f).1 (d.trapCtx f).2 d.cycle
    obtain ⟨hcause, hpc, haddr, hwait, hlate⟩ := f.takeTrap_regs t f.pc (d.trapCtx f).1 (d.trapCtx f).2 d.cycle
    rw [hk]
    refine ⟨hwait, hlate, hcause.trans ?_, hpc, haddr, hkeep, hent⟩
    simp only [causeWord, ht, Bool.false_eq_true, if_false, Nat.add_zero]
  | some x =>
    obtain ⟨pc, x⟩ := x
    obtain ⟨k, hk⟩ := struck_of_some h d t
    have hent := entered_takeTrap d { f with outst := [], infl := [] } x pc d.cycle
    have hkeep := keepsButTrap_takeTrap { f with outst := [], infl := [] } x pc (d.trapCtx f).1 (d.trapCtx f).2 d.cycle
    obtain ⟨hcause, hpc, haddr, hwait, hlate⟩ :=
      Fibre.takeTrap_regs { f with outst := [], infl := [] } x pc (d.trapCtx f).1 (d.trapCtx f).2 d.cycle
    obtain ⟨hinfl, houtst⟩ :=
      Fibre.takeTrap_pending { f with outst := [], infl := [] } x pc (d.trapCtx f).1 (d.trapCtx f).2 d.cycle
    rw [hk]
    exact ⟨hwait, hlate, hcause, hpc, haddr, hinfl, houtst, hkeep.of_discarded, hent⟩

/-- What a trap of the batch is: only fibres, and the groups that go on the fault path, change, and every member has taken it. -/
theorem trapAll_rule (s : State) {t : Trap} (ht : t.impr = false) :
    OnlyTraps s { s with dev := s.dev.trapAll t } ∧ OthersKept s.dev (s.dev.trapAll t) ∧
    ∀ f ∈ s.dev.active, (s.dev.trapAll t).fibre? f.core f.slot f.lane = some (s.dev.struck t f) ∧
      TookTrap s.dev f (s.dev.struck t f) t.cause t.code t.acc t.addr :=
  ⟨⟨rfl, rfl, rfl, rfl, fun _ _ hn => Dev.group?_trapAll hn t⟩, fun _ _ _ ho => Dev.fibre?_trapAll_other ho t,
    fun f hf => ⟨Dev.fibre?_trapAll_mem hf t, tookTrap_struck s.dev f ht⟩⟩

/-- A trap that names no illegal word and no slots leaves the registers of those. -/
theorem keepsIll_struck (d : Dev) {f : Fibre} (h : f.late = none) {t : Trap} (hill : t.ill = none) (hdone : t.done = none) :
    KeepsIll f (d.struck t f) := by
  obtain ⟨k, hk⟩ := struck_of_none h d t
  obtain ⟨he, h0, h1, h2, h3, hm⟩ := f.takeTrap_ill t f.pc (d.trapCtx f).1 (d.trapCtx f).2 d.cycle
  rw [hk]
  simp [KeepsIll, he, h0, h1, h2, h3, hm, Fibre.trapRegs, hill, hdone]

/-- The rule of an instruction that is nothing but a trap (R256, R259). -/
theorem traps_of_trapAll {i : Instr} (cause code : Nat)
    (hexec : ∀ s, exec i s = s.run i fun d => d.trapAll { cause := cause, code := code }) :
    Traps i (fun _ => True) cause code (fun _ _ => 0) KeepsIll := by
  rintro s ⟨hp, -⟩ -
  obtain ⟨honly, hothers, htook⟩ := trapAll_rule s (t := { cause := cause, code := code }) rfl
  exact ⟨_, (hexec s).trans (State.run_of_passes hp _), honly, hothers, fun f hf =>
    ⟨_, (htook f hf).1, (htook f hf).2, fun h => keepsIll_struck s.dev h rfl rfl⟩⟩

theorem trapInstructionsRules : TrapInstructionsRules :=
  ⟨fun o => traps_of_trapAll 16 o.imm.toNat fun _ => exec_trap, fun _ => traps_of_trapAll 17 0 fun _ => exec_bkpt,
    fun _ => traps_of_trapAll 18 0 fun _ => exec_halt⟩

end Sys2Proof.Stmt
end

section
/-! SUPPORT. Why the decoder refuses a word: the checks of the opcode maps (03: R62 to R66, R72, R74). -/

namespace Sys2Proof.Stmt

open Machine

/-! ## Checks -/

/-- A check of a word refuses it only for a reason other than a reserved opcode; the failing field lies in the word, and a reason of 3
names a field that is not zero (R74). -/
def SoundCheck (w : Nat) (c : Option Reject) : Prop :=
  ∀ r, c = some r → r.reason ≠ 1 ∧ r.reason < 16 ∧ r.fpos < 32 ∧ r.fwid < 32 ∧ (r.reason = 3 → nat w r.fpos r.fwid ≠ 0)

theorem soundCheck_none (w : Nat) : SoundCheck w none := by
  intro r h
  cases h

/-- A single test finds one field at fault. -/
theorem soundCheck_ite {w : Nat} {p : Prop} [Decidable p] {r : Reject} (hr : r.reason ≠ 1) (hn : r.reason < 16) (hlo : r.fpos < 32)
    (hw : r.fwid < 32) (h3 : r.reason = 3 → ¬p → nat w r.fpos r.fwid ≠ 0) : SoundCheck w (if p then none else some r) := by
  intro x h
  split at h
  next => cases h
  next hp =>
    obtain rfl := Option.some.inj h
    exact ⟨hr, hn, hlo, hw, fun h => h3 h hp⟩

section Fields
variable {w lo n : Nat} (hlo : lo < 32) (hn : n < 32)
include hlo hn

theorem soundCheck_sub (ok : Nat → Bool) : SoundCheck w (sub w lo n ok) :=
  soundCheck_ite (r := ⟨2, lo, n⟩) (by simp) (by simp) hlo hn (by simp)

theorem soundCheck_zero : SoundCheck w (zero w lo n) :=
  soundCheck_ite (r := ⟨3, lo, n⟩) (by simp) (by simp) hlo hn (by simp)

theorem soundCheck_rng (bad : Bool) : SoundCheck w (rng bad lo n) := by
  intro x h
  rw [rng] at h
  split at h
  next =>
    obtain rfl := Option.some.inj h
    exact ⟨by simp, by simp, hlo, hn, by simp⟩
  next => cases h

end Fields

theorem soundCheck_typ {w lo : Nat} (hlo : lo < 32) (ok : Nat → Bool) : SoundCheck w (typ w lo ok) :=
  soundCheck_ite (r := ⟨4, lo, 2⟩) (by simp) (by simp) hlo (by simp) (by simp)

/-- The first check that fails decides. -/
theorem soundCheck_orElse {w : Nat} {a b : Option Reject} : SoundCheck w (a <|> b) ↔ SoundCheck w a ∧ (a = none → SoundCheck w b) := by
  cases a with
  | none => exact ⟨fun h => ⟨soundCheck_none w, fun _ => h⟩, fun h => h.2 rfl⟩
  | some r => exact ⟨fun h => ⟨h, nofun⟩, fun h => h.1⟩

/-- Of two checks the one that a bit of the word chooses. -/
theorem soundCheck_choice {w : Nat} {p : Prop} [Decidable p] {a b : Option Reject} :
    SoundCheck w (if p then a else b) ↔ (p → SoundCheck w a) ∧ (¬p → SoundCheck w b) := by
  split
  next hp => exact ⟨fun h => ⟨fun _ => h, fun hn => absurd hp hn⟩, fun h => h.1 hp⟩
  next hp => exact ⟨fun h => ⟨fun hy => absurd hy hp, fun _ => h⟩, fun h => h.2 hp⟩

/-- Every cell of the opcode maps has a check built from these. -/
theorem opRow_soundCheck {k : Nat} {row : OpRow} (h : opRow k = some row) (w : Nat) : SoundCheck w (row.check w) := by
  unfold opRow at h
  split at h
  all_goals cases h
  all_goals simp only [soundCheck_none, soundCheck_sub, soundCheck_zero, soundCheck_typ, soundCheck_rng, soundCheck_orElse,
    soundCheck_choice, Nat.reduceLT, implies_true, and_true]

end Sys2Proof.Stmt
end

section
/-! SUPPORT. The fields of a word, and the words that show them in ILF0 to ILF3 (03: R58 to R60, R74, R75). -/

namespace Sys2Proof.Stmt

open Machine

/-! ## Fields -/

theorem field_toNat (w : BitVec 32) (lo n : Nat) : (Field w lo n).toNat = nat w.toNat lo n := by
  rw [Field, BitVec.extractLsb'_toNat, Nat.shiftRight_eq_div_pow, nat]

theorem nat_lt_two_pow (w lo n : Nat) : nat w lo n < 2 ^ n := Nat.mod_lt _ (Nat.two_pow_pos n)

theorem field_bit_iff (w : BitVec 32) (i : Nat) : Field w i 1 = 1 ↔ bitAt w.toNat i = true := by
  rw [← BitVec.toNat_inj, field_toNat, bitAt, beq_iff_eq]
  rfl

/-! ## Operand descriptors -/

theorem ilfWord_eq_desc {kind v : Nat} (h : v < 2 ^ 60) : ilfWord kind v = Desc kind v := by
  rw [ilfWord, Desc, Nat.mod_eq_of_lt h]

/-- A field of at most 16 bits is shown as it is. -/
theorem ilfWord_nat (kind : Nat) (w : BitVec 32) (lo : Nat) {n : Nat} (hn : n ≤ 16) :
    ilfWord kind (nat w.toNat lo n) = Desc kind (Field w lo n).toNat := by
  rw [field_toNat, ilfWord_eq_desc (Nat.lt_of_lt_of_le (nat_lt_two_pow _ _ _) (Nat.pow_le_pow_right (by omega) (by omega)))]

/-- A lane register is shown with HV applied (R56). -/
theorem ilfWord_lane (w : BitVec 32) (hv lo : Nat) :
    ilfWord 1 (laneReg (nat w.toNat hv 1) (nat w.toNat lo 6)) = Desc 1 (64 * (Field w hv 1).toNat + (Field w lo 6).toNat) := by
  have hhv := nat_lt_two_pow w.toNat hv 1
  have hreg := nat_lt_two_pow w.toNat lo 6
  rw [field_toNat, field_toNat, laneReg, Nat.mul_comm, ilfWord_eq_desc (by omega)]

/-- A lane register of a layout without HV. -/
theorem ilfWord_lane_zero (w : BitVec 32) (lo : Nat) : ilfWord 1 (laneReg 0 (nat w.toNat lo 6)) = Desc 1 (Field w lo 6).toNat := by
  rw [laneReg, Nat.zero_mul, Nat.zero_add, ilfWord_nat 1 w lo (by omega)]

/-- Sign extension to 60 bits is the signed value modulo 2 to the 60. -/
theorem sx60_emod {n : Nat} (x : BitVec n) (h0 : 0 < n) (hn : n ≤ 60) :
    (sx60 x.toNat n : Int) % (2 ^ 60 : Nat) = x.toInt % (2 ^ 60 : Nat) := by
  obtain ⟨m, rfl⟩ : ∃ m, n = m + 1 := ⟨n - 1, by omega⟩
  have hx : x.toNat < 2 ^ m * 2 := x.isLt
  have hpow : 2 ^ m * 2 ≤ 2 ^ 60 := by
    rw [← Nat.pow_succ]
    exact Nat.pow_le_pow_right (by omega) hn
  have hbit : (x.toNat / 2 ^ m % 2 == 1) = true ↔ 2 ^ m ≤ x.toNat := by
    have hlt : x.toNat / 2 ^ m < 2 := Nat.div_lt_of_lt_mul hx
    have hpos : 1 ≤ x.toNat / 2 ^ m ↔ 2 ^ m ≤ x.toNat := by rw [Nat.le_div_iff_mul_le (Nat.two_pow_pos m), Nat.one_mul]
    rw [beq_iff_eq, ← hpos]
    generalize x.toNat / 2 ^ m = q at hlt
    omega
  have hdouble : 2 ^ (m + 1) = 2 ^ m * 2 := Nat.pow_succ ..
  simp only [sx60, Nat.add_sub_cancel, BitVec.toInt_eq_toNat_cond, hdouble]
  generalize 2 ^ m = p at hx hpow hbit ⊢
  by_cases hneg : p ≤ x.toNat
  · rw [if_pos (hbit.2 hneg), if_neg (by omega)]
    omega
  · rw [if_neg (fun h => hneg (hbit.1 h)), if_pos (by omega)]

/-- The descriptor of a signed immediate depends on the value modulo 2 to the 60. -/
theorem ilfWord_eq_descI {u : Nat} {v : Int} (h : (u : Int) % (2 ^ 60 : Nat) = v % (2 ^ 60 : Nat)) : ilfWord 4 u = DescI v := by
  have hu : u % 2 ^ 60 < 2 ^ 60 := Nat.mod_lt _ (by omega)
  have hv : (v % ((2 ^ 60 : Nat) : Int)).toNat = u % 2 ^ 60 := by
    rw [← h, ← Int.natCast_emod]
    rfl
  apply BitVec.eq_of_toNat_eq
  rw [ilfWord, DescI, BitVec.toNat_append, BitVec.toNat_ofInt, hv, ← Nat.shiftLeft_add_eq_or_of_lt hu, Nat.shiftLeft_eq,
    BitVec.toNat_ofNat, BitVec.toNat_ofNat]
  omega

/-- A signed immediate is shown sign-extended and scaled (R60, R75). -/
theorem ilfWord_signed (w : BitVec 32) (lo : Nat) {n : Nat} (h0 : 0 < n) (hn : n ≤ 60) (scale : Nat) :
    ilfWord 4 (sx60 (nat w.toNat lo n) n * scale) = DescI ((Field w lo n).toInt * scale) := by
  apply ilfWord_eq_descI
  rw [← field_toNat, Int.natCast_mul, Int.mul_emod, sx60_emod _ h0 hn, ← Int.mul_emod]

/-! ## ILF0 -/

/-- The fields of ILF0 side by side (R74). -/
theorem ilf0_fields {v : W64} {mk tyc subc fpos fwid fmt reason : Nat}
    (hv : v = BitVec.ofNat 64 (mk * 2 ^ 56 + tyc * 2 ^ 48 + subc * 2 ^ 40 + (fpos * 2 ^ 24 + fwid * 2 ^ 16 + reason) + fmt * 2 ^ 8))
    (hmk : mk < 256) (htyc : tyc < 256) (hsubc : subc < 256) (hfpos : fpos < 256) (hfwid : fwid < 256) (hfmt : fmt < 256)
    (hreason : reason < 16) : (v.extractLsb' 0 4).toNat = reason ∧ (v.extractLsb' 4 4).toNat = 0 ∧ (v.extractLsb' 8 8).toNat = fmt ∧
      (v.extractLsb' 16 8).toNat = fwid ∧ (v.extractLsb' 24 8).toNat = fpos ∧ (v.extractLsb' 32 8).toNat = 0 ∧
      (v.extractLsb' 40 8).toNat = subc ∧ (v.extractLsb' 48 8).toNat = tyc ∧ (v.extractLsb' 56 8).toNat = mk := by
  have hn : v.toNat = mk * 2 ^ 56 + tyc * 2 ^ 48 + subc * 2 ^ 40 + (fpos * 2 ^ 24 + fwid * 2 ^ 16 + reason) + fmt * 2 ^ 8 := by
    rw [hv, BitVec.toNat_ofNat, Nat.mod_eq_of_lt (by omega)]
  simp only [BitVec.extractLsb'_toNat, hn, Nat.shiftRight_eq_div_pow]
  refine ⟨?_, ?_, ?_, ?_, ?_, ?_, ?_, ?_, ?_⟩ <;> omega

end Sys2Proof.Stmt
end

section
/-! Words that are no instruction: the decoder's reason, and what ILF0 to ILF3 show (03: R72 to R75). -/

namespace Sys2Proof.Stmt

open Machine

/-! ## The refusal -/

/-- A word is refused for its reserved opcode, or by the check of its opcode (R72). -/
theorem decode_error_iff {w : BitVec 32} {r : Reject} : decode w = .error r ↔
    (opRow (opKey w.toNat) = none ∧ r = ⟨1, 22, 7⟩) ∨ ∃ row, opRow (opKey w.toNat) = some row ∧ row.check w.toNat = some r := by
  rw [decode, decodeNat]
  cases opRow (opKey w.toNat) with
  | none => simp [eq_comm]
  | some row => cases hc : row.check w.toNat <;> simp [hc]

/-! ## What the format says of the fields -/

theorem isSubOp_iff (op : Nat) : isSubOp op = true ↔ op ∈ [0x20, 0x31, 0x32, 0x51, 0x52, 0x53] := by
  simp [isSubOp, or_assoc]

/-- MK, TYC and SUBC fit their bytes. -/
theorem ilfHead_lt (fmt : Fmt) (op w : Nat) :
    (ilfHead fmt op w).1 < 256 ∧ (ilfHead fmt op w).2.1 < 256 ∧ (ilfHead fmt op w).2.2 < 256 := by
  have hlt (lo n : Nat) (hn : n ≤ 8) : nat w lo n < 256 :=
    Nat.lt_of_lt_of_le (nat_lt_two_pow w lo n) (Nat.pow_le_pow_right (by omega) hn)
  cases fmt
  case lv =>
    have htd := nat_lt_two_pow w 6 4
    have hts := nat_lt_two_pow w 2 4
    exact ⟨Nat.zero_lt_succ _, show nat w 6 4 * 16 + nat w 2 4 < 256 by omega, Nat.zero_lt_succ _⟩
  all_goals simp [ilfHead, apply_ite (· < 256), hlt]

/-- MK, TYC and SUBC are those that R74 names for the layout. -/
theorem showsFields_ilfHead (fmt : Fmt) (w : BitVec 32) :
    let h := ilfHead fmt (nat w.toNat 22 7) w.toNat
    ShowsFields fmt (Field w 22 7).toNat w h.1 h.2.1 h.2.2 := by
  cases fmt <;> simp [ShowsFields, ilfHead, field_toNat, isSubOp_iff, Nat.mul_comm]

/-- A B operand is a lane register, or with KB a uniform one (R58). -/
theorem ilfWord_b (w : BitVec 32) :
    (if bitAt w.toNat 0 then ilfWord 2 (nat w.toNat 4 6) else ilfWord 1 (laneReg (nat w.toNat 3 1) (nat w.toNat 4 6))) =
      if Field w 0 1 = 1 then Desc 2 (Field w 4 6).toNat else Desc 1 (64 * (Field w 3 1).toNat + (Field w 4 6).toNat) := by
  simp only [field_bit_iff, ilfWord_lane, ilfWord_nat 2 w 4 (show 6 ≤ 16 by omega)]

/-- A count of words or of doublewords is shown in bytes (R60). -/
theorem ilfWord_bytes (w : BitVec 32) (lo : Nat) {n : Nat} (h0 : 0 < n) (hn : n ≤ 60) (k : Nat) :
    ilfWord 4 (sx60 (nat w.toNat lo n) n * k) = DescI (k * (Field w lo n).toInt) := by
  rw [ilfWord_signed w lo h0 hn, Int.mul_comm]

/-- The immediate of the uniform arithmetic is shown with its shift applied (R60). -/
theorem ilfWord_immSh (w : BitVec 32) :
    ilfWord 5 (immSh (nat w.toNat 0 10)) = Desc 5 ((Field w 0 8).toNat * 16 ^ (Field w 8 2).toNat) := by
  have hv : nat w.toNat 0 10 % 256 = nat w.toNat 0 8 := by simp only [nat]; omega
  have hsh : nat w.toNat 0 10 / 256 = nat w.toNat 8 2 := by simp only [nat]; omega
  have hlt : nat w.toNat 0 8 * 16 ^ nat w.toNat 8 2 < 256 * 16 ^ 3 :=
    Nat.mul_lt_mul_of_lt_of_le (nat_lt_two_pow _ 0 8) (Nat.pow_le_pow_right (by omega) (Nat.le_of_lt_succ (nat_lt_two_pow _ 8 2))) (by omega)
  rw [immSh, hv, hsh, field_toNat, field_toNat, ilfWord_eq_desc (Nat.lt_trans hlt (by omega))]

/-- The register form: an opcode with a sub-code has no B operand. -/
theorem ilfOperands_l3 {op : Nat} (hop : op ∉ [0x1E, 0x1F, 0x56, 0x58, 0x59, 0x5B, 0x5E]) (n : Nat) : ilfOperands .l3 op n =
    (ilfWord 1 (laneReg (nat n 3 1) (nat n 16 6)), ilfWord 1 (laneReg (nat n 3 1) (nat n 10 6)),
      if isSubOp op then ilfWord 0 0
      else if bitAt n 0 then ilfWord 2 (nat n 4 6) else ilfWord 1 (laneReg (nat n 3 1) (nat n 4 6))) := by
  simp only [List.mem_cons, List.not_mem_nil, or_false, not_or] at hop
  obtain ⟨h1, h2, h3, h4, h5, h6, h7⟩ := hop
  simp only [ilfOperands, beq_iff_eq, Bool.or_eq_true, h1, h2, h3, h4, h5, h6, h7, or_self, if_false]
  split <;> rfl

theorem showsOperands_l3 (op : Nat) (w : BitVec 32) :
    ShowsOperands .l3 op w (ilfOperands .l3 op w.toNat).1 (ilfOperands .l3 op w.toNat).2.1 (ilfOperands .l3 op w.toNat).2.2 := by
  simp only [ShowsOperands, ← isSubOp_iff]
  split
  next hsub =>
    rw [ilfOperands_l3 _ w.toNat, if_pos hsub]
    · exact ⟨ilfWord_lane w 3 16, ilfWord_lane w 3 10, rfl⟩
    · have hdisjoint : ∀ op ∈ [0x20, 0x31, 0x32, 0x51, 0x52, 0x53], op ∉ [0x1E, 0x1F, 0x56, 0x58, 0x59, 0x5B, 0x5E] := by decide
      exact hdisjoint op ((isSubOp_iff op).1 hsub)
  next hsub =>
    intro hop
    rw [ilfOperands_l3 hop w.toNat, if_neg hsub]
    exact ⟨ilfWord_lane w 3 16, ilfWord_lane w 3 10, ilfWord_b w⟩

/-- ILF1 to ILF3 show the operands that the layout fixes (R58, R59, R75). -/
theorem showsOperands_ilfOperands (fmt : Fmt) (op : Nat) (w : BitVec 32) :
    ShowsOperands fmt op w (ilfOperands fmt op w.toNat).1 (ilfOperands fmt op w.toNat).2.1 (ilfOperands fmt op w.toNat).2.2 := by
  cases fmt
  case l3 => exact showsOperands_l3 op w
  case cm => exact ⟨ilfWord_nat 3 w 16 (by omega), ilfWord_lane w 3 10, ilfWord_b w⟩
  case li =>
    have himm := ilfWord_signed w 2 (n := 14) (by omega) (by omega) 1
    rw [Int.natCast_one, Int.mul_one] at himm
    exact ⟨ilfWord_lane_zero w 16, rfl, himm⟩
  case lv => exact ⟨ilfWord_lane_zero w 16, ilfWord_lane_zero w 10, rfl⟩
  case lm =>
    intro h1 h2 h3
    simp only [ilfOperands, beq_iff_eq, Bool.or_eq_true, h1, h2, h3, or_self, if_false]
    refine ⟨ilfWord_lane w 0 16, ilfWord_lane w 0 10, ?_⟩
    simpa [field_toNat] using ilfWord_signed w 3 (n := 4) (by omega) (by omega) (2 ^ nat w.toNat 1 2)
  case la => exact ⟨ilfWord_lane w 0 16, ilfWord_lane w 0 10, rfl⟩
  case lb => exact ⟨rfl, ilfWord_lane w 15 16, ilfWord_bytes w 0 (by omega) (by omega) 4⟩
  case lj => exact ⟨rfl, rfl, ilfWord_bytes w 0 (by omega) (by omega) 4⟩
  case lc => exact ⟨ilfWord_lane_zero w 16, rfl, ilfWord_bytes w 0 (by omega) (by omega) 4⟩
  case gi =>
    intro hop
    simp only [ilfOperands, beq_iff_eq, hop, if_false, Bool.and_eq_true, decide_eq_true_eq]
    split
    · exact ⟨ilfWord_nat 2 w 16 (by omega), ilfWord_nat 2 w 10 (by omega), ilfWord_bytes w 0 (by omega) (by omega) 8⟩
    · exact ⟨ilfWord_nat 2 w 16 (by omega), ilfWord_nat 2 w 10 (by omega), ilfWord_immSh w⟩
  case gb => exact ⟨rfl, ilfWord_nat 2 w 16 (by omega), ilfWord_bytes w 0 (by omega) (by omega) 4⟩
  case gj => exact ⟨rfl, rfl, ilfWord_bytes w 0 (by omega) (by omega) 4⟩
  all_goals trivial

/-! ## The trap -/

theorem ilfOf_of_none {w : BitVec 32} (h : opRow (opKey w.toNat) = none) : ilfOf w ⟨1, 22, 7⟩ = ⟨0x16070001, 0, 0, 0⟩ := by
  simp only [ilfOf, h]
  rfl

theorem ilfOf_of_some {w : BitVec 32} {row : OpRow} (h : opRow (opKey w.toNat) = some row) {r : Reject} (hr : r.reason ≠ 1) :
    let n := w.toNat
    let head := ilfHead row.fmt (nat n 22 7) n
    let d := ilfOperands row.fmt (nat n 22 7) n
    ilfOf w r = ⟨BitVec.ofNat 64 (head.1 * 2 ^ 56 + head.2.1 * 2 ^ 48 + head.2.2 * 2 ^ 40 +
      (r.fpos * 2 ^ 24 + r.fwid * 2 ^ 16 + r.reason) + row.fmt.code * 2 ^ 8), d.1, d.2.1, d.2.2⟩ := by
  simp only [ilfOf, h, beq_iff_eq, hr, if_false]

theorem fmt_code_lt (fmt : Fmt) : fmt.code < 256 := by cases fmt <;> decide

/-- What ILF0 to ILF3 hold of a refused word is what R73 to R75 show of it. -/
theorem showsWord_of_ilfOf {w : BitVec 32} {r : Reject} (hr : decode w = .error r) {g : Fibre} (henc : g.ilenc = w.setWidth 64)
    (h0 : g.ilf0 = (ilfOf w r).f0) (h1 : g.ilf1 = (ilfOf w r).f1) (h2 : g.ilf2 = (ilfOf w r).f2) (h3 : g.ilf3 = (ilfOf w r).f3) :
    ShowsWord w r g := by
  unfold ShowsWord
  rcases decode_error_iff.1 hr with ⟨hnone, rfl⟩ | ⟨row, hrow, hcheck⟩
  · rw [ilfOf_of_none hnone] at h0 h1 h2 h3
    simp only [hnone, henc, h0, h1, h2, h3]
    decide
  · obtain ⟨hreason, hlt, hpos, hwid, -⟩ := opRow_soundCheck hrow w.toNat r hcheck
    rw [ilfOf_of_some hrow hreason] at h0 h1 h2 h3
    obtain ⟨hmk, htyc, hsubc⟩ := ilfHead_lt row.fmt (nat w.toNat 22 7) w.toNat
    obtain ⟨f0, f4, f8, f16, f24, f32, f40, f48, f56⟩ :=
      ilf0_fields h0 hmk htyc hsubc (by omega) (by omega) (fmt_code_lt row.fmt) hlt
    simp only [hrow, f40, f48, f56, h1, h2, h3]
    refine ⟨henc, f0, f4, f16, f24, f32, hreason, f8, showsFields_ilfHead row.fmt w, ?_⟩
    rw [field_toNat]
    exact showsOperands_ilfOperands row.fmt _ w

/-- A word that is no instruction traps in the whole batch, and a fibre with no earlier fault shows it. -/
theorem illegalWordRules : IllegalWordRules := by
  intro w r hr
  refine ⟨?reserved, ?nonzero, fun s _ => ?trap⟩
  case reserved =>
    rcases decode_error_iff.1 hr with ⟨hnone, rfl⟩ | ⟨row, hrow, hcheck⟩
    · exact iff_of_true rfl hnone
    · obtain ⟨hreason, -⟩ := opRow_soundCheck hrow w.toNat r hcheck
      exact iff_of_false hreason (by rw [hrow]; exact nofun)
  case nonzero =>
    rcases decode_error_iff.1 hr with ⟨-, rfl⟩ | ⟨row, hrow, hcheck⟩
    · exact nofun
    · obtain ⟨-, -, -, -, h3⟩ := opRow_soundCheck hrow w.toNat r hcheck
      exact h3
  case trap =>
    obtain ⟨honly, hothers, htook⟩ := trapAll_rule s (t := illTrap w r) rfl
    have hexec : exec (.illegalWord w) s = .next { s with dev := s.dev.trapAll (illTrap w r) } := by
      rw [exec_illegalWord, execIllegalWord, hr]
      rfl
    refine ⟨_, hexec, honly, hothers, fun f hf => ⟨_, (htook f hf).1, (htook f hf).2, fun hlate => ?_⟩⟩
    obtain ⟨k, hk⟩ := struck_of_none hlate s.dev (illTrap w r)
    obtain ⟨he, h0, h1, h2, h3, hm⟩ := f.takeTrap_ill (illTrap w r) f.pc (s.dev.trapCtx f).1 (s.dev.trapCtx f).2 s.dev.cycle
    rw [hk]
    exact ⟨showsWord_of_ilfOf hr he h0 h1 h2 h3, hm.trans (by simp only [Fibre.trapRegs, illTrap])⟩

/-- Settles O17: the trap of the batch is one rule, and a refused word is shown as its format and its check say. -/
theorem trapAndIllegalInstructions : Obligations.TrapAndIllegalInstructions := by
  unfold Obligations.TrapAndIllegalInstructions
  exact ⟨trapInstructionsRules, illegalWordRules⟩

end Sys2Proof.Stmt
end
